-- ==== Sys2Proof/Word.lean ====
section
/-! DEFINITION. The byte and the 16-bit check word of the CW6A's frames. Every other quantity of the spec is a
non-negative integer with a range (00_scope, 0.5 "Numbers"), held as `Nat`. -/
namespace Sys2Proof

/-- One byte of a frame (Table 11.1). -/
abbrev Byte := BitVec 8

/-- The 16-bit frame check (R186). -/
abbrev CheckWord := BitVec 16

end Sys2Proof
end

