-- ==== Sys2Proof/Config.lean ====
section
/-! DEFINITION. What the spec fixes for every CW6A (Table 0.4, "Capacities and Ranges") and the values it leaves open,
which are constants without a body (log 10). -/
namespace Sys2Proof

/-- FREE VALUE: the silicon revision number that READ_IDENTITY returns (R200); the spec gives no value (log 10). -/
opaque Config.siliconRevision : BitVec 8

/-- FREE VALUE: the number sent in a report whose subject kind is "wing" (Table 11.3); the spec gives none (log 10). -/
opaque Config.wingSubject : BitVec 32

/-- FREE VALUE: the two code bytes of a report whose code is absent (Table 11.3, code kind 0); the spec gives none
(log 10). -/
opaque Config.absentCode : BitVec 16

/-- Pending replies the reply queue holds (R187). -/
def Config.replyCapacity : Nat := 8
/-- Reports the urgent queue holds (R190). -/
def Config.urgentCapacity : Nat := 32
/-- Reports and PASS_UP messages the routine queue holds (R190). -/
def Config.routineCapacity : Nat := 64
/-- Jobs of an aisle queue at which orders are refused QUEUE_FULL (R57). -/
def Config.queueLimit : Nat := 32
/-- Records of the request list (R105). -/
def Config.requestCapacity : Nat := 64
/-- Entries of a station's return queue (R123). -/
def Config.returnCapacity : Nat := 8
/-- Records of the Item Directory (R21). -/
def Config.itemCapacity : Nat := 262144
/-- The largest item number (R21). -/
def Config.maxItem : Nat := 4294967295
/-- The largest bin number (R6). -/
def Config.maxBin : Nat := 16383
/-- The largest tag of a job, a request or an order (R55, R105, R187). -/
def Config.maxTag : Nat := 65535
/-- The largest fault tag (R178). -/
def Config.maxFaultTag : Nat := 255
/-- The largest deadline, at which a sum saturates (R42, R45). -/
def Config.maxDeadline : Nat := 65535
/-- The largest figure (fill or reserved) of a bin in mm (Table 1.3). -/
def Config.maxFigure : Nat := 1000
/-- Bytes of a telegram body (Table 11.1). -/
def Config.bodyCapacity : Nat := 64
/-- Items a PRESENT lists: a 64-byte body less the bin number (2 bytes) and the two counts (1 byte each), in items of
4 bytes. DEDUCED from R87 and R186 (log 18). -/
def Config.presentCapacity : Nat := 15
/-- The confirm window of the Wing Settings record at power-on, in ds (R194). -/
def Config.defaultConfirmWindow : Nat := 1200
/-- The stop wait of the Wing Settings record at power-on, in ds (R194). -/
def Config.defaultStopWait : Nat := 150
/-- The shutter wait of the Wing Settings record at power-on, in ds (R194). -/
def Config.defaultShutterWait : Nat := 300

end Sys2Proof
end

