-- ==== Sys2Proof/Syntax.lean ====
section
/-! DEFINITION. The commands of the CW6A: one constructor of `Instr` per row of spec/opcode_table.json. The table gives
the rows no operands; each constructor carries the fields that the spec gives its order (Table 11.4, with the order's
tag), its field telegram (with the sender's field address, R193) or its event (log 4). Operands are numbers as the
frame carries them, so that a field out of its range can be judged by the command's own rule. -/
namespace Sys2Proof

/-- L or R: the rack on the left or right of the aisle (Table 0.3). -/
inductive Side where
  | left
  | right
  deriving DecidableEq, Repr

/-- A slot as an order names it, its fields not yet judged (R2). The side field is 1 for L and 2 for R. -/
structure SlotField where
  aisle : Nat
  bay : Nat
  level : Nat
  side : Nat
  deriving DecidableEq, Repr

/-- The phases of a crane job, in their order (R66). -/
inductive Phase where
  | toSource
  | picking
  | toDest
  | placing
  deriving DecidableEq, Repr

/-- The reason a PICK_FAILED carries (R70). -/
inductive PickReason where
  | emptySlot
  | labelMismatch
  deriving DecidableEq, Repr

/-- A label read by a crane: a number, or the mark NONE (Table 11.7, Note 1). -/
inductive Reading where
  | none
  | label (n : Nat)
  deriving DecidableEq, Repr

/-- The states of an item (Table 2.2). -/
inductive ItemState where
  | shelved
  | requested
  | picked
  | lent
  | held
  | returning
  | overflow
  deriving DecidableEq, Repr

/-- The role of a field device (R192). -/
inductive Role where
  | crane
  | station
  | shutter
  | concentrator
  deriving DecidableEq, Repr

/-- A role with its index: what the Field Address Table maps an address to (R192). -/
structure Device where
  role : Role
  index : Nat
  deriving DecidableEq, Repr

/-- The class of a report kind (R189). -/
inductive ReportClass where
  | urgent
  | routine
  deriving DecidableEq, Repr

/-- The loaded fields of a Geometry Table record (Table 1.1). -/
structure Geometry where
  bays : Nat
  levels : Nat
  h0 : Nat
  h1 : Nat
  v0 : Nat
  v1 : Nat
  handling : Nat
  margin : Nat
  grace : Nat
  zone : Nat
  deriving DecidableEq, Repr

/-- The loaded fields of a Station Table record (Table 5.1). `linked` is a set of aisle numbers; as a record holds it,
it is in ascending order. -/
structure StationFields where
  address : Nat
  zone : Nat
  lending : Bool
  returns : Bool
  depth : Nat
  conveyor : Nat
  linked : List Nat
  shutter : Option Nat
  deriving DecidableEq, Repr

/-- The port a frame arrives on (R186). -/
inductive Port where
  | circulation
  | fieldLink
  deriving DecidableEq, Repr

/-- The scopes of QUERY_STATUS (Table 11.9). -/
inductive Scope where
  | wing
  | aisle
  | queue
  | station
  | zone
  | faults
  deriving DecidableEq, Repr

/-- Why an ORDER frame that passes the frame check spells no order of another row (log 4): its kind number (R187,
checks 1 and 2), or a LOAD_RECORD table number outside the eleven tables (R194). -/
inductive Unreadable where
  | kind (n : Nat)
  | table (n : Nat)
  deriving DecidableEq, Repr

/-- The commands, in the order of the table's rows. `tag` is the order's tag and `src` the field address of the sender;
`key` is the level of the maintenance key line at the moment the order is taken (R202). The state of an Item Directory ADD is
absent where its field names no state of Table 2.2 (R31). -/
inductive Instr where
  | powerOn (firePanel key : Bool)
  | resetLineAsserted
  | firePanelAsserted
  | firePanelNegated
  | badFrame (port : Port) (bytes : List Byte)
  | unadmittedFieldTelegram (src kind : Nat)
  | sendNextFrame
  | restartTakesEffect
  | requestItem (tag station : Nat) (items : List Nat)
  | withdrawRequest (tag request : Nat)
  | confirmLoan (tag item reference : Nat)
  | cancelLoan (tag item reference : Nat)
  | callBin (tag bin station : Nat)
  | moveBin (tag bin : Nat) (slot : SlotField)
  | auditBin (tag bin : Nat)
  | releaseBin (tag bin : Nat)
  | aisleOut (tag aisle : Nat)
  | aisleIn (tag aisle : Nat)
  | shutZone (tag zone : Nat)
  | restoreZone (tag zone : Nat) (force key : Bool)
  | ackFault (tag fault : Nat)
  | loadGeometryRecord (tag aisle : Nat) (fields : Geometry) (key : Bool)
  | loadRetryOffsetList (tag aisle : Nat) (offsets : List (Int × Int)) (key : Bool)
  | loadStationRecord (tag station : Nat) (fields : StationFields)
  | loadZoneRecord (tag zone window : Nat)
  | loadConcentratorRecord (tag concentrator address zone period : Nat)
  | loadShutterRecord (tag shutter address zone : Nat)
  | loadFieldAddress (tag address : Nat) (entry : Option Device)
  | loadReportClass (tag kind : Nat) (cls : ReportClass)
  | loadWingSettings (tag confirm stop shutter : Nat)
  | binMapAdd (tag bin : Nat) (home : SlotField) (capacity sizeClass : Nat)
  | binMapEdit (tag bin : Nat) (home : SlotField) (capacity sizeClass : Nat)
  | binMapRetire (tag bin : Nat)
  | itemDirectoryAdd (tag item thickness sizeClass : Nat) (state : Option ItemState) (home : Option Nat)
  | itemDirectoryEdit (tag item thickness sizeClass : Nat)
  | itemDirectoryRemove (tag item : Nat)
  | readRecord (tag table key : Nat)
  | closeCommissioning (tag : Nat)
  | reopenCommissioning (tag : Nat) (key : Bool)
  | queryStatus (tag : Nat) (scope : Scope) (number position : Nat) (key : Bool)
  | readIdentity (tag : Nat)
  | restart (tag : Nat)
  | passDown (station : Nat) (text : List Byte)
  | phase (src : Nat) (phase : Phase) (bay level : Nat)
  | done (src : Nat)
  | pickFailed (src : Nat) (reason : PickReason)
  | auditResult (src : Nat) (reading : Reading)
  | stopped (src : Nat) (phase : Phase) (load forks : Bool)
  | parked (src : Nat) (reading : Reading)
  | craneFault (src : Nat)
  | binArrived (src label : Nat)
  | itemOutScan (src item : Nat)
  | itemInScan (src item : Nat)
  | returnScan (src item : Nat)
  | binDone (src label : Nat)
  | mouthOccupied (src : Nat)
  | mouthClear (src : Nat)
  | stationFault (src : Nat)
  | terminalKey (src : Nat) (data : List Byte)
  | closed (src : Nat)
  | opened (src : Nat)
  | jammed (src : Nat)
  | beat (src token : Nat)
  | prealarm (src detector : Nat)
  | alarm (src detector : Nat)
  | clear (src detector : Nat)
  | trouble (src detector : Nat)
  | craneDeadlineExpiry (aisle : Nat)
  | inTransitDeadlineExpiry (station bin : Nat)
  | confirmWindowExpiry (request : Nat)
  | alertWindowExpiry (zone : Nat)
  | supervisionExpiry (concentrator : Nat)
  | shutterWaitExpiry (shutter : Nat)
  | stopWaitExpiry (aisle : Nat)
  | unknownOrder (tag : Nat) (why : Unreadable)
  deriving DecidableEq, Repr

end Sys2Proof
end

