-- ==== Sys2Proof/Machine/Table.lean ====
section
/-! DEFINITION. A loaded table: records by a number, in ONE canonical form (numbers strictly rising), so that equal
tables are equal data. "It is keyed by ... and holds no number twice" (R6, R21, R192). -/
namespace Sys2Proof.Machine

/-- Records by number, numbers strictly rising. -/
abbrev Table (α : Type) := List (Nat × α)

variable {α : Type}

/-- The record of a number, if the table holds one. -/
def Table.look : Table α → Nat → Option α
  | [], _ => none
  | (k, v) :: rest, n => if k = n then some v else Table.look rest n

/-- Creates or replaces the record of a number. -/
def Table.put : Table α → Nat → α → Table α
  | [], n, v => [(n, v)]
  | (k, w) :: rest, n, v =>
    if n < k then (n, v) :: (k, w) :: rest
    else if k = n then (n, v) :: rest
    else (k, w) :: Table.put rest n v

/-- Removes the record of a number; a table without one is unchanged. -/
def Table.remove (t : Table α) (n : Nat) : Table α :=
  t.filter (fun e => e.1 != n)

/-- Changes the record of a number, where there is one. -/
def Table.adjust : Table α → Nat → (α → α) → Table α
  | [], _, _ => []
  | (k, v) :: rest, n, f => if k = n then (k, f v) :: rest else (k, v) :: Table.adjust rest n f

/-- Changes every record. -/
def Table.mapRecords (t : Table α) (f : Nat → α → α) : Table α :=
  t.map (fun e => (e.1, f e.1 e.2))

/-- The numbers that have a record, in ascending order. -/
def Table.numbers (t : Table α) : List Nat := t.map (fun e => e.1)

/-- The numbers of the records for which `p` holds, in ascending order. -/
def Table.select (t : Table α) (p : α → Bool) : List Nat :=
  (t.filter (fun e => p e.2)).map (fun e => e.1)

/-- The canonical form: numbers strictly rising. -/
def Table.wf : Table α → Bool
  | [] => true
  | [_] => true
  | a :: b :: rest => decide (a.1 < b.1) && Table.wf (b :: rest)

end Sys2Proof.Machine
end

