-- ==== Sys2Proof/Machine/State.lean ====
section
/-! DEFINITION. The records of the CW6A, as plain data: every table, record, list, queue, mark and line that the spec
names (INVENTORY.md, "State", names the rule and the reset value of each), the frames and telegrams the two ports have
sent, and the queue of commands that are waiting. -/
namespace Sys2Proof.Machine

/-! ### Geometry, jobs and cranes (chapters 1, 3, 4 and 9) -/

/-- A storage place in bounds of the fixed ranges (R2). -/
structure Slot where
  aisle : Nat
  bay : Nat
  level : Nat
  side : Side
  deriving DecidableEq, Repr

/-- A place of a crane in its aisle; the front port is the point (0, 1) (R3). -/
structure Point where
  bay : Nat
  level : Nat
  deriving DecidableEq, Repr

/-- The service state of an aisle (R4). -/
inductive Service where
  | inService
  | draining
  | outOfService
  deriving DecidableEq, Repr

/-- The kinds of crane job (Table 4.1). -/
inductive JobKind where
  | retrieve
  | store
  | transfer
  | audit
  | park
  deriving DecidableEq, Repr

/-- Why a RETRIEVE calls its bin (Table 4.1); `ret` is RETURN. -/
inductive Purpose where
  | request
  | call
  | ret
  deriving DecidableEq, Repr

/-- A slot or the front port, as source or destination of a job (Table 4.1). -/
inductive Locus where
  | slot (s : Slot)
  | frontPort
  deriving DecidableEq, Repr

/-- A job record (Table 4.1). -/
structure Job where
  tag : Nat
  kind : JobKind
  bin : Option Nat
  source : Option Locus
  destination : Locus
  station : Option Nat
  purpose : Option Purpose
  deriving DecidableEq, Repr

/-- The states of a crane (Table 4.4). -/
inductive CraneState where
  | parking
  | idle
  | busy
  | stopping
  | stopped
  | faulted
  | outOfService
  deriving DecidableEq, Repr

/-- A deadline: its remaining value in ds, and whether it is running or paused (R44, R47, R48). -/
structure Deadline where
  left : Nat
  running : Bool
  deriving DecidableEq, Repr

/-- A suspension record (Table 9.1). -/
structure Suspension where
  job : Job
  phaseAtStop : Phase
  load : Bool
  forks : Bool
  recoverable : Bool
  pausedLeft : Nat
  parkLabel : Option Reading
  deriving DecidableEq, Repr

/-- A crane record (Table 4.3), with the crane's stop wait (R160) and its suspension record (R158). `position` is none
for UNKNOWN. -/
structure Crane where
  state : CraneState
  phase : Option Phase
  position : Option Point
  active : Option Job
  staged : Option Job
  retryIndex : Nat
  deadline : Option Deadline
  stopWait : Option Nat
  suspension : Option Suspension
  deriving DecidableEq, Repr

/-- An aisle: its Geometry Table record with the service state (Table 1.1), its retry offset list (R69), its job queue,
head first (R56), and its crane record (R59). -/
structure Aisle where
  geom : Geometry
  service : Service
  retry : List (Int × Int)
  queue : List Job
  crane : Crane
  deriving DecidableEq, Repr

/-! ### Stations (chapters 5 and 7) -/

/-- A place of a buffer lane: a bin, or a foreign tray with its label (Table 5.2, R94). -/
inductive Place where
  | bin (n : Nat)
  | tray (label : Nat)
  deriving DecidableEq, Repr

/-- An entry of an in-transit list (R89). -/
structure Transit where
  bin : Nat
  deadline : Deadline
  deriving DecidableEq, Repr

/-- An entry of a return queue (R123). -/
structure ReturnEntry where
  item : Nat
  target : Nat
  deriving DecidableEq, Repr

/-- A Station Table record with its working parts (Tables 5.1 and 5.2). `lane` is the stack of the buffer lane, TOP
FIRST; `overdue` is a set of bins in ascending order. -/
structure Station where
  loaded : StationFields
  lane : List Place
  inTransit : List Transit
  overdue : List Nat
  returns : List ReturnEntry
  hold : Bool
  mouthOccupied : Bool
  deriving DecidableEq, Repr

/-! ### Zones, concentrators and shutters (chapters 8 and 9) -/

/-- The states of a zone (Table 8.3). -/
inductive ZoneState where
  | normal
  | alert
  | shutdown
  | secured
  | restoring
  deriving DecidableEq, Repr

/-- The cause set of a zone (Table 8.2): each cause in it or not. -/
structure Causes where
  prealarm : Bool
  trouble : Bool
  silent : Bool
  token : Bool
  start : Bool
  deriving DecidableEq, Repr

/-- A Zone Table record: the loaded alert window and the working part (R138). -/
structure Zone where
  window : Nat
  state : ZoneState
  causes : Causes
  windowLeft : Option Nat
  deriving DecidableEq, Repr

/-- The health of a concentrator (R142). -/
inductive Health where
  | unheard
  | healthy
  | tokenFault
  | silent
  deriving DecidableEq, Repr

/-- The condition of a detector entry (Table 8.1). -/
inductive Condition where
  | pre
  | alarm
  | trouble
  deriving DecidableEq, Repr

/-- A Concentrator record: loaded fields (R140) and live part (Table 8.1). -/
structure Concentrator where
  address : Nat
  zone : Nat
  period : Nat
  health : Health
  token : Option Nat
  supervision : Option Nat
  detectors : Table Condition
  deriving DecidableEq, Repr

/-- The live state of a shutter (Table 9.2). -/
inductive ShutterState where
  | opened
  | waitingMouth
  | closing
  | closed
  | opening
  | jammed
  deriving DecidableEq, Repr

/-- A Shutter record: loaded fields (R141), live state and shutter wait (R163). -/
structure Shutter where
  address : Nat
  zone : Nat
  state : ShutterState
  wait : Option Nat
  deriving DecidableEq, Repr

/-! ### Bins, items and requests (chapters 1, 2 and 6) -/

/-- The states of a bin (Table 1.4). -/
inductive BinState where
  | stored
  | called
  | onCrane
  | inTransit
  | inLane
  | lockedOut
  | homebound
  | missing
  | inDoubt
  deriving DecidableEq, Repr

/-- A Bin Map record (Table 1.3). -/
structure Bin where
  home : Slot
  pendingHome : Option Slot
  capacity : Nat
  sizeClass : Nat
  fill : Nat
  reserved : Nat
  count : Nat
  state : BinState
  trip : Option Nat
  next : Option Nat
  deriving DecidableEq, Repr

/-- An Item Directory record (Table 2.1). -/
structure Item where
  thickness : Nat
  sizeClass : Nat
  state : ItemState
  home : Option Nat
  target : Option Nat
  deriving DecidableEq, Repr

/-- The states of a request (Table 6.2). -/
inductive RequestState where
  | awaitingBin
  | atStation
  | presented
  | picked
  deriving DecidableEq, Repr

/-- A request record (Table 6.1). -/
structure Request where
  tag : Nat
  order : Nat
  item : Nat
  station : Nat
  state : RequestState
  window : Option Nat
  deriving DecidableEq, Repr

/-! ### Replies, reports and telegrams (chapter 11) -/

/-- The order refusal codes, in the order of Table 11.5. -/
inductive RefusalCode where
  | unknownOrder
  | malformed
  | notInService
  | halted
  | locked
  | badField
  | checkFailed
  | wingBusy
  | tableFull
  | outOfBounds
  | slotTaken
  | otherAisle
  | unknownBin
  | binMissing
  | binInDoubt
  | binBusy
  | unknownItem
  | itemNotShelved
  | badStation
  | notReachable
  | listFull
  | queueFull
  | noSuchRequest
  | alreadyPicked
  | tooLate
  | noFault
  | tagMismatch
  | notSecured
  | firePersists
  deriving DecidableEq, Repr

/-- The scan refusal codes, in the order of Table 11.6. -/
inductive ScanCode where
  | notPresented
  | notRequested
  | wrongBin
  | notOut
  | alreadyReturning
  | returnQueueFull
  | role
  | zoneClosed
  | halted
  | binLocked
  | binBusy
  deriving DecidableEq, Repr

/-- The report kinds, in kind-number order (R190). -/
inductive ReportKind where
  | requestReady
  | requestDelayed
  | requestFailed
  | itemPicked
  | loanExpired
  | binPresented
  | binStored
  | binMissing
  | binInDoubt
  | unexpectedBin
  | lateArrival
  | returnAccepted
  | returnShelved
  | returnOverflow
  | returnDisplaced
  | aisleState
  | zoneState
  | firePanel
  | supervision
  | fault
  | halted
  | fieldProtocol
  deriving DecidableEq, Repr

/-- The subject of a report (Table 11.3). -/
inductive Subject where
  | item (n : Nat)
  | bin (n : Nat)
  | station (n : Nat)
  | zone (n : Nat)
  | aisle (n : Nat)
  | faultTag (n : Nat)
  | wing
  deriving DecidableEq, Repr

/-- The major fault kinds, in the order of Table 10.1. -/
inductive FaultKind where
  | craneOverdue
  | craneFault
  | craneNoStop
  | shutterJammed
  | stationFault
  | conveyorOverdue
  deriving DecidableEq, Repr

/-- The code of a report: a number, or a name of one of the lists of R190. -/
inductive Code where
  | number (n : Nat)
  | refusal (c : RefusalCode)
  | zoneState (z : ZoneState)
  | service (v : Service)
  | faultKind (k : FaultKind)
  | reason (r : PickReason)
  | firePanel (asserted : Bool)
  deriving DecidableEq, Repr

/-- A posted report (R190). -/
structure Report where
  kind : ReportKind
  subject : Subject
  order : Option Nat
  code : Option Code
  deriving DecidableEq, Repr

/-- An entry of the routine queue: a report, or a PASS_UP message (R190). -/
inductive RoutineEntry where
  | report (r : Report)
  | passUp (station : Nat) (data : List Byte)
  deriving DecidableEq, Repr

/-- A telegram sent on the field link (R186), as named fields (00_scope, 0.4); `fieldFrame` is its frame. -/
inductive FieldTelegram where
  | job (tag : Nat) (kind : JobKind) (source : Option Locus) (destination : Locus) (offset : Int × Int)
  | stage (tag : Nat) (kind : JobKind) (source : Option Locus) (destination : Locus) (station : Option Nat)
  | unstage (tag : Nat)
  | retry (offset : Int × Int)
  | abandon (tag : Nat)
  | stop
  | park (tag : Nat)
  | present (bin toPick toShelve : Nat) (items : List Nat)
  | scanRefused (code : ScanCode)
  | retract
  | hold
  | resume
  | terminalText (data : List Byte)
  | closeShutter (force : Bool)
  | openShutter
  deriving DecidableEq, Repr

/-- A frame on the circulation link or the field link (Table 11.1), without the fixed start mark and the check, which are
computed from it (R186). -/
structure Frame where
  destination : Nat
  source : Nat
  cls : Nat
  kind : Nat
  tag : Nat
  body : List Byte
  deriving DecidableEq, Repr

/-! ### The Fault Unit (chapter 10) -/

/-- The fault state (R178). -/
inductive FaultState where
  | clear
  | pending
  | halted
  deriving DecidableEq, Repr

/-- A fault record (Table 10.2). -/
structure FaultRecord where
  tag : Nat
  kind : FaultKind
  subject : Nat
  jobTag : Option Nat
  bin : Option Nat
  detail : Option Nat
  recoverable : Bool
  deriving DecidableEq, Repr

/-- The Fault Unit's records (R178) and the halted line it drives (R181, R202). -/
structure FaultUnit where
  state : FaultState
  first : Option FaultRecord
  halting : Option FaultRecord
  nextTag : Nat
  haltedLine : Bool
  deriving DecidableEq, Repr

/-! ### Results of reads, replies and the Link Interface -/

/-- The Wing Settings record (R194). -/
structure Settings where
  confirm : Nat
  stop : Nat
  shutter : Nat
  deriving DecidableEq, Repr

/-- The mode (R196). -/
inductive Mode where
  | commissioning
  | inService
  deriving DecidableEq, Repr

/-- What last brought the working records to their present state (R200). -/
inductive StartCause where
  | powerOn
  | resetLine
  | restartOrder
  deriving DecidableEq, Repr

/-- A place of a lane as QUERY_STATUS returns it: the place and, for a bin, its state (R85). -/
structure LanePlace where
  place : Place
  state : Option BinState
  deriving DecidableEq, Repr

/-- What a reply carries beside its outcome (Table 11.2, offset 3): the outcomes of a REQUEST_ITEM, or the fields that
READ_RECORD (R195), QUERY_STATUS (R201) or READ_IDENTITY (R200) return. -/
inductive Result where
  | empty
  | outcomes (l : List (Option RefusalCode × Nat))
  | geometry (g : Geometry) (service : Service)
  | offsets (l : List (Int × Int))
  | station (f : StationFields)
  | zone (z : Zone) (aisles stations concentrators shutters : List Nat)
  | concentrator (c : Concentrator)
  | shutter (s : Shutter) (bound : Option Nat)
  | device (d : Device)
  | reportClass (c : ReportClass)
  | settings (s : Settings)
  | bin (number : Nat) (b : Bin)
  | item (number : Nat) (i : Item)
  | request (r : Request)
  | returnQueue (l : List ReturnEntry)
  | identity (mode : Mode) (cause : StartCause) (haltedBefore : Bool)
  | statusWing (mode : Mode) (fault : FaultState) (cause : StartCause) (firePanel key halted secured : Bool)
      (requests urgent routine : Nat) (urgentOverrun routineOverrun : Bool)
  | statusAisle (service : Service) (crane : Crane) (queued : Nat)
  | statusQueue (length : Nat) (jobs : List (Nat × JobKind))
  | statusStation (lane : List LanePlace) (inTransit : List Transit) (overdueCount : Nat) (overdue : List Nat)
      (returns : Nat) (hold mouthOccupied : Bool) (claims : Nat)
  | statusZone (state : ZoneState) (causes : Causes) (windowLeft : Option Nat) (healths : List Health)
      (shutters : List (ShutterState × Option Nat))
  | statusFaults (state : FaultState) (first halting : Option FaultRecord)
  deriving DecidableEq, Repr

/-- A reply (Table 11.2): the order's tag, the refusal code (none when ACCEPTED), the number of a failing check, and
the result. -/
structure Reply where
  tag : Nat
  refusal : Option RefusalCode
  detail : Nat
  result : Result
  deriving DecidableEq, Repr

/-- The Link Interface: the reply queue (R187), the two report queues and their overrun pending marks (R190), the ORDER
frames waiting in the circulation port (R187, R199; log 8), the mark of a RESTART order whose restart has not yet taken
effect (R199), and what the two ports have sent, oldest first (log 9). -/
structure Link where
  replies : List Reply
  urgent : List Report
  routine : List RoutineEntry
  urgentOverrun : Bool
  routineOverrun : Bool
  waiting : List Instr
  restartPending : Bool
  sent : List Frame
  field : List Frame
  deriving DecidableEq, Repr

/-- The whole controller. -/
structure State where
  mode : Mode
  startCause : StartCause
  haltedBefore : Bool
  aisles : Table Aisle
  stations : Table Station
  zones : Table Zone
  concentrators : Table Concentrator
  shutters : Table Shutter
  addresses : Table Device
  classes : Table ReportClass
  settings : Settings
  bins : Table Bin
  items : Table Item
  requests : List Request
  nextRequest : Nat
  nextJob : Nat
  faults : FaultUnit
  firePanel : Bool
  keyLine : Bool
  securedLine : Bool
  link : Link
  pending : List Instr
  deriving DecidableEq, Repr

/-- The stops of a step. There are none: every command of the CW6A has an effect in every state (a refused order gets a
reply, a refused scan a telegram, a dropped telegram nothing), and the faults of chapter 10 are records of the wing,
after which the controller goes on (R183). No constructor, so no step ends in one: safe. -/
inductive Fault where
  deriving DecidableEq, Repr

/-- The refusals of the model. -/
inductive Refusal where
  /-- Raised by an arm of `exec` whose command has no meaning yet; no arm raises it now. Safe. -/
  | notModelled (mnemonic : String)
  deriving DecidableEq, Repr

/-- The Link Interface at power-on (R190): every queue empty, every mark clear. -/
def Link.reset : Link :=
  { replies := [], urgent := [], routine := [], urgentOverrun := false, routineOverrun := false,
    waiting := [], restartPending := false, sent := [], field := [] }

/-- The Fault Unit at power-on (R185). -/
def FaultUnit.reset : FaultUnit :=
  { state := .clear, first := none, halting := none, nextTag := 1, haltedLine := false }

/-- The controller right after power-on (R196 and the rules named in INVENTORY.md), with the fire panel line negated and
the key line not active, which the spec leaves to the lines (log 1). -/
def State.reset : State :=
  { mode := .commissioning
    startCause := .powerOn
    haltedBefore := false
    aisles := []
    stations := []
    zones := []
    concentrators := []
    shutters := []
    addresses := []
    classes := []
    settings := { confirm := Config.defaultConfirmWindow, stop := Config.defaultStopWait,
                  shutter := Config.defaultShutterWait }
    bins := []
    items := []
    requests := []
    nextRequest := 1
    nextJob := 1
    faults := FaultUnit.reset
    firePanel := false
    keyLine := false
    securedLine := false
    link := Link.reset
    pending := [] }

end Sys2Proof.Machine
end

