-- ==== Sys2Proof/Machine/Bytes.lean ====
section
/-! DEFINITION. How fields become bytes (11.1, R186): numbers, optional fields, the places of names in their lists, and the
frames of the telegrams that this controller sends on the field link (Table 11.1; log 11). -/
namespace Sys2Proof

/-! ### The numbers of the names that commands carry (R190, R66; log 11) -/

/-- Pick failure reasons, in the order of R190. -/
def PickReason.place : PickReason → Nat
  | .emptySlot => 1
  | .labelMismatch => 2

def Phase.place : Phase → Nat
  | .toSource => 1
  | .picking => 2
  | .toDest => 3
  | .placing => 4

def ItemState.place : ItemState → Nat
  | .shelved => 1
  | .requested => 2
  | .picked => 3
  | .lent => 4
  | .held => 5
  | .returning => 6
  | .overflow => 7

def Role.place : Role → Nat
  | .crane => 1
  | .station => 2
  | .shutter => 3
  | .concentrator => 4

def ReportClass.place : ReportClass → Nat
  | .urgent => 1
  | .routine => 2

def Side.place : Side → Nat
  | .left => 1
  | .right => 2

/-- A label, FFFF hexadecimal for NONE (Table 11.7, Note 1). -/
def Reading.number : Reading → Nat
  | .none => 65535
  | .label n => n

end Sys2Proof

namespace Sys2Proof.Machine

/-! ### Numbers as bytes -/

/-- A number in `w` bytes, most significant byte first (11.1). -/
def bytesOf : Nat → Nat → List Byte
  | 0, _ => []
  | w + 1, n => BitVec.ofNat 8 (n / 256 ^ w) :: bytesOf w n

/-- A body field: a number in its fewest whole bytes, an optional number, preceded by a presence byte (R186), or the bytes of
a terminal text (R103). -/
inductive Field where
  | num (width value : Nat)
  | opt (width : Nat) (value : Option Nat)
  | data (l : List Byte)
  deriving DecidableEq, Repr

/-- The bytes of a body field (R186). -/
def Field.bytes : Field → List Byte
  | .num w n => bytesOf w n
  | .opt _ none => [0#8]
  | .opt w (some n) => 1#8 :: bytesOf w n
  | .data l => l

/-- The bytes of fields in their order. -/
def fieldBytes (l : List Field) : List Byte := l.flatMap Field.bytes

/-! ### The places of names in their lists, counting from 1 (R186, R190; log 11) -/

/-- Refusal codes, in the order of Table 11.5. -/
def RefusalCode.number : RefusalCode → Nat
  | .unknownOrder => 1
  | .malformed => 2
  | .notInService => 3
  | .halted => 4
  | .locked => 5
  | .badField => 6
  | .checkFailed => 7
  | .wingBusy => 8
  | .tableFull => 9
  | .outOfBounds => 10
  | .slotTaken => 11
  | .otherAisle => 12
  | .unknownBin => 13
  | .binMissing => 14
  | .binInDoubt => 15
  | .binBusy => 16
  | .unknownItem => 17
  | .itemNotShelved => 18
  | .badStation => 19
  | .notReachable => 20
  | .listFull => 21
  | .queueFull => 22
  | .noSuchRequest => 23
  | .alreadyPicked => 24
  | .tooLate => 25
  | .noFault => 26
  | .tagMismatch => 27
  | .notSecured => 28
  | .firePersists => 29

/-- Scan refusal codes, in the order of Table 11.6. -/
def ScanCode.number : ScanCode → Nat
  | .notPresented => 1
  | .notRequested => 2
  | .wrongBin => 3
  | .notOut => 4
  | .alreadyReturning => 5
  | .returnQueueFull => 6
  | .role => 7
  | .zoneClosed => 8
  | .halted => 9
  | .binLocked => 10
  | .binBusy => 11

/-- Zone states, in the order of Table 8.3. -/
def ZoneState.place : ZoneState → Nat
  | .normal => 1
  | .alert => 2
  | .shutdown => 3
  | .secured => 4
  | .restoring => 5

/-- Service states, in the order of R190. -/
def Service.place : Service → Nat
  | .inService => 1
  | .draining => 2
  | .outOfService => 3

/-- Fault kinds, in the order of Table 10.1. -/
def FaultKind.place : FaultKind → Nat
  | .craneOverdue => 1
  | .craneFault => 2
  | .craneNoStop => 3
  | .shutterJammed => 4
  | .stationFault => 5
  | .conveyorOverdue => 6

/-- Field telegrams sent, in the order of R186. -/
def FieldTelegram.number : FieldTelegram → Nat
  | .job .. => 1
  | .stage .. => 2
  | .unstage .. => 3
  | .retry .. => 4
  | .abandon .. => 5
  | .stop => 6
  | .park .. => 7
  | .present .. => 8
  | .scanRefused .. => 9
  | .retract => 10
  | .hold => 11
  | .resume => 12
  | .terminalText .. => 13
  | .closeShutter .. => 14
  | .openShutter => 15

def BinState.place : BinState → Nat
  | .stored => 1
  | .called => 2
  | .onCrane => 3
  | .inTransit => 4
  | .inLane => 5
  | .lockedOut => 6
  | .homebound => 7
  | .missing => 8
  | .inDoubt => 9

def JobKind.place : JobKind → Nat
  | .retrieve => 1
  | .store => 2
  | .transfer => 3
  | .audit => 4
  | .park => 5

def Purpose.place : Purpose → Nat
  | .request => 1
  | .call => 2
  | .ret => 3

def CraneState.place : CraneState → Nat
  | .parking => 1
  | .idle => 2
  | .busy => 3
  | .stopping => 4
  | .stopped => 5
  | .faulted => 6
  | .outOfService => 7

def Health.place : Health → Nat
  | .unheard => 1
  | .healthy => 2
  | .tokenFault => 3
  | .silent => 4

def ShutterState.place : ShutterState → Nat
  | .opened => 1
  | .waitingMouth => 2
  | .closing => 3
  | .closed => 4
  | .opening => 5
  | .jammed => 6

def RequestState.place : RequestState → Nat
  | .awaitingBin => 1
  | .atStation => 2
  | .presented => 3
  | .picked => 4

def Mode.place : Mode → Nat
  | .commissioning => 1
  | .inService => 2

def StartCause.place : StartCause → Nat
  | .powerOn => 1
  | .resetLine => 2
  | .restartOrder => 3

def FaultState.place : FaultState → Nat
  | .clear => 1
  | .pending => 2
  | .halted => 3

/-- A mark: 1 or 0. -/
def markField (b : Bool) : Field := .num 1 (if b then 1 else 0)

/-- A set of numbers counting from `base` as bits: the bit of value 2^(n - base) is set for a member n (as R140 returns a
detector map). -/
def maskOf (base : Nat) (l : List Nat) : Nat := (l.map fun n => 2 ^ (n - base)).sum

/-! ### Places and offsets -/

def Slot.fields (v : Slot) : List Field := [.num 1 v.aisle, .num 1 v.bay, .num 1 v.level, .num 1 v.side.place]

/-- A slot, or the front port as bay 0 and level 1 with neither aisle nor side. -/
def Locus.fields : Locus → List Field
  | .slot v => v.fields
  | .frontPort => [.num 1 0, .num 1 0, .num 1 1, .num 1 0]

/-- An optional group of fields, preceded by a presence byte. -/
def optFields (l : Option (List Field)) : List Field :=
  match l with
  | none => [.num 1 0]
  | some f => .num 1 1 :: f

/-- A mm offset in one byte, two's complement. -/
def offsetField (n : Int) : Field := .num 1 ((n + 256) % 256).toNat

/-! ### Telegrams on the field link (R186) -/

/-- A pair of mm offsets (R69). -/
def pairFields (p : Int × Int) : List Field := [offsetField p.1, offsetField p.2]

/-- What JOB and STAGE carry of a job: tag, kind, source and destination (R62, R63). -/
def jobFields (tag : Nat) (kind : JobKind) (source : Option Locus) (destination : Locus) : List Field :=
  [.num 2 tag, .num 1 kind.place] ++ optFields (source.map Locus.fields) ++ destination.fields

/-- The fields of a field telegram, in the order in which the rule that sends it names them (log 11). -/
def FieldTelegram.fields : FieldTelegram → List Field
  | .job tag kind source destination offset => jobFields tag kind source destination ++ pairFields offset
  | .stage tag kind source destination station => jobFields tag kind source destination ++ [.opt 1 station]
  | .unstage tag | .abandon tag | .park tag => [.num 2 tag]
  | .retry offset => pairFields offset
  | .present bin toPick toShelve items => [.num 2 bin, .num 1 toPick, .num 1 toShelve] ++ items.map (.num 4)
  | .scanRefused code => [.num 1 code.number]
  | .terminalText text => [.data text]
  | .closeShutter force => [markField force]
  | .stop | .retract | .hold | .resume | .openShutter => []

/-- The frame of a telegram on the field link (Table 11.1): this controller is address 0, the class is 6 (FIELD), the kind is
the telegram's number, the tag 0. -/
def fieldFrame (destination : Nat) (t : FieldTelegram) : Frame :=
  { destination := destination, source := 0, cls := 6, kind := t.number, tag := 0, body := fieldBytes t.fields }

end Sys2Proof.Machine
end

