-- ==== Sys2Proof/Machine/Operands.lean ====
section
/-! DEFINITION. The judgement of the fields that commands carry against their ranges: Tables 1.1, 1.3, 2.1, 5.1 and
rules R2, R69, R138 to R141, R192 and R194. A field outside its range is refused BAD_FIELD by the command's own rule. And
when a timer that a command finds has run out (R44; log 2, log 3). -/
namespace Sys2Proof.Machine

/-- "A range written 1..120 includes both ends" (00_scope, 0.5). -/
def within (lo hi n : Nat) : Bool := decide (lo ≤ n) && decide (n ≤ hi)

/-- Side numbers of an order: 1 for L, 2 for R (log 11). -/
def sideOf : Nat → Option Side
  | 1 => some .left
  | 2 => some .right
  | _ => none

/-- A slot whose fields lie inside the ranges fixed for all aisles: aisle 1..6, bay 1..120, level 1..24, side L or R
(R2); otherwise none. -/
def slotOf (f : SlotField) : Option Slot :=
  if within 1 6 f.aisle && within 1 120 f.bay && within 1 24 f.level then
    (sideOf f.side).map fun d => { aisle := f.aisle, bay := f.bay, level := f.level, side := d }
  else none

/-- Table 1.1. -/
def geometryInRange (g : Geometry) : Bool :=
  within 1 120 g.bays && within 1 24 g.levels && within 0 100 g.h0 && within 1 50 g.h1 && within 0 100 g.v0
    && within 1 50 g.v1 && within 10 200 g.handling && within 0 400 g.margin && within 0 3000 g.grace
    && within 1 8 g.zone

/-- R69: at most 6 pairs, each offset -40..+40 mm. -/
def offsetsInRange (l : List (Int × Int)) : Bool :=
  decide (l.length ≤ 6)
    && l.all fun p => decide (-40 ≤ p.1) && decide (p.1 ≤ 40) && decide (-40 ≤ p.2) && decide (p.2 ≤ 40)

/-- Table 5.1. -/
def stationFieldsInRange (f : StationFields) : Bool :=
  within 1 63 f.address && within 1 8 f.zone && within 1 4 f.depth && within 0 600 f.conveyor
    && f.linked.all (within 1 6)
    && (match f.shutter with
        | none => true
        | some n => within 1 8 n)

/-- The linked aisles as a set: in ascending order, none twice (Table 5.1). -/
def asAisleSet (l : List Nat) : List Nat := [1, 2, 3, 4, 5, 6].filter fun a => decide (a ∈ l)

/-- R192: the index of a role: an aisle 1..6, a station 1..4, a shutter 1..8 or a concentrator 1..16. -/
def deviceInRange (d : Device) : Bool :=
  match d.role with
  | .crane => within 1 6 d.index
  | .station => within 1 4 d.index
  | .shutter => within 1 8 d.index
  | .concentrator => within 1 16 d.index

/-- R194: confirm window 100..6,000 ds, stop wait and shutter wait 50..600 ds. -/
def settingsInRange (confirm stop shutter : Nat) : Bool :=
  within 100 6000 confirm && within 50 600 stop && within 50 600 shutter

/-- Capacity 50..1,000 mm (Table 1.3). -/
def capacityInRange (n : Nat) : Bool := within 50 1000 n

/-- Size class 0..7 (Tables 1.3 and 2.1). -/
def sizeClassInRange (n : Nat) : Bool := within 0 7 n

/-- Thickness 1..250 mm (Table 2.1). -/
def thicknessInRange (n : Nat) : Bool := within 1 250 n

/-- Item number 1..4,294,967,295 (R21). -/
def itemNumberInRange (n : Nat) : Bool := within 1 Config.maxItem n

/-- Bin number 0..16,383 (R6). -/
def binNumberInRange (n : Nat) : Bool := within 0 Config.maxBin n

/-- Tag 1..65,535 of a request (R105) or an order (R187). -/
def tagInRange (n : Nat) : Bool := within 1 Config.maxTag n

/-- The state and home bin of an Item Directory ADD (R31): SHELVED with a home bin, or LENT without one. -/
def addCombination (st : ItemState) (home : Option Nat) : Bool :=
  match st, home with
  | .shelved, some b => binNumberInRange b
  | .lent, none => true
  | _, _ => false

/-- A timer runs out: its last ds is the one that passes (R44; log 2). -/
def runsOut (n : Nat) : Bool := decide (n ≤ 1)

/-- A deadline that is running, not paused, runs out (R44). -/
def Deadline.out (d : Deadline) : Bool := d.running && runsOut d.left

/-- A clamped crane position (R66): a bay above B becomes B, a level above L becomes L, a level below 1 becomes 1; bay 0
is kept. -/
def clampPoint (g : Geometry) (bay level : Nat) : Point :=
  { bay := if g.bays < bay then g.bays else bay
    level := if g.levels < level then g.levels else if level < 1 then 1 else level }

end Sys2Proof.Machine
end

