-- ==== Sys2Proof/Machine/Ops.lean ====
section
/-! DEFINITION. The named operations over the controller's records: one update function per record or table, the reads
that every block makes of another block's records (member sets R139, claims R88, presented bins R86, the jobs that name
a bin R55), and the posting of reports and sending of telegrams (R186, R190). -/
namespace Sys2Proof.Machine

/-! ### Updates: each writes ONE field of State -/

def State.setMode (s : State) (v : Mode) : State := { s with mode := v }
def State.setStartCause (s : State) (v : StartCause) : State := { s with startCause := v }
def State.setHaltedBefore (s : State) (v : Bool) : State := { s with haltedBefore := v }
def State.setAisles (s : State) (v : Table Aisle) : State := { s with aisles := v }
def State.modAisle (s : State) (a : Nat) (f : Aisle → Aisle) : State := { s with aisles := s.aisles.adjust a f }
def State.modCrane (s : State) (a : Nat) (f : Crane → Crane) : State :=
  { s with aisles := s.aisles.adjust a fun x => { x with crane := f x.crane } }
def State.setStations (s : State) (v : Table Station) : State := { s with stations := v }
def State.modStation (s : State) (n : Nat) (f : Station → Station) : State :=
  { s with stations := s.stations.adjust n f }
def State.setZones (s : State) (v : Table Zone) : State := { s with zones := v }
def State.modZone (s : State) (z : Nat) (f : Zone → Zone) : State := { s with zones := s.zones.adjust z f }
def State.setConcentrators (s : State) (v : Table Concentrator) : State := { s with concentrators := v }
def State.modConcentrator (s : State) (n : Nat) (f : Concentrator → Concentrator) : State :=
  { s with concentrators := s.concentrators.adjust n f }
def State.setShutters (s : State) (v : Table Shutter) : State := { s with shutters := v }
def State.modShutter (s : State) (n : Nat) (f : Shutter → Shutter) : State :=
  { s with shutters := s.shutters.adjust n f }
def State.setAddresses (s : State) (v : Table Device) : State := { s with addresses := v }
def State.setClasses (s : State) (v : Table ReportClass) : State := { s with classes := v }
def State.setSettings (s : State) (v : Settings) : State := { s with settings := v }
def State.setBins (s : State) (v : Table Bin) : State := { s with bins := v }
def State.modBin (s : State) (n : Nat) (f : Bin → Bin) : State := { s with bins := s.bins.adjust n f }
def State.setItems (s : State) (v : Table Item) : State := { s with items := v }
def State.modItem (s : State) (n : Nat) (f : Item → Item) : State := { s with items := s.items.adjust n f }
def State.setRequests (s : State) (v : List Request) : State := { s with requests := v }
def State.setNextRequest (s : State) (v : Nat) : State := { s with nextRequest := v }
def State.setNextJob (s : State) (v : Nat) : State := { s with nextJob := v }
def State.setFaults (s : State) (v : FaultUnit) : State := { s with faults := v }
def State.setFirePanel (s : State) (v : Bool) : State := { s with firePanel := v }
def State.setKeyLine (s : State) (v : Bool) : State := { s with keyLine := v }
def State.setSecuredLine (s : State) (v : Bool) : State := { s with securedLine := v }
def State.setLink (s : State) (v : Link) : State := { s with link := v }
def State.setPending (s : State) (v : List Instr) : State := { s with pending := v }

/-! ### Reports, replies and telegrams -/

/-- The kind number of a report: kinds count from 1 in the order in which R190 lists them (R186). -/
def ReportKind.number : ReportKind → Nat
  | .requestReady => 1
  | .requestDelayed => 2
  | .requestFailed => 3
  | .itemPicked => 4
  | .loanExpired => 5
  | .binPresented => 6
  | .binStored => 7
  | .binMissing => 8
  | .binInDoubt => 9
  | .unexpectedBin => 10
  | .lateArrival => 11
  | .returnAccepted => 12
  | .returnShelved => 13
  | .returnOverflow => 14
  | .returnDisplaced => 15
  | .aisleState => 16
  | .zoneState => 17
  | .firePanel => 18
  | .supervision => 19
  | .fault => 20
  | .halted => 21
  | .fieldProtocol => 22

/-- ZONE_STATE, FIRE_PANEL, SUPERVISION, FAULT and HALTED, "URGENT whatever the table holds" (R189). -/
def alwaysUrgent : ReportKind → Bool
  | .zoneState | .firePanel | .supervision | .fault | .halted => true
  | _ => false

/-- The class of a report kind (R189): a kind that has no record is ROUTINE, except for the five that are URGENT. -/
def classOf (t : Table ReportClass) (k : ReportKind) : ReportClass :=
  if alwaysUrgent k then .urgent else (t.look k.number).getD .routine

/-- A PASS_UP message or a ROUTINE report joins the tail of the routine queue; on a full queue it is dropped and the
overrun pending mark is set (R190). -/
def Link.joinRoutine (l : Link) (e : RoutineEntry) : Link :=
  if l.routine.length < Config.routineCapacity then { l with routine := l.routine ++ [e] }
  else { l with routineOverrun := true }

/-- An URGENT report joins the tail of the urgent queue; on a full queue it is dropped and the overrun pending mark is
set (R190). -/
def Link.joinUrgent (l : Link) (r : Report) : Link :=
  if l.urgent.length < Config.urgentCapacity then { l with urgent := l.urgent ++ [r] }
  else { l with urgentOverrun := true }

/-- A posted report joins the tail of the queue of its class (R190). -/
def Link.post (l : Link) (c : ReportClass) (r : Report) : Link :=
  match c with
  | .urgent => l.joinUrgent r
  | .routine => l.joinRoutine (.report r)

/-- Posts a report (R190). -/
def State.post (s : State) (r : Report) : State :=
  { s with link := s.link.post (classOf s.classes r.kind) r }

/-- Posts a report without a related order tag: the returns reports (section 7.8), and every kind but the lending reports, which
carry that of their request's order (R122). DESIGN CHOICE (log 44): for the kinds of neither table the spec names no tag (R4, R11,
R87, R149, R190), and the tag is absent even where an order brings the report about. -/
def State.report (s : State) (k : ReportKind) (subject : Subject) (code : Option Code) : State :=
  s.post { kind := k, subject := subject, order := none, code := code }

/-- Forwards a PASS_UP message, which joins the routine queue like a report (R103, R190). -/
def State.passUp (s : State) (st : Nat) (data : List Byte) : State :=
  { s with link := s.link.joinRoutine (.passUp st data) }

/-- The frame of a telegram joins what the field link has sent, in the order in which telegrams are made (R186, log 9);
without an address nothing is sent. -/
def Link.sendTo (l : Link) (address : Option Nat) (t : FieldTelegram) : Link :=
  match address with
  | some ad => { l with field := l.field ++ [fieldFrame ad t] }
  | none => l

/-- Sends a telegram to a field address. -/
def State.send (s : State) (address : Option Nat) (t : FieldTelegram) : State :=
  { s with link := s.link.sendTo address t }

/-- The field address of the crane of an aisle: the entry of the Field Address Table with its role and index (R192). -/
def State.craneAddress (s : State) (a : Nat) : Option Nat :=
  (s.addresses.find? fun e => decide (e.2 = { role := Role.crane, index := a })).map (·.1)

/-- Sends a telegram to the crane of an aisle. -/
def State.sendCrane (s : State) (a : Nat) (t : FieldTelegram) : State := s.send (s.craneAddress a) t

/-- Sends a telegram to a station's terminal and lane conveyor, at its field address (Table 5.1). -/
def State.sendStation (s : State) (st : Nat) (t : FieldTelegram) : State :=
  s.send ((s.stations.look st).map (·.loaded.address)) t

/-- Sends a telegram to a shutter, at its field address (R141). -/
def State.sendShutter (s : State) (n : Nat) (t : FieldTelegram) : State :=
  s.send ((s.shutters.look n).map (·.address)) t

/-- A reply joins the tail of the reply queue (R187). -/
def State.reply (s : State) (r : Reply) : State :=
  { s with link := { s.link with replies := s.link.replies ++ [r] } }

/-! ### Reads of the records -/

/-- The wing is HALTED (R178). -/
def State.isHalted (s : State) : Bool := decide (s.faults.state = .halted)

/-- The mode is IN_SERVICE (R196). -/
def State.isInService (s : State) : Bool := decide (s.mode = .inService)

/-- NORMAL and ALERT: scans and terminal traffic are taken (R96, R103). -/
def ZoneState.isOpen : ZoneState → Bool
  | .normal | .alert => true
  | .shutdown | .secured | .restoring => false

/-- The state of a zone. -/
def State.zoneState (s : State) (z : Nat) : Option ZoneState := (s.zones.look z).map (·.state)

/-- The zone is NORMAL. -/
def State.zoneNormal (s : State) (z : Nat) : Bool := decide (s.zoneState z = some .normal)

/-- The zone is NORMAL or ALERT. -/
def State.zoneOpen (s : State) (z : Nat) : Bool :=
  match s.zoneState z with
  | some st => st.isOpen
  | none => false

/-- The zone is SHUTDOWN, SECURED or RESTORING. -/
def State.zoneClosed (s : State) (z : Nat) : Bool :=
  match s.zoneState z with
  | some st => !st.isOpen
  | none => false

/-- The zone of a station's own zone field (R139). -/
def State.stationZone (s : State) (st : Nat) : Option Nat := (s.stations.look st).map (·.loaded.zone)

/-- A station's zone is NORMAL or ALERT. -/
def State.stationOpen (s : State) (st : Nat) : Bool :=
  match s.stationZone st with
  | some z => s.zoneOpen z
  | none => false

/-- A station's zone is SHUTDOWN, SECURED or RESTORING. -/
def State.stationClosed (s : State) (st : Nat) : Bool :=
  match s.stationZone st with
  | some z => s.zoneClosed z
  | none => false

/-- The member sets of a zone, formed from the members' own zone fields, in ascending order (R139). -/
def State.aislesOf (s : State) (z : Nat) : List Nat := s.aisles.select fun a => decide (a.geom.zone = z)
def State.stationsOf (s : State) (z : Nat) : List Nat := s.stations.select fun x => decide (x.loaded.zone = z)
def State.concentratorsOf (s : State) (z : Nat) : List Nat := s.concentrators.select fun c => decide (c.zone = z)
def State.shuttersOf (s : State) (z : Nat) : List Nat := s.shutters.select fun h => decide (h.zone = z)

/-- The bound station of a shutter: the station whose record names it as its station shutter (R141). -/
def State.boundStation (s : State) (n : Nat) : Option Nat :=
  (s.stations.find? fun e => decide (e.2.loaded.shutter = some n)).map (·.1)

/-- The state of a bin. -/
def State.binState (s : State) (n : Nat) : Option BinState := (s.bins.look n).map (·.state)

/-- The home bin of an item (R22). -/
def State.homeOf (s : State) (item : Nat) : Option Nat := (s.items.look item).bind (·.home)

/-- The station in whose lane a bin stands, if any (R86: at most one). -/
def State.laneOf (s : State) (n : Nat) : Option Nat :=
  (s.stations.find? fun e => decide (Place.bin n ∈ e.2.lane)).map (·.1)

/-- The bin stands in a buffer lane. -/
def State.inLane (s : State) (n : Nat) : Bool := (s.laneOf n).isSome

/-- The presented bin of a station: the bin at the top of its lane when that bin is IN_LANE (R86). -/
def State.presentedBin (s : State) (st : Nat) : Option Nat :=
  match s.stations.look st with
  | none => none
  | some x =>
    match x.lane with
    | .bin n :: _ => if s.binState n = some .inLane then some n else none
    | _ => none

/-- A slot is in bounds (R2): its aisle has a Geometry Table record, and bay and level lie in it. -/
def State.slotInBounds (s : State) (v : Slot) : Bool :=
  match s.aisles.look v.aisle with
  | none => false
  | some a => within 1 a.geom.bays v.bay && within 1 a.geom.levels v.level

/-- A slot is taken when it is the home slot or the pending home of any bin, whatever that bin's state (R10). -/
def State.slotTaken (s : State) (v : Slot) : Bool :=
  s.bins.any fun e => decide (e.2.home = v) || decide (e.2.pendingHome = some v)

/-! ### Jobs -/

/-- The jobs of an aisle: queued, staged, active, and held in a suspension record (R55). -/
def Aisle.jobs (a : Aisle) : List Job :=
  a.queue ++ a.crane.staged.toList ++ a.crane.active.toList ++ (a.crane.suspension.map (·.job)).toList

/-- The job names the bin. -/
def Job.names (j : Job) (n : Nat) : Bool := decide (j.bin = some n)

/-- Some job names the bin (R7, R55). -/
def State.named (s : State) (n : Nat) : Bool := s.aisles.any fun e => e.2.jobs.any (·.names n)

/-- A RETRIEVE bound for a station. -/
def Job.boundFor (j : Job) (st : Nat) : Bool := decide (j.kind = .retrieve) && decide (j.station = some st)

/-- The RETRIEVE jobs bound for a station that a crane holds staged or active (R88). -/
def Crane.claimsOn (c : Crane) (st : Nat) : Nat := (c.active.toList ++ c.staged.toList).countP (·.boundFor st)

/-- The claims of a station (R88): the places of its lane, the entries of its in-transit list, and the RETRIEVE jobs
bound for it that are staged or active on any crane. -/
def State.claims (s : State) (st : Nat) : Nat :=
  match s.stations.look st with
  | none => 0
  | some x => x.lane.length + x.inTransit.length + (s.aisles.map fun e => e.2.crane.claimsOn st).sum

/-- The tag after `t`: rises by 1, wrapping from 65,535 to 1 (R55, R105). -/
def tagAfter (t : Nat) : Nat := if t ≥ Config.maxTag then 1 else t + 1

/-- The first tag from `t` on that is not held; held values are passed over (R55, R105, log 27). `fuel` is the number
of held tags, which is as many as can be passed over. -/
def freeTag : Nat → List Nat → Nat → Nat
  | 0, _, t => t
  | fuel + 1, held, t => if decide (t ∈ held) then freeTag fuel held (tagAfter t) else t

/-- The tags of jobs still queued, staged, active or held in a suspension record (R55). -/
def State.heldJobTags (s : State) : List Nat := s.aisles.flatMap fun e => e.2.jobs.map (·.tag)

/-- The tag that the next new job takes (R55). -/
def State.jobTag (s : State) : Nat := freeTag s.heldJobTags.length s.heldJobTags s.nextJob

/-- The tag that the next taken item takes (R105). -/
def State.requestTag (s : State) : Nat :=
  freeTag s.requests.length (s.requests.map (·.tag)) s.nextRequest

/-- A STORE job. -/
def Job.isStore (j : Job) : Bool := decide (j.kind = .store)

/-- A new STORE joins directly after the last STORE of the run at the head; a job of any other kind joins at the tail
(R56). -/
def joinQueue (q : List Job) (j : Job) : List Job :=
  if j.isStore then q.takeWhile Job.isStore ++ j :: q.dropWhile Job.isStore else q ++ [j]

/-- A job that goes back to the queue joins at the head of its kind's run (R56). -/
def rejoinQueue (q : List Job) (j : Job) : List Job :=
  if j.isStore then j :: q else q.takeWhile Job.isStore ++ j :: q.dropWhile Job.isStore

/-- Creates a job with the next job tag and lets it join its aisle's queue (R55, R56). -/
def State.addJob (s : State) (a : Nat) (mk : Nat → Job) : State :=
  (s.modAisle a fun x => { x with queue := joinQueue x.queue (mk s.jobTag) }).setNextJob (tagAfter s.jobTag)

/-- Puts a job back into its aisle's queue (R56). -/
def State.returnJob (s : State) (a : Nat) (j : Job) : State :=
  s.modAisle a fun x => { x with queue := rejoinQueue x.queue j }

/-- Changes the service state of an aisle; each change posts AISLE_STATE with the new state as code (R4),
without an order tag even where an order makes it (DESIGN CHOICE, log 44). -/
def State.setService (s : State) (a : Nat) (v : Service) : State :=
  match s.aisles.look a with
  | none => s
  | some x =>
    if x.service = v then s
    else (s.modAisle a fun x => { x with service := v }).report .aisleState (.aisle a) (some (.service v))

/-- The minor fault FIELD_PROTOCOL (R177): the report of its name, once; nothing else. -/
def State.fieldProtocol (s : State) (subject : Subject) (code : Option Code) : State :=
  s.report .fieldProtocol subject code

/-- The outcome of a command that always runs. -/
abbrev Next := Host.Outcome State Fault Refusal

end Sys2Proof.Machine
end

