-- ==== Sys2Proof/Machine/Flags.lean ====
section
/-! DEFINITION. The marks and lines that are computed from other records: the cause set of a zone (R148), the secured
line (R168), and the change of a zone's state, which posts ZONE_STATE and judges that line (R149). -/
namespace Sys2Proof.Machine

/-- No cause. -/
def Causes.empty : Causes := { prealarm := false, trouble := false, silent := false, token := false, start := false }

/-- The cause set is empty. -/
def Causes.isEmpty (c : Causes) : Bool := !(c.prealarm || c.trouble || c.silent || c.token || c.start)

/-- The records of the concentrators of a zone (R139). -/
def State.zoneConcentrators (s : State) (z : Nat) : List Concentrator :=
  (s.concentrators.filter fun e => decide (e.2.zone = z)).map (·.2)

/-- A detector of the concentrator has an entry in a condition. -/
def Concentrator.hasEntry (c : Concentrator) (p : Condition → Bool) : Bool := c.detectors.any fun e => p e.2

/-- The causes whose conditions stand (Table 8.2); START stands on from `start` until every concentrator of the zone
holds a last token. -/
def State.causesOf (s : State) (z : Nat) (start : Bool) : Causes :=
  let l := s.zoneConcentrators z
  { prealarm := l.any fun c => c.hasEntry fun d => decide (d = .pre) || decide (d = .alarm)
    trouble := l.any fun c => c.hasEntry fun d => decide (d = .trouble)
    silent := l.any fun c => decide (c.health = .silent)
    token := l.any fun c => decide (c.health = .tokenFault)
    start := start && !(l.all fun c => c.token.isSome) }

/-- The secured line is asserted while at least one zone is SECURED and no zone is in SHUTDOWN (R168). -/
def securedLevel (zones : Table Zone) : Bool :=
  (zones.any fun e => decide (e.2.state = .secured)) && !(zones.any fun e => decide (e.2.state = .shutdown))

/-- Judges the secured line on the zone states as they stand (R168). -/
def State.judgeSecuredLine (s : State) : State := s.setSecuredLine (securedLevel s.zones)

/-- A zone stands in a state, and the secured line is judged on it (R168). -/
def State.turnZone (s : State) (z : Nat) (v : ZoneState) : State :=
  (s.modZone z fun x => { x with state := v }).judgeSecuredLine

/-- Posts ZONE_STATE, with the zone as subject and its new state as code (R149), without an order tag even where an order
changes the zone (DESIGN CHOICE, log 44). -/
def State.reportZone (s : State) (z : Nat) (v : ZoneState) : State :=
  s.report .zoneState (.zone z) (some (.zoneState v))

/-- Changes a zone's state (R149): the secured line is judged, and ZONE_STATE is posted. -/
def State.setZoneState (s : State) (z : Nat) (v : ZoneState) : State := (s.turnZone z v).reportZone z v

/-- A zone stands in ALERT, its alert window armed with its loaded value (R150). -/
def State.turnAlert (s : State) (z : Nat) : State :=
  (s.modZone z fun x => { x with windowLeft := some x.window }).turnZone z .alert

/-- Entry to ALERT (R150): the alert window is armed, and ZONE_STATE is posted. The staged jobs that stop being eligible are
withdrawn by `withdrawAll`. -/
def State.enterAlert (s : State) (z : Nat) : State := (s.turnAlert z).reportZone z .alert

/-- The zone's cause set is not empty (R148). -/
def State.hasCause (s : State) (z : Nat) : Bool := (s.zones.look z).any fun x => !x.causes.isEmpty

/-- Re-forms a zone's cause set (R148). -/
def State.formCauses (s : State) (z : Nat) : State :=
  s.modZone z fun x => { x with causes := s.causesOf z x.causes.start }

/-- A zone in NORMAL with a cause in its set enters ALERT (R150, R151). -/
def State.alertIfCaused (s : State) (z : Nat) : State :=
  match s.zones.look z with
  | none => s
  | some x => if decide (x.state = .normal) && !x.causes.isEmpty then s.enterAlert z else s

/-- A condition of the zone's causes has changed: the set is re-formed (R148), and a zone in NORMAL enters ALERT when a
cause enters it (R150). -/
def State.reformCauses (s : State) (z : Nat) : State := (s.formCauses z).alertIfCaused z

end Sys2Proof.Machine
end

