-- ==== Sys2Proof/Machine/Bins.lean ====
section
/-! DEFINITION. Shared operations on bins, items and requests: a bin's change of state (R7, R89), its loss (R11) with the
failure of its requests (R120) and the displacement of its return entries (R133), its return to STORED with the
follow-on call (R9, R111), the creation of a RETRIEVE (R55), and the shelf-space figures (R24 to R29). -/
namespace Sys2Proof.Machine

/-! ### Shelf-space figures (R24 to R29): each changes the figures of one bin -/

/-- REQUESTED to PICKED (R25): fill falls and reserved rises by the thickness, and the count falls by one. -/
def Bin.pickOut (b : Bin) (t : Nat) : Bin := { b with fill := b.fill - t, reserved := b.reserved + t, count := b.count - 1 }
/-- The release of a reservation (R26, R27, R29). -/
def Bin.release (b : Bin) (t : Nat) : Bin := { b with reserved := b.reserved - t }
/-- The reservation of space for a returning item (R27). -/
def Bin.reserve (b : Bin) (t : Nat) : Bin := { b with reserved := b.reserved + t }
/-- RETURNING to SHELVED (R28). -/
def Bin.shelve (b : Bin) (t : Nat) : Bin := { b with reserved := b.reserved - t, fill := b.fill + t, count := b.count + 1 }
/-- An item added as SHELVED (R31, R32). -/
def Bin.addItem (b : Bin) (t : Nat) : Bin := { b with fill := b.fill + t, count := b.count + 1 }
/-- A SHELVED item removed (R31, R34). -/
def Bin.removeItem (b : Bin) (t : Nat) : Bin := { b with fill := b.fill - t, count := b.count - 1 }

/-- The thickness of an item. -/
def State.thicknessOf (s : State) (item : Nat) : Nat := ((s.items.look item).map (·.thickness)).getD 0

/-! ### Bin states -/

/-- A bin leaves every overdue list (R89). -/
def State.leaveOverdue (s : State) (n : Nat) : State :=
  s.setStations (s.stations.mapRecords fun _ x => { x with overdue := x.overdue.filter (· != n) })

/-- Changes a bin's state. A bin that leaves IN_DOUBT by any cause leaves the overdue list (R89). -/
def State.setBinState (s : State) (n : Nat) (v : BinState) : State :=
  let s1 := s.modBin n fun b => { b with state := v }
  if decide (s.binState n = some .inDoubt) && !decide (v = .inDoubt) then s1.leaveOverdue n else s1

/-- A bin becomes ON_CRANE from CALLED for a RETRIEVE or TRANSFER and from HOMEBOUND for a STORE (R66); a bin in any other
state (one that stands in a lane, R92) keeps it. -/
def State.liftBin (s : State) (j : Job) : State :=
  match j.bin with
  | none => s
  | some n =>
    if (decide (s.binState n = some .called) && (decide (j.kind = .retrieve) || decide (j.kind = .transfer)))
        || (decide (s.binState n = some .homebound) && decide (j.kind = .store))
    then s.setBinState n .onCrane else s

/-! ### Requests that stand on a bin (R106) -/

/-- The request stands on the bin: its item's home bin is the bin, and it is not PICKED (R106). -/
def State.standsOn (s : State) (n : Nat) (r : Request) : Bool :=
  !decide (r.state = .picked) && decide (s.homeOf r.item = some n)

/-- The request stands on the bin for a station. -/
def State.standsFor (s : State) (n st : Nat) (r : Request) : Bool := s.standsOn n r && decide (r.station = st)

/-- Posts a lending report: it carries the request's order tag (R122). -/
def State.reportRequest (s : State) (k : ReportKind) (r : Request) (code : Option Code) : State :=
  s.post { kind := k, subject := .item r.item, order := some r.order, code := code }

/-- Fails one request (R120, R121): REQUEST_FAILED is posted and the item becomes SHELVED; `failRequests` removes the
record. -/
def State.failOne (code : RefusalCode) (s : State) (r : Request) : State :=
  (s.reportRequest .requestFailed r (some (.refusal code))).modItem r.item fun i => { i with state := .shelved }

/-- Fails, in list order, the requests for which `p` holds (R120, R121). -/
def State.failRequests (s : State) (p : Request → Bool) (code : RefusalCode) : State :=
  let failing := s.requests.filter p
  (failing.foldl (State.failOne code) s).setRequests (s.requests.filter fun r => !p r)

/-! ### Displacement of return entries (R133, R134) -/

/-- Displaces one entry: the item becomes OVERFLOW with its target cleared, the target's reserved falls by the thickness
(R29), and RETURN_DISPLACED is posted; `displaceAt` removes the entry. -/
def State.displaceOne (code : RefusalCode) (s : State) (e : ReturnEntry) : State :=
  ((s.modBin e.target fun b => b.release (s.thicknessOf e.item)).modItem e.item fun i =>
      { i with state := .overflow, target := none }).report
    .returnDisplaced (.item e.item) (some (.refusal code))

/-- Displaces the entries of one station's return queue that target the bin, in queue order (R133). -/
def State.displaceAt (s : State) (n : Nat) (code : RefusalCode) (st : Nat) : State :=
  match s.stations.look st with
  | none => s
  | some x =>
    ((x.returns.filter fun e => decide (e.target = n)).foldl (State.displaceOne code) s).modStation st fun x =>
      { x with returns := x.returns.filter fun e => !decide (e.target = n) }

/-- Displaces every return entry whose target is the bin, station by station (R133). -/
def State.displaceAll (s : State) (n : Nat) (code : RefusalCode) : State :=
  s.stations.numbers.foldl (fun s st => s.displaceAt n code st) s

/-! ### Loss of a bin (R11) -/

/-- The report of an entry into MISSING or IN_DOUBT. -/
def lossReport : BinState → ReportKind
  | .missing => .binMissing
  | _ => .binInDoubt

/-- The code of the requests and return entries lost with the bin (R120, R133). -/
def lossCode : BinState → RefusalCode
  | .missing => .binMissing
  | _ => .binInDoubt

/-- A bin enters MISSING or IN_DOUBT (R11): its state changes, its report is posted (with the pick failure reason as code
under R71), its next station is cleared, its requests fail and the return entries targeting it are displaced. -/
def State.enterLoss (s : State) (n : Nat) (v : BinState) (code : Option Code) : State :=
  let s1 := ((s.setBinState n v).modBin n fun b => { b with next := none }).report (lossReport v) (.bin n) code
  (s1.failRequests (s1.standsOn n) (lossCode v)).displaceAll n (lossCode v)

/-- A bin becomes IN_DOUBT; a bin that is already IN_DOUBT enters nothing: no second report and no hand-offs (R93, R95,
log 21). -/
def State.enterDoubt (s : State) (n : Nat) : State :=
  if decide (s.binState n = some .inDoubt) then s else s.enterLoss n .inDoubt none

/-- A bin entered IN_DOUBT between two states; a fault by which one did is not recoverable (R177, Note 1). -/
def doubted (before after : State) (bin : Option Nat) : Bool :=
  match bin with
  | none => false
  | some n => !decide (before.binState n = some .inDoubt) && decide (after.binState n = some .inDoubt)

/-- Clears a bin's trip station (R8). -/
def State.clearTrip (s : State) (n : Nat) : State := s.modBin n fun b => { b with trip := none }

/-- Clears a bin's pending home; the pending slot is freed (R10). -/
def State.clearPending (s : State) (n : Nat) : State := s.modBin n fun b => { b with pendingHome := none }

/-! ### Creation of a RETRIEVE, and the follow-on call -/

/-- The RETRIEVE record for a bin (R55, Table 4.1): from its home slot to the front port. -/
def retrieveJob (n : Nat) (home : Slot) (st : Nat) (p : Purpose) (tag : Nat) : Job :=
  { tag := tag, kind := .retrieve, bin := some n, source := some (.slot home), destination := .frontPort
    station := some st, purpose := some p }

/-- The AUDIT record for a bin (R55): its home slot as both source and destination. -/
def auditJob (n : Nat) (home : Slot) (tag : Nat) : Job :=
  { tag := tag, kind := .audit, bin := some n, source := some (.slot home), destination := .slot home
    station := none, purpose := none }

/-- The TRANSFER record for a bin (R16, R55). -/
def transferJob (n : Nat) (home new : Slot) (tag : Nat) : Job :=
  { tag := tag, kind := .transfer, bin := some n, source := some (.slot home), destination := .slot new
    station := none, purpose := none }

/-- The STORE record for a bin that left a station (R55, R98). -/
def storeJob (n : Nat) (home : Slot) (st : Nat) (tag : Nat) : Job :=
  { tag := tag, kind := .store, bin := some n, source := some .frontPort, destination := .slot home
    station := some st, purpose := none }

/-- The PARK record (R55, R77): no bin, no source, the front port as destination. -/
def parkJob (tag : Nat) : Job :=
  { tag := tag, kind := .park, bin := none, source := none, destination := .frontPort
    station := none, purpose := none }

/-- Creates a RETRIEVE for a STORED bin (R100, R110, R111, R128): it joins its aisle queue at the tail, the bin becomes
CALLED, and its trip station is set to the job's station (R8). -/
def State.callBin (s : State) (n st : Nat) (p : Purpose) : State :=
  match s.bins.look n with
  | none => s
  | some b =>
    (s.addJob b.home.aisle (retrieveJob n b.home st p)).modBin n fun b =>
      { b with state := .called, trip := some st }

/-- A return entry of a station targets the bin (R123). -/
def State.awaitedAt (s : State) (n st : Nat) : Bool :=
  match s.stations.look st with
  | none => false
  | some x => x.returns.any fun e => decide (e.target = n)

/-- The follow-on call of a bin that has just become STORED (R9, R111): with a next station, it is cleared, and a RETRIEVE
for it is created if a request (purpose REQUEST) or a return entry (purpose RETURN) of that station stands on the bin. -/
def State.followOn (s : State) (n : Nat) : State :=
  match (s.bins.look n).bind (·.next) with
  | none => s
  | some st =>
    let s1 := s.modBin n fun b => { b with next := none }
    if s.requests.any (s.standsFor n st) then s1.callBin n st .request
    else if s.awaitedAt n st then s1.callBin n st .ret
    else s1

/-- A bin becomes STORED by DONE or AUDIT_RESULT: BIN_STORED is posted, without an order tag (DESIGN
CHOICE, log 44), and the follow-on call is made (R67, R72). -/
def State.binStored (s : State) (n : Nat) : State :=
  ((s.setBinState n .stored).report .binStored (.bin n) none).followOn n

/-- A CALLED bin returns to STORED because the job naming it is removed before its pick (R58, R119): its trip station is
cleared, and the follow-on call is made. A bin in any other state keeps it. -/
def State.uncallBin (s : State) (n : Nat) : State :=
  if decide (s.binState n = some .called) then ((s.setBinState n .stored).clearTrip n).followOn n else s

/-! ### Unexpected bins -/

/-- The bin read in another's slot (R73) or on a crane's forks (R78): from STORED or MISSING it becomes IN_DOUBT; in any
other state, or absent from the Bin Map, no record changes. -/
def State.judgeRead (s : State) (n : Nat) : State :=
  if decide (s.binState n = some .stored) || decide (s.binState n = some .missing) then s.enterLoss n .inDoubt none
  else s

/-- The minor fault UNEXPECTED_BIN and the report of that name, which are one report (R177). -/
def State.unexpectedBin (s : State) (label : Nat) (code : Option Code) : State :=
  s.report .unexpectedBin (.bin label) code

end Sys2Proof.Machine
end

