-- ==== Sys2Proof/Machine/Lanes.lean ====
section
/-! DEFINITION. The Station Unit's shared operations: presentation and its end (R87, R112, R113, R131), the PRESENT
telegram with its display data, pushes and removals (R86, R92), and the lane hold (R101). -/
namespace Sys2Proof.Machine

/-- The items to pick of the presented bin's display data: those of the requests PRESENTED for the station (R112). -/
def State.toPick (s : State) (st n : Nat) : List Nat :=
  (s.requests.filter fun r =>
    decide (r.state = .presented) && decide (r.station = st) && decide (s.homeOf r.item = some n)).map (·.item)

/-- The items to shelve: those of the station's return entries that target the bin, in queue order (R131). -/
def State.toShelve (s : State) (st n : Nat) : List Nat :=
  match s.stations.look st with
  | none => []
  | some x => (x.returns.filter fun e => decide (e.target = n)).map (·.item)

/-- PRESENT with the bin number and the display data (R87): the two numbers of items, and as many items as the body
holds, those to pick first. -/
def State.presentTelegram (s : State) (st n : Nat) : FieldTelegram :=
  .present n (s.toPick st n).length (s.toShelve st n).length
    ((s.toPick st n ++ s.toShelve st n).take Config.presentCapacity)

/-- Sends PRESENT for the station's presented bin, where it has one (R102). -/
def State.sendPresent (s : State) (st : Nat) : State :=
  match s.presentedBin st with
  | none => s
  | some n => s.sendStation st (s.presentTelegram st n)

/-- Sends PRESENT for the presented bin when the station's zone is NORMAL or ALERT; otherwise it is held back until
RESUME (R87, R102, R112). -/
def State.offerPresent (s : State) (st : Nat) : State := if s.stationOpen st then s.sendPresent st else s

/-- One request becomes PRESENTED: REQUEST_READY is posted for it (R112); `markPresented` changes the record. -/
def State.readyOne (st : Nat) (s : State) (r : Request) : State :=
  s.reportRequest .requestReady r (some (.number st))

/-- A request that a presentation of the bin at the station makes PRESENTED (R112): it stands on the bin for the station
and is AWAITING_BIN or AT_STATION. -/
def State.becomesPresented (s : State) (st n : Nat) (r : Request) : Bool :=
  s.standsFor n st r && !decide (r.state = .presented)

/-- The Lending Unit takes a presentation (R112), in list order. -/
def State.markPresented (s : State) (st n : Nat) : State :=
  ((s.requests.filter (s.becomesPresented st n)).foldl (State.readyOne st) s).setRequests
    (s.requests.map fun r => if s.becomesPresented st n r then { r with state := .presented } else r)

/-- The top bin of the lane has become the presented bin (R87): BIN_PRESENTED is posted, the requests on it for this
station become PRESENTED, and PRESENT is sent when the zone allows. Without a presented bin nothing happens.
BIN_PRESENTED carries no order tag even where RELEASE_BIN or CALL_BIN brings it about (DESIGN CHOICE, log 44). -/
def State.presentTop (s : State) (st : Nat) : State :=
  match s.presentedBin st with
  | none => s
  | some n =>
    ((s.report .binPresented (.bin n) (some (.number st))).markPresented st n).offerPresent st

/-- The end of the presentation of the station's presented bin, which stays in the lane (R113): each request PRESENTED on
it for the station becomes AT_STATION. -/
def State.endPresentation (s : State) (st : Nat) : State :=
  match s.presentedBin st with
  | none => s
  | some n =>
    s.setRequests (s.requests.map fun r =>
      if decide (r.state = .presented) && s.standsFor n st r then { r with state := .atStation } else r)

/-- Pushes a place onto the lane; the place before it at the top is covered, and its presentation ends (R86, R113). -/
def State.pushPlace (s : State) (st : Nat) (p : Place) : State :=
  (s.endPresentation st).modStation st fun x => { x with lane := p :: x.lane }

/-- The lane holds lane depth places or more (R95). -/
def Station.laneFull (x : Station) : Bool := decide (x.loaded.depth ≤ x.lane.length)

/-- Takes a bin's place out of a lane; the places above it each move down one (R86). -/
def Station.dropBin (x : Station) (n : Nat) : Station :=
  { x with lane := x.lane.filter fun p => !decide (p = .bin n) }

/-- Takes a bin out of a lane, where it stands there (R86, R92, R93): if it was that station's presented bin its presentation
ends, and the place that comes to be the top is presented if it holds an IN_LANE bin (R87). -/
def State.removeFromLane (s : State) (n st : Nat) : State :=
  match s.stations.look st with
  | none => s
  | some x =>
    if decide (Place.bin n ∈ x.lane) then
      let s1 := if decide (s.presentedBin st = some n) then s.endPresentation st else s
      let s2 := s1.modStation st fun x => x.dropBin n
      if decide (x.lane.head? = some (.bin n)) then s2.presentTop st else s2
    else s

/-- Takes a bin's entry out of a station's in-transit list, with its deadline (R89). -/
def State.removeTransit (s : State) (n st : Nat) : State :=
  s.modStation st fun x => { x with inTransit := x.inTransit.filter fun t => !decide (t.bin = n) }

/-- A scan or a BIN_ARRIVED ends a lane hold (R101). -/
def State.endHold (s : State) (st : Nat) : State := s.modStation st fun x => { x with hold := false }

/-- The lane of the station is held. -/
def State.isHeld (s : State) (st : Nat) : Bool := ((s.stations.look st).map (·.hold)).getD false

/-- Answers a refused scan to the station (R96). -/
def State.refuseScan (s : State) (st : Nat) (c : ScanCode) : State := s.sendStation st (.scanRefused c)

end Sys2Proof.Machine
end

