-- ==== Sys2Proof/Machine/Travel.lean ====
section
/-! DEFINITION. The Travel Calculator (chapter 3): leg times (R37, R38), job estimates (R39 to R41), deadlines (R42, R45)
and the choice of a return target (R50 to R54). It holds no state. -/
namespace Sys2Proof.Machine

/-- |a - b|. -/
def distance (a b : Nat) : Nat := if a ≤ b then b - a else a - b

/-- The horizontal time of a leg (R37). -/
def legH (g : Geometry) (p q : Point) : Nat := if p.bay = q.bay then 0 else g.h0 + g.h1 * distance p.bay q.bay

/-- The vertical time of a leg (R37). -/
def legV (g : Geometry) (p q : Point) : Nat := if p.level = q.level then 0 else g.v0 + g.v1 * distance p.level q.level

/-- The leg time T(p, q): the larger of the two (R37). -/
def leg (g : Geometry) (p q : Point) : Nat := max (legH g p q) (legV g p q)

/-- The front port (R3). -/
def frontPort : Point := { bay := 0, level := 1 }

/-- A slot gives the point of its bay and level (R38). -/
def Slot.point (v : Slot) : Point := { bay := v.bay, level := v.level }

/-- The point of a source or destination (R38). -/
def Locus.point : Locus → Point
  | .slot v => v.point
  | .frontPort => Machine.frontPort

/-- A crane position; UNKNOWN is taken as (B, L) (R38). -/
def positionPoint (g : Geometry) (p : Option Point) : Point := p.getD { bay := g.bays, level := g.levels }

/-- The source point of a job; a job without a source stands at the front port (R39: a PARK). -/
def Job.sourcePoint (j : Job) : Point := (j.source.map Locus.point).getD Machine.frontPort

/-- The destination point of a job (Table 3.1). -/
def Job.destinationPoint (j : Job) : Point := j.destination.point

/-- The estimate of a job activated or promoted at the starting point `p` (Table 3.2); `c` is the conveyor time of the
job's station. -/
def estimate (g : Geometry) (c : Nat) (j : Job) (p : Point) : Nat :=
  match j.kind with
  | .retrieve => leg g p j.sourcePoint + g.handling + leg g j.sourcePoint frontPort + g.handling + c
  | .store => leg g p frontPort + g.handling + leg g frontPort j.destinationPoint + g.handling + c
  | .transfer => leg g p j.sourcePoint + g.handling + leg g j.sourcePoint j.destinationPoint + g.handling
  | .audit => leg g p j.destinationPoint + g.handling
  | .park => leg g p frontPort

/-- The estimate of a job resumed from TO_DEST at the front port (R41). An AUDIT or a PARK is never resumed. -/
def resumeEstimate (g : Geometry) (c : Nat) (j : Job) : Nat :=
  match j.kind with
  | .retrieve => leg g frontPort frontPort + g.handling + c
  | .store | .transfer => leg g frontPort j.destinationPoint + g.handling
  | .audit | .park => 0

/-- E × M / 100, rounded up to the next whole ds (R42). -/
def marginOf (e m : Nat) : Nat := (e * m + 99) / 100

/-- The deadline armed from an estimate (R42). -/
def deadlineFor (g : Geometry) (e : Nat) : Nat :=
  if e = 0 then 1 else min (e + marginOf e g.margin + g.grace) Config.maxDeadline

/-- The deadline after a RETRY (R45): 2 × K more, saturating at 65,535. -/
def extendDeadline (g : Geometry) (left : Nat) : Nat := min (left + 2 * g.handling) Config.maxDeadline

/-- The conveyor time C of a job's station at the moment of activation (Table 3.2, Note 2). -/
def State.conveyorOf (s : State) (j : Job) : Nat :=
  match j.station with
  | none => 0
  | some st => ((s.stations.look st).map (·.loaded.conveyor)).getD 0

/-! ### Return target selection (R50 to R54) -/

/-- What R50 asks of every candidate: the size class of the item, and free space of at least its thickness. -/
def fitsItem (b : Bin) (t cls : Nat) : Bool := decide (b.sizeClass = cls) && decide (b.fill + b.reserved + t ≤ b.capacity)

/-- The lane condition of R50: IN_LANE in the lane of the scanning station, at any depth. -/
def State.laneCandidate (s : State) (st n : Nat) (b : Bin) : Bool :=
  decide (b.state = .inLane) &&
    match s.stations.look st with
    | none => false
    | some x => decide (Place.bin n ∈ x.lane)

/-- The rack condition of R50. -/
def State.rackCandidate (s : State) (st n : Nat) (b : Bin) : Bool :=
  decide (b.state = .stored) && !s.named n && b.next.isNone &&
    (match s.aisles.look b.home.aisle with
     | none => false
     | some a => decide (a.service = .inService) && s.zoneNormal a.geom.zone) &&
    (match s.stations.look st with
     | none => false
     | some x => decide (b.home.aisle ∈ x.loaded.linked))

/-- A bin is a lane candidate for a returned item (R50). -/
def State.isLaneCandidate (s : State) (st t cls n : Nat) : Bool :=
  match s.bins.look n with
  | none => false
  | some b => fitsItem b t cls && s.laneCandidate st n b

/-- A bin is a rack candidate for a returned item (R50). -/
def State.isRackCandidate (s : State) (st t cls n : Nat) : Bool :=
  match s.bins.look n with
  | none => false
  | some b => fitsItem b t cls && s.rackCandidate st n b

/-- A bin is a candidate for a returned item (R50). -/
def State.isCandidate (s : State) (st t cls n : Nat) : Bool :=
  s.isLaneCandidate st t cls n || s.isRackCandidate st t cls n

/-- The cost of a rack candidate (R52): T((0, 1), home) + 100 × the number of queued jobs of its aisle. -/
def State.rackCost (s : State) (b : Bin) : Nat :=
  match s.aisles.look b.home.aisle with
  | none => 0
  | some a => leg a.geom frontPort b.home.point + 100 * a.queue.length

/-- A rack candidate with what steps 3 to 5 of R53 compare: cost, space left after placement, bin number. -/
structure RackOffer where
  cost : Nat
  left : Nat
  bin : Nat
  deriving DecidableEq, Repr

/-- Steps 3 to 5 of R53: the lesser cost, then the lesser space left, then the lower number. -/
def RackOffer.before (x y : RackOffer) : Bool :=
  decide (x.cost < y.cost) ||
    (decide (x.cost = y.cost) &&
      (decide (x.left < y.left) || (decide (x.left = y.left) && decide (x.bin < y.bin))))

/-- The best of a list of rack candidates (R53, steps 3 to 5). -/
def bestOffer : List RackOffer → Option RackOffer
  | [] => none
  | x :: rest =>
    match bestOffer rest with
    | none => some x
    | some y => if y.before x then some y else some x

/-- The rack candidates of the Bin Map. -/
def State.rackOffers (s : State) (st t cls : Nat) : List RackOffer :=
  (s.bins.filter fun e => fitsItem e.2 t cls && s.rackCandidate st e.1 e.2).map fun e =>
    { cost := s.rackCost e.2, left := e.2.capacity - e.2.fill - e.2.reserved - t, bin := e.1 }

/-- The lane candidate nearest the top of the scanning station's lane (R53, step 2). -/
def State.laneOffer (s : State) (st t cls : Nat) : Option Nat :=
  match s.stations.look st with
  | none => none
  | some x =>
    x.lane.findSome? fun
      | .tray _ => none
      | .bin n => if s.isLaneCandidate st t cls n then some n else none

/-- The target of a returned item of thickness `t` and class `cls` with home bin `home`, scanned at station `st` (R53);
none is "no target" (R54). -/
def State.chooseTarget (s : State) (st t cls : Nat) (home : Option Nat) : Option Nat :=
  match home.filter (s.isCandidate st t cls) with
  | some h => some h
  | none =>
    match s.laneOffer st t cls with
    | some n => some n
    | none => (bestOffer (s.rackOffers st t cls)).map (·.bin)

end Sys2Proof.Machine
end

