-- ==== Sys2Proof/Machine/Jobs.lean ====
section
/-! DEFINITION. The Dispatcher: eligibility (R61), activation (R62), staging (R63), withdrawal (R64), promotion (R65),
parking (R77), resumption (R175), the end of a job's service (R81), and the one pass in which the Dispatcher looks at
its queues, aisle by aisle in ascending number (R62; log 6). -/
namespace Sys2Proof.Machine

/-! ### Eligibility -/

/-- What R61 asks of a RETRIEVE's station: its zone is NORMAL, its lane is not held, and its claims, less the `own` claims
of the job judged, are below its lane depth (R61, R64). -/
def State.stationAdmits (s : State) (own : Nat) (st : Nat) : Bool :=
  match s.stations.look st with
  | none => false
  | some x => s.zoneNormal x.loaded.zone && !x.hold && decide (s.claims st - own < x.loaded.depth)

/-- A RETRIEVE's station admits it; a job of another kind asks for no station. -/
def State.jobStationAdmits (s : State) (own : Nat) (j : Job) : Bool :=
  match j.kind with
  | .retrieve =>
    (match j.station with
     | none => false
     | some st => s.stationAdmits own st)
  | _ => true

/-- A job other than PARK is eligible (R61). `own` is 1 for a staged RETRIEVE, judged with its own claim left out (R64). -/
def State.eligible (s : State) (x : Aisle) (own : Nat) (j : Job) : Bool :=
  decide (x.service = .inService) && s.zoneNormal x.geom.zone && !s.isHalted && s.isInService
    && s.jobStationAdmits own j

/-- A PARK is eligible (R61). -/
def State.parkEligible (s : State) (x : Aisle) : Bool :=
  (decide (x.service = .inService) || decide (x.service = .draining))
    && (match s.zoneState x.geom.zone with
        | some .normal | some .alert | some .restoring => true
        | _ => false)
    && !s.isHalted && s.isInService

/-- The first eligible job of the queue, in queue order, that is not a PARK (R62, R63). -/
def State.firstEligible (s : State) (x : Aisle) : Option Job :=
  x.queue.find? fun j => !decide (j.kind = .park) && s.eligible x 0 j

/-! ### Deadlines -/

/-- The deadline armed for a job of an aisle that becomes active at the point `p` (R40, R42, R43). -/
def State.armed (s : State) (x : Aisle) (j : Job) (p : Point) : Deadline :=
  { left := deadlineFor x.geom (estimate x.geom (s.conveyorOf j) j p), running := true }

/-- The deadline armed for a resumed job (R41, R42, R43). -/
def State.armedResume (s : State) (x : Aisle) (j : Job) : Deadline :=
  { left := deadlineFor x.geom (resumeEstimate x.geom (s.conveyorOf j) j), running := true }

/-! ### Handing jobs to a crane -/

/-- A job becomes active with JOB sent (R62, R65): phase TO_SOURCE, retry index 0, the deadline armed from `p`. -/
def State.startJob (s : State) (a : Nat) (x : Aisle) (j : Job) (p : Point) : State :=
  (s.modCrane a fun c =>
      { c with state := .busy, phase := some .toSource, active := some j, retryIndex := 0
               deadline := some (s.armed x j p) }).sendCrane a
    (.job j.tag j.kind j.source j.destination (0, 0))

/-- Takes a job out of its queue; the jobs behind keep their order (R58). -/
def State.dequeue (s : State) (a : Nat) (j : Job) : State :=
  s.modAisle a fun x => { x with queue := x.queue.erase j }

/-- An IDLE crane without a suspension record takes the first eligible job (R62). -/
def State.activateNext (s : State) (a : Nat) : State :=
  match s.aisles.look a with
  | none => s
  | some x =>
    match s.firstEligible x with
    | none => s
    | some j => (s.dequeue a j).startJob a x j (positionPoint x.geom x.crane.position)

/-- A BUSY crane without a staged job, in an aisle that is IN_SERVICE, is offered one (R63). -/
def State.offerStage (s : State) (a : Nat) : State :=
  match s.aisles.look a with
  | none => s
  | some x =>
    if decide (x.crane.state = .busy) && x.crane.staged.isNone && decide (x.service = .inService) then
      match s.firstEligible x with
      | none => s
      | some j =>
        ((s.dequeue a j).modCrane a fun c => { c with staged := some j }).sendCrane a
          (.stage j.tag j.kind j.source j.destination j.station)
    else s

/-- A PARKING crane without an active job: the queue's PARK, if it is eligible, becomes active (R62, R77). -/
def State.activatePark (s : State) (a : Nat) : State :=
  match s.aisles.look a with
  | none => s
  | some x =>
    match x.queue.find? fun j => decide (j.kind = .park) with
    | none => s
    | some j =>
      if x.crane.active.isNone && s.parkEligible x then
        ((s.dequeue a j).modCrane a fun c =>
            { c with phase := some .toDest, active := some j, retryIndex := 0
                     deadline := some (s.armed x j (positionPoint x.geom x.crane.position)) }).sendCrane a
          (.park j.tag)
      else s

/-- A suspension record is resolved by resumption (Table 9.4, first row): the park label is the job's bin, and the job is
a RETRIEVE, STORE or TRANSFER. -/
def Suspension.resumes (r : Suspension) : Bool :=
  (match r.job.kind with
   | .retrieve | .store | .transfer => true
   | .audit | .park => false)
  && (match r.parkLabel with
      | some (.label n) => decide (r.job.bin = some n)
      | _ => false)

/-- The conditions of R175. -/
def State.mayResume (s : State) (x : Aisle) (j : Job) : Bool :=
  s.zoneNormal x.geom.zone && !s.isHalted && s.isInService
    && (decide (x.service = .inService) || decide (x.service = .draining))
    && s.jobStationAdmits 0 j

/-- A suspended job is resumed from TO_DEST when R175 admits it: the record is removed, JOB is sent with the front port
as source, and the bin becomes ON_CRANE. Otherwise the record stays. -/
def State.resume (s : State) (a : Nat) : State :=
  match s.aisles.look a with
  | none => s
  | some x =>
    match x.crane.suspension with
    | none => s
    | some r =>
      if r.resumes && s.mayResume x r.job then
        ((s.modCrane a fun c =>
            { c with state := .busy, phase := some .toDest, active := some r.job, retryIndex := 0
                     deadline := some (s.armedResume x r.job), suspension := none }).liftBin r.job).sendCrane a
          (.job r.job.tag r.job.kind (some .frontPort) r.job.destination (0, 0))
      else s

/-- The Dispatcher looks at one aisle: it makes the resumption (R175), the activation (R62) or the staging (R63) that the
crane's state admits. DESIGN CHOICE: a crane that becomes BUSY by the resumption or the activation is offered its staged job
at once (R63), before the next aisle is served (log 34). -/
def State.lookAisle (s : State) (a : Nat) : State :=
  match s.aisles.look a with
  | none => s
  | some x =>
    match x.crane.state with
    | .idle =>
      (match x.crane.suspension with
       | some _ => s.resume a
       | none => s.activateNext a).offerStage a
    | .parking => s.activatePark a
    | .busy => s.offerStage a
    | .stopping | .stopped | .faulted | .outOfService => s

/-- The Dispatcher looks at its queues, one aisle at a time in ascending number (R62). -/
def State.lookAll (s : State) : State := s.aisles.numbers.foldl State.lookAisle s

/-! ### Withdrawal -/

/-- Withdraws the staged job of a crane (R64): it goes back to its queue; UNSTAGE is sent unless the withdrawal comes with
a STOP. -/
def State.withdrawStaged (s : State) (tell : Bool) (a : Nat) : State :=
  match s.aisles.look a with
  | none => s
  | some x =>
    match x.crane.staged with
    | none => s
    | some j =>
      let s1 := (s.modCrane a fun c => { c with staged := none }).returnJob a j
      if tell then s1.sendCrane a (.unstage j.tag) else s1

/-- Withdraws the staged job of a crane when it has stopped being eligible (R64). -/
def State.withdrawIneligible (s : State) (a : Nat) : State :=
  match s.aisles.look a with
  | none => s
  | some x =>
    match x.crane.staged with
    | none => s
    | some j => if s.eligible x 1 j then s else s.withdrawStaged true a

/-- Every staged job that has stopped being eligible is withdrawn, aisle by aisle (R64; log 6). -/
def State.withdrawAll (s : State) : State := s.aisles.numbers.foldl State.withdrawIneligible s

/-! ### The end of a job -/

/-- The crane and the aisle go OUT_OF_SERVICE, with AISLE_STATE unless the aisle already is (R78, R80, R81). -/
def State.takeOut (s : State) (a : Nat) : State :=
  (s.modCrane a fun c => { c with state := .outOfService }).setService a .outOfService

/-- The active job of a BUSY crane has ended at the point `p` (R65): the staged job is promoted, or the crane becomes
IDLE, or a DRAINING aisle ends its service (R81). -/
def State.nextAfter (s : State) (a : Nat) (p : Point) : State :=
  match s.aisles.look a with
  | none => s
  | some x =>
    match x.crane.staged with
    | some j => (s.modCrane a fun c => { c with staged := none }).startJob a x j p
    | none =>
      if x.service = .draining then s.takeOut a
      else s.modCrane a fun c => { c with state := .idle }

/-- The active job ends: no active job, phase or deadline, retry index 0 (R49, R67, R72). -/
def Crane.clearJob (c : Crane) : Crane :=
  { c with active := none, phase := none, deadline := none, retryIndex := 0 }

/-- The active job of the crane ends at the point `p` (R67, R71, R72): the position becomes `p`; a crane that was BUSY
settles its staged job (R65), and one that was STOPPING stays STOPPING without a job (R67). -/
def State.endJob (s : State) (a : Nat) (p : Point) : State :=
  match s.aisles.look a with
  | none => s
  | some x =>
    let s1 := s.modCrane a fun c => { c.clearJob with position := some p }
    if x.crane.state = .busy then s1.nextAfter a p else s1

/-- The queued PARK is removed (R79). -/
def State.dropQueuedPark (s : State) (a : Nat) : State :=
  s.modAisle a fun x => { x with queue := x.queue.filter fun j => !decide (j.kind = .park) }

/-- A PARK is created for a crane, which becomes PARKING (R77). -/
def State.createPark (s : State) (a : Nat) : State :=
  (s.modCrane a fun c => { c with state := .parking }).addJob a parkJob

/-- A crane holds neither an active job nor a suspension record (R80, R81). -/
def Crane.free (c : Crane) : Bool := c.active.isNone && c.suspension.isNone

/-- A DRAINING aisle whose crane holds neither an active job nor a suspension record ends its service (R81). -/
def State.endDraining (s : State) (a : Nat) : State :=
  match s.aisles.look a with
  | none => s
  | some x => if decide (x.service = .draining) && x.crane.free then s.takeOut a else s

/-- A load that no job accounts for (R78): the labelled bin is judged, UNEXPECTED_BIN is raised and posted, and the crane
and the aisle become OUT_OF_SERVICE; a running stop wait is disarmed (R79). -/
def State.unaccountedLoad (s : State) (a label : Nat) : State :=
  (((s.judgeRead label).unexpectedBin label none).modCrane a fun c => { c with stopWait := none }).takeOut a

end Sys2Proof.Machine
end

