-- ==== Sys2Proof/Machine/Faults.lean ====
section
/-! DEFINITION. Stops, losses and faults: STOP to a crane (R79, R160, R181), the settlement of a lost job or suspension
record (R75, R76), a crane made FAULTED (R74, R76, R162), and the Fault Unit with the entry to HALTED (R179, R181). -/
namespace Sys2Proof.Machine

/-! ### Stopping a crane -/

/-- Pauses a running deadline (R47). -/
def Deadline.pause (d : Deadline) : Deadline := { d with running := false }

/-- A suspension record's park label is cleared (R160, R173). -/
def Crane.clearParkLabel (c : Crane) : Crane :=
  { c with suspension := c.suspension.map fun r => { r with parkLabel := none } }

/-- An active job other than PARK is frozen: its deadline is paused in the crane record (R47, R181). -/
def Crane.freeze (c : Crane) : Crane :=
  match c.active with
  | some j => if j.kind = .park then c else { c with deadline := c.deadline.map Deadline.pause }
  | none => c

/-- STOP is sent to a crane that is BUSY, IDLE or PARKING, which becomes STOPPING: a staged job is withdrawn without
UNSTAGE (R64), a queued PARK is removed (R79), and the stop wait is armed from the Wing Settings record (R160, R181). -/
def State.stopCrane (s : State) (a : Nat) : State :=
  ((((s.withdrawStaged false a).dropQueuedPark a).modCrane a fun c =>
      { c with state := .stopping, stopWait := some s.settings.stop })).sendCrane a .stop

/-! ### Settlement of a lost job (R75, R76) -/

/-- A lost active job goes back to its queue (Table 4.7): an AUDIT in any phase, a RETRIEVE, STORE or TRANSFER in
TO_SOURCE; a PARK never does. -/
def lostReturns (k : JobKind) (p : Option Phase) : Bool :=
  match k with
  | .audit => true
  | .park => false
  | .retrieve | .store | .transfer => decide (p = some .toSource)

/-- The job of a lost suspension record goes back to its queue (R76): an AUDIT always, another job when it stopped in
TO_SOURCE with forks not extended. -/
def Suspension.lostReturns (r : Suspension) : Bool :=
  match r.job.kind with
  | .audit => true
  | .park => false
  | .retrieve | .store | .transfer => decide (r.phaseAtStop = .toSource) && !r.forks

/-- A job is dropped with its bin lost (Table 4.7, Table 9.4): the pending home of a TRANSFER is cleared (R10); the trip
station of a RETRIEVE is cleared (R8) and the bin becomes IN_DOUBT, but for a bin that stands in a lane, whose state and
trip station the end of the job does not change (R92). -/
def State.dropJob (s : State) (j : Job) : State :=
  match j.bin with
  | none => s
  | some n =>
    let s1 := if j.kind = .transfer then s.clearPending n else s
    if s.inLane n then s1
    else (if j.kind = .retrieve then s1.clearTrip n else s1).enterDoubt n

/-- Settles a job that a crane has lost: it goes back to its queue, or it is dropped (R75). -/
def State.settleLost (s : State) (a : Nat) (j : Job) (back : Bool) : State :=
  if back then s.returnJob a j else s.dropJob j

/-- Settles the active job of a lost crane, in its recorded phase (R75). -/
def State.settleActive (s : State) (a : Nat) (c : Crane) : State :=
  match c.active with
  | none => s
  | some j => s.settleLost a j (Machine.lostReturns j.kind c.phase)

/-- Settles the suspension record of a lost crane (R76, R162). -/
def State.settleRecord (s : State) (a : Nat) (c : Crane) : State :=
  match c.suspension with
  | none => s
  | some r => s.settleLost a r.job r.lostReturns

/-! ### The Fault Unit -/

/-- What a block hands to the Fault Unit with a major fault (Table 10.1). -/
structure Raised where
  kind : FaultKind
  subject : Subject
  jobTag : Option Nat
  bin : Option Nat
  detail : Option Nat
  recoverable : Bool
  deriving DecidableEq, Repr

/-- The number of a subject. -/
def Subject.number : Subject → Nat
  | .item n | .bin n | .station n | .zone n | .aisle n | .faultTag n => n
  | .wing => 0

/-- The record of a fault (Table 10.2). -/
def Raised.record (f : Raised) (tag : Nat) : FaultRecord :=
  { tag := tag, kind := f.kind, subject := f.subject.number, jobTag := f.jobTag, bin := f.bin, detail := f.detail
    recoverable := f.recoverable }

/-- The tag after a recorded fault's, wrapping from 255 to 1 (R178). -/
def faultTagAfter (t : Nat) : Nat := if t ≥ Config.maxFaultTag then 1 else t + 1

/-- A crane at the entry to HALTED (R181). -/
def State.haltCrane (s : State) (a : Nat) : State :=
  match s.aisles.look a with
  | none => s
  | some x =>
    match x.crane.state with
    | .busy | .parking | .idle => (s.stopCrane a).modCrane a Crane.freeze
    | .stopping => s.modCrane a Crane.freeze
    | .stopped | .faulted | .outOfService => s

/-- The entry actions of HALTED on every crane (R181). -/
def State.haltCranes (s : State) : State := s.aisles.numbers.foldl State.haltCrane s

/-- A major fault is raised (R179): a first fault is recorded, a second halts the wing, and one raised in HALTED is only
reported. -/
def State.raise (s : State) (f : Raised) : State :=
  let t := s.faults.nextTag
  match s.faults.state with
  | .clear =>
    (s.setFaults { s.faults with state := .pending, first := some (f.record t), nextTag := faultTagAfter t }).report
      .fault (.faultTag t) (some (.faultKind f.kind))
  | .pending =>
    (((s.setFaults { s.faults with state := .halted, halting := some (f.record t), nextTag := faultTagAfter t
                                   haltedLine := true }).report
        .fault (.faultTag t) (some (.faultKind f.kind))).haltCranes).report
      .halted (.faultTag t) (some (.faultKind f.kind))
  | .halted => s.report .fault f.subject (some (.faultKind f.kind))

/-! ### A crane made FAULTED -/

/-- The crane record of a crane that becomes FAULTED (R74, R76, R162): position UNKNOWN, no job, no record, no wait. -/
def Crane.lose (c : Crane) : Crane :=
  { c.clearJob with state := .faulted, position := none, staged := none, stopWait := none, suspension := none }

/-- The job whose tag and bin a crane's fault carries (Table 10.1): the active job, else that of its suspension record. -/
def Crane.faultJob (c : Crane) : Option Job :=
  match c.active with
  | some j => some j
  | none => c.suspension.map (·.job)

/-- A crane is lost by CRANE_OVERDUE, CRANE_FAULT or CRANE_NO_STOP (R74, R76, R162): STOP is sent; a staged job is
withdrawn without UNSTAGE; the active job and the suspension record (log 13) are settled; a queued PARK is removed; the
crane becomes FAULTED and the aisle OUT_OF_SERVICE, with AISLE_STATE unless it already is; then the fault is raised. -/
def State.loseCrane (s : State) (a : Nat) (k : FaultKind) : State :=
  match s.aisles.look a with
  | none => s
  | some x =>
    let c := x.crane
    let s1 := ((((s.sendCrane a .stop).withdrawStaged false a).settleActive a c).settleRecord a c).dropQueuedPark a
    let s2 := (s1.modCrane a Crane.lose).setService a .outOfService
    s2.raise
      { kind := k, subject := .aisle a, jobTag := c.faultJob.map (·.tag), bin := c.faultJob.bind (·.bin), detail := none
        recoverable := !(doubted s s2 (c.active.bind (·.bin)) || doubted s s2 (c.suspension.bind (·.job.bin))) }

/-- A CRANE_FAULT from an OUT_OF_SERVICE crane (R76): the crane becomes FAULTED and the fault is raised; nothing is sent
and no AISLE_STATE is posted. -/
def State.loseIdleOutOfService (s : State) (a : Nat) : State :=
  (s.modCrane a fun c => { c with state := .faulted }).raise
    { kind := .craneFault, subject := .aisle a, jobTag := none, bin := none, detail := none, recoverable := true }

/-! ### Lane holds -/

/-- Holds a station's lane (R101): the hold mark is set and every staged RETRIEVE bound for the station is withdrawn. -/
def State.holdLane (s : State) (st : Nat) : State :=
  (s.modStation st fun x => { x with hold := true }).withdrawAll

end Sys2Proof.Machine
end

