-- ==== Sys2Proof/Machine/Zones.lean ====
section
/-! DEFINITION. The Zone Unit: entry to SHUTDOWN (R152, R159, R160), shutters (R164), the SECURED condition (R167),
restoration and its completion (R170 to R172), the resolution of suspension records (R174), and the pass at the end of a
command in which the zones are judged, staged jobs withdrawn and the queues looked at (log 6, log 7). -/
namespace Sys2Proof.Machine

/-! ### Entering SHUTDOWN -/

/-- The suspension record of a job held frozen by a halt, when its zone enters SHUTDOWN (R160). -/
def frozenRecord (c : Crane) (j : Job) : Suspension :=
  let p := c.phase.getD .toSource
  { job := j, phaseAtStop := p, load := decide (p = .toDest) || decide (p = .placing), forks := true
    recoverable := false, pausedLeft := (c.deadline.map (·.left)).getD 1, parkLabel := none }

/-- A frozen job moves into a suspension record (R160). -/
def Crane.suspendFrozen (c : Crane) : Crane :=
  match c.active with
  | none => c
  | some j => { c.clearJob with suspension := some (frozenRecord c j) }

/-- A crane at the entry of its zone to SHUTDOWN (R160). -/
def State.shutdownCrane (s : State) (a : Nat) : State :=
  match s.aisles.look a with
  | none => s
  | some x =>
    match x.crane.state with
    | .busy | .parking => s.stopCrane a
    | .idle => (s.stopCrane a).modCrane a Crane.clearParkLabel
    | .stopping =>
      if x.crane.stopWait.isNone then s.modCrane a fun c => { c with stopWait := some s.settings.stop } else s
    | .stopped => s.modCrane a Crane.suspendFrozen
    | .faulted | .outOfService => s

/-- The mouth of the shutter's bound station is OCCUPIED, as the Station Unit last recorded it (R164). -/
def State.mouthOccupiedAt (s : State) (n : Nat) : Bool :=
  match s.boundStation n with
  | none => false
  | some st => ((s.stations.look st).map (·.mouthOccupied)).getD false

/-- A close is started on a shutter (R164). -/
def State.startClose (s : State) (n : Nat) : State :=
  match s.shutters.look n with
  | none => s
  | some h =>
    match h.state with
    | .opened | .opening =>
      if s.mouthOccupiedAt n then
        s.modShutter n fun h => { h with state := .waitingMouth, wait := some s.settings.shutter }
      else (s.modShutter n fun h => { h with state := .closing }).sendShutter n (.closeShutter false)
    | .jammed => s.sendShutter n (.closeShutter false)
    | .closing | .waitingMouth | .closed => s

/-- A station at the entry of its zone to SHUTDOWN (R159, R48): HOLD, RETRACT, and its in-transit deadlines paused. -/
def State.shutdownStation (s : State) (st : Nat) : State :=
  ((s.sendStation st .hold).sendStation st .retract).modStation st fun x =>
    { x with inTransit := x.inTransit.map fun t => { t with deadline := t.deadline.pause } }

/-- The entry actions of SHUTDOWN on the members of the zone (R159). The staged RETRIEVEs bound for its stations are
withdrawn by `withdrawAll`. -/
def State.entryActions (s : State) (z : Nat) : State :=
  let s1 := (s.stationsOf z).foldl State.shutdownStation s
  let s2 := (s.aislesOf z).foldl State.shutdownCrane s1
  (s.shuttersOf z).foldl State.startClose s2

/-- A zone in NORMAL, ALERT or RESTORING enters SHUTDOWN (R152): the alert window is disarmed, the cause set is kept,
ZONE_STATE is posted and the entry actions are made. A zone in SHUTDOWN or SECURED keeps its state. -/
def State.enterShutdown (s : State) (z : Nat) : State :=
  match s.zoneState z with
  | some .normal | some .alert | some .restoring =>
    ((s.modZone z fun x => { x with windowLeft := none }).setZoneState z .shutdown).entryActions z
  | _ => s

/-! ### The SECURED condition -/

/-- The crane meets the SECURED condition: STOPPED, FAULTED or OUT_OF_SERVICE (R167). -/
def CraneState.atRest : CraneState → Bool
  | .stopped | .faulted | .outOfService => true
  | .parking | .idle | .busy | .stopping => false

/-- The condition of R167: every shutter of the zone is CLOSED and every crane of its aisles is at rest. -/
def State.securedCondition (s : State) (z : Nat) : Bool :=
  s.shutters.all (fun e => !decide (e.2.zone = z) || decide (e.2.state = .closed))
    && s.aisles.all (fun e => !decide (e.2.geom.zone = z) || e.2.crane.state.atRest)

/-! ### Restoration -/

/-- A crane that is STOPPED in a restored zone is made PARKING with a PARK job (R170, R171). -/
def State.parkStopped (s : State) (a : Nat) : State :=
  match s.aisles.look a with
  | none => s
  | some x => if x.crane.state = .stopped then s.createPark a else s

/-- A shutter at the entry of its zone to RESTORING (R170). -/
def State.restoreShutter (s : State) (n : Nat) : State :=
  match s.shutters.look n with
  | none => s
  | some h =>
    match h.state with
    | .closed | .closing => (s.modShutter n fun h => { h with state := .opening }).sendShutter n .openShutter
    | .jammed => s.sendShutter n .openShutter
    | .waitingMouth => s.modShutter n fun h => { h with state := .opened, wait := none }
    | .opened | .opening => s

/-- A taken RESTORE_ZONE (R170). -/
def State.enterRestoring (s : State) (z : Nat) : State :=
  let s1 := s.setZoneState z .restoring
  let s2 := (s.shuttersOf z).foldl State.restoreShutter s1
  (s.aislesOf z).foldl State.parkStopped s2

/-- The condition of R171: every shutter of the zone is OPEN, and no crane of its aisles is PARKING, STOPPING or STOPPED. -/
def State.restoredCondition (s : State) (z : Nat) : Bool :=
  s.shutters.all (fun e => !decide (e.2.zone = z) || decide (e.2.state = .opened))
    && s.aisles.all fun e => !decide (e.2.geom.zone = z) ||
        (match e.2.crane.state with
         | .parking | .stopping | .stopped => false
         | .idle | .busy | .faulted | .outOfService => true)

/-! ### Resolution of suspension records (R174) -/

/-- The record is removed; the paused deadline is discarded (R174). -/
def State.dropRecord (s : State) (a : Nat) : State := s.modCrane a fun c => { c with suspension := none }

/-- The job's bin is lost and an AUDIT for its home slot is appended (Table 9.4, third row). -/
def State.dropAndAudit (s : State) (a : Nat) (j : Job) : State :=
  match j.bin with
  | none => s
  | some n =>
    let s1 := s.dropJob j
    match s1.bins.look n with
    | none => s1
    | some b => s1.addJob a (auditJob n b.home)

/-- A record is resolved by its park label (Table 9.4). A record that resumes stays for the Dispatcher's look (R175), and
so does one without a park label. DESIGN CHOICE: a label above 16,383, which is no bin number (Table 11.7, Note 1) and has no row
in Table 9.4, is resolved as the label of a bin that is not the job's (log 38). -/
def State.resolveRecord (s : State) (a : Nat) : State :=
  match s.aisles.look a with
  | none => s
  | some x =>
    match x.crane.suspension with
    | none => s
    | some r =>
      match r.parkLabel with
      | none => s
      | some .none =>
        (match r.job.kind with
         | .audit => ((s.dropRecord a).returnJob a r.job).endDraining a
         | _ =>
           if r.recoverable && decide (r.phaseAtStop = .toSource) then ((s.dropRecord a).returnJob a r.job).endDraining a
           else ((s.dropRecord a).dropAndAudit a r.job).endDraining a)
      | some (.label n) =>
        if r.resumes then s
        else
          match r.job.kind with
          | .audit => ((s.dropRecord a).returnJob a r.job).unaccountedLoad a n
          | _ => ((s.dropRecord a).dropJob r.job).unaccountedLoad a n

/-- A station of a zone that becomes NORMAL (R172): RESUME, then PRESENT for a presented bin (R102); its paused in-transit
deadlines run again (R48). -/
def State.resumeStation (s : State) (st : Nat) : State :=
  ((s.sendStation st .resume).sendPresent st).modStation st fun x =>
    { x with inTransit := x.inTransit.map fun t => { t with deadline := { t.deadline with running := true } } }

/-- The NORMAL entry actions of a restored zone (R172), which need no order among themselves. DESIGN CHOICE: the stations are
resumed in ascending number, then the records resolved in ascending number of their aisles (log 22). -/
def State.normalActions (s : State) (z : Nat) : State :=
  (s.aislesOf z).foldl State.resolveRecord ((s.stationsOf z).foldl State.resumeStation s)

/-- Restoration is complete (R172): the zone becomes NORMAL, ZONE_STATE is posted, and the NORMAL entry actions are made. With
a cause in its set the zone enters ALERT in the same event: the actions judge the zone in ALERT, and ZONE_STATE for ALERT is
posted after them (R151). -/
def State.completeRestoration (s : State) (z : Nat) : State :=
  let s1 := s.setZoneState z .normal
  if s.hasCause z then ((s1.turnAlert z).normalActions z).reportZone z .alert else s1.normalActions z

/-- Judges one zone: a SHUTDOWN zone that meets R167 becomes SECURED; the restoration of a RESTORING zone that meets R171
is complete. -/
def State.judgeZone (s : State) (z : Nat) : State :=
  match s.zoneState z with
  | some .shutdown => if s.securedCondition z then s.setZoneState z .secured else s
  | some .restoring => if s.restoredCondition z then s.completeRestoration z else s
  | _ => s

/-- Judges every zone (R167, R171). DESIGN CHOICE: in ascending number (log 22). -/
def State.judgeZones (s : State) : State := s.zones.numbers.foldl State.judgeZone s

/-! ### The end of a command -/

/-- What follows a command that can complete a zone's condition, change an eligibility or give the Dispatcher a job: the
zones are judged (R167, R171), the staged jobs that stopped being eligible are withdrawn (R64), and the Dispatcher looks
at its queues (R62). -/
def State.settleWing (s : State) : State := s.judgeZones.withdrawAll.lookAll

end Sys2Proof.Machine
end

