-- ==== Sys2Proof/Machine/Admission.lean ====
section
/-! DEFINITION. The admission of field telegrams against the Field Address Table (R193). -/
namespace Sys2Proof.Machine

/-- The subject of a FIELD_PROTOCOL raised at admission: the sender's aisle or station, or the zone of a shutter or
concentrator (R193). -/
def State.senderSubject (s : State) (d : Device) : Subject :=
  match d.role with
  | .crane => .aisle d.index
  | .station => .station d.index
  | .shutter => .zone (((s.shutters.look d.index).map (·.zone)).getD 0)
  | .concentrator => .zone (((s.concentrators.look d.index).map (·.zone)).getD 0)

/-- A telegram that is not one of the sender's role, or whose body does not hold its fields, is dropped, and FIELD_PROTOCOL
is raised with the kind number as code (R193, check 3). -/
def State.rejectTelegram (s : State) (d : Device) (kind : Nat) : State :=
  s.fieldProtocol (s.senderSubject d) (some (.number kind))

/-- The checks of R193 in their order: an unknown source and COMMISSIONING drop the telegram; one of another role is
rejected; one that passes is handed to the block owning the role, as the sender named by the entry's index. -/
def State.admission (s : State) (src kind : Nat) (r : Role) (take : State → Nat → State) : State :=
  match s.addresses.look src with
  | none => s
  | some d =>
    if s.mode = .commissioning then s
    else if d.role = r then take s d.index
    else s.rejectTelegram d kind

end Sys2Proof.Machine
end

