-- ==== Sys2Proof/Machine/Arrivals.lean ====
section
/-! DEFINITION. BIN_ARRIVED (R90 to R95): on time, late, unexpected, foreign tray, full lane. -/
namespace Sys2Proof.Machine

/-- The numbers of the other stations. -/
def State.otherStations (s : State) (st : Nat) : List Nat := s.stations.numbers.filter (· != st)

/-- A queued job naming the bin is removed; the pending home of a TRANSFER is cleared (R92). -/
def State.dropQueuedNaming (s : State) (n a : Nat) : State :=
  match s.aisles.look a with
  | none => s
  | some x =>
    let s1 := s.modAisle a fun x => { x with queue := x.queue.filter fun j => !j.names n }
    if x.queue.any fun j => j.names n && decide (j.kind = .transfer) then s1.clearPending n else s1

/-- A staged job naming the bin is dropped and UNSTAGE is sent; the pending home of a TRANSFER is cleared (R92). -/
def State.dropStagedNaming (s : State) (n a : Nat) : State :=
  match (s.aisles.look a).bind (·.crane.staged) with
  | none => s
  | some j =>
    if j.names n then
      let s1 := (s.modCrane a fun c => { c with staged := none }).sendCrane a (.unstage j.tag)
      if j.kind = .transfer then s1.clearPending n else s1
    else s

/-- Before a late or unexpected push, the bin is removed from every other place held for it (R92). -/
def State.takeFromElsewhere (s : State) (n st : Nat) : State :=
  let s1 := (s.otherStations st).foldl (fun s o => (s.removeFromLane n o).removeTransit n o) s
  let s2 := s1.aisles.numbers.foldl (fun s a => s.dropQueuedNaming n a) s1
  s2.aisles.numbers.foldl (fun s a => s.dropStagedNaming n a) s2

/-- A bin takes the station as trip station (R8). -/
def State.setTrip (s : State) (n st : Nat) : State := s.modBin n fun b => { b with trip := some st }

/-- An arrival on time (R90). -/
def State.arriveOnTime (s : State) (st n : Nat) : State :=
  ((((s.removeTransit n st).pushPlace st (.bin n)).setBinState n .inLane).leaveOverdue n).presentTop st

/-- A late arrival (R91). -/
def State.arriveLate (s : State) (st n : Nat) : State :=
  (((((((s.takeFromElsewhere n st).leaveOverdue n).pushPlace st (.bin n)).setBinState n .inLane).setTrip n st).report
    .lateArrival (.bin n) (some (.number st)))).presentTop st

/-- An unexpected arrival (R93). -/
def State.arriveUnexpected (s : State) (st n : Nat) : State :=
  ((((((s.takeFromElsewhere n st).leaveOverdue n).pushPlace st (.bin n)).setTrip n st).enterDoubt n).unexpectedBin n
    (some (.number st)))

/-- A foreign tray (R94). -/
def State.arriveTray (s : State) (st label : Nat) : State :=
  (s.pushPlace st (.tray label)).unexpectedBin label (some (.number st))

/-- The records of a bin of the Bin Map that finds the lane full (R95). -/
def State.turnAway (s : State) (st n : Nat) : State :=
  ((((s.takeFromElsewhere n st).removeTransit n st).leaveOverdue n).clearTrip n).enterDoubt n

/-- An arrival that finds the lane full (R95): nothing is pushed, the lane is held, and STATION_FAULT is raised with the bin
or label, recoverable only when no bin entered IN_DOUBT by it. -/
def State.arriveFull (s : State) (st label : Nat) : State :=
  let s1 := if (s.bins.look label).isSome then s.turnAway st label else s
  (s1.holdLane st).raise
    { kind := .stationFault, subject := .station st, jobTag := none, bin := some label, detail := none
      recoverable := !doubted s s1 (some label) }

/-- The lane of the station is full. -/
def State.laneIsFull (s : State) (st : Nat) : Bool := ((s.stations.look st).map Station.laneFull).getD true

/-- A bin has an entry on the station's in-transit list. -/
def Station.expects (x : Station) (n : Nat) : Bool := x.inTransit.any fun t => decide (t.bin = n)

/-- The judgement of an arriving label, in the order in which the Station Unit tries the cases (5.4). Before an unexpected
arrival is judged for room, the bin's own place in this lane is taken out (R93). -/
def State.judgeArrival (s : State) (st label : Nat) (x : Station) : State :=
  if x.expects label then
    if s.laneIsFull st then s.arriveFull st label else s.arriveOnTime st label
  else if label ∈ x.overdue then
    if s.laneIsFull st then s.arriveFull st label else s.arriveLate st label
  else if (s.bins.look label).isSome then
    let s1 := s.removeFromLane label st
    if s1.laneIsFull st then s1.arriveFull st label else s1.arriveUnexpected st label
  else if s.laneIsFull st then s.arriveFull st label
  else s.arriveTray st label

/-- A BIN_ARRIVED from a station: it ends a lane hold (R101), the label is judged, and the Dispatcher looks again. -/
def State.takeArrival (label : Nat) (s : State) (st : Nat) : State :=
  match s.stations.look st with
  | none => s
  | some x => ((s.endHold st).judgeArrival st label x).settleWing

/-- BIN_ARRIVED (R90). -/
def execBinArrived (src label : Nat) (s : State) : Next := .next (s.admission src 8 .station (State.takeArrival label))

end Sys2Proof.Machine
end

