-- ==== Sys2Proof/Machine/CraneTelegrams.lean ====
section
/-! DEFINITION. The crane telegrams: PHASE (R66), DONE (R67), PICK_FAILED (R70, R71), AUDIT_RESULT (R72, R73), STOPPED
(R161), PARKED (R78, R79), CRANE_FAULT (R76), and what happens to one that arrives out of turn (R68, R182). -/
namespace Sys2Proof.Machine

/-- FAULTED and OUT_OF_SERVICE cranes: their telegrams but for PHASE and CRANE_FAULT are dropped without report (R68). -/
def CraneState.lost : CraneState → Bool
  | .faulted | .outOfService => true
  | .parking | .idle | .busy | .stopping | .stopped => false

/-- BUSY or STOPPING: the states in which a DONE or AUDIT_RESULT is taken (R67, R72). -/
def CraneState.working : CraneState → Bool
  | .busy | .stopping => true
  | .parking | .idle | .stopped | .faulted | .outOfService => false

/-- The kinds of job that carry a bin. -/
def JobKind.carries : JobKind → Bool
  | .retrieve | .store | .transfer => true
  | .audit | .park => false

/-- A telegram out of turn (R68, Table 4.6): dropped, and FIELD_PROTOCOL raised with the telegram's kind as code. R182 names no code
for a telegram that answers a frozen job; the model gives it the same one (DEDUCED, log 12). -/
def State.outOfTurn (s : State) (a kind : Nat) : State := s.fieldProtocol (.aisle a) (some (.number kind))

/-! ### PHASE -/

/-- The phases allowed for a job's kind (R66). -/
def phaseAllowed : JobKind → Phase → Bool
  | .retrieve, _ | .store, _ | .transfer, _ => true
  | .audit, .toSource | .audit, .picking => true
  | .audit, _ => false
  | .park, .toDest => true
  | .park, _ => false

/-- The order TO_SOURCE, PICKING, TO_DEST, PLACING (R66). -/
def phaseRank : Phase → Nat
  | .toSource => 1
  | .picking => 2
  | .toDest => 3
  | .placing => 4

/-- The phase is the recorded phase or a later one (R66). -/
def phaseNotEarlier (recorded : Option Phase) (p : Phase) : Bool := decide ((recorded.map phaseRank).getD 0 ≤ phaseRank p)

/-- TO_DEST or PLACING (R66). -/
def afterPick (p : Phase) : Bool := decide (p = .toDest) || decide (p = .placing)

/-- A PHASE judged against the active job (R66). -/
def State.judgePhase (s : State) (a : Nat) (c : Crane) (j : Job) (p : Phase) : State :=
  if phaseAllowed j.kind p && phaseNotEarlier c.phase p then
    let s1 := s.modCrane a fun c => { c with phase := some p }
    if j.kind.carries && afterPick p then s1.liftBin j else s1
  else s.fieldProtocol (.aisle a) none

/-- A PHASE from the crane of an aisle (R66): the clamped point becomes the position in every state; with an active job
that is not frozen in a STOPPED crane (R182) the phase is judged. -/
def State.takePhase (p : Phase) (bay level : Nat) (s : State) (a : Nat) : State :=
  match s.aisles.look a with
  | none => s
  | some x =>
    let s1 := s.modCrane a fun c => { c with position := some (clampPoint x.geom bay level) }
    match x.crane.active with
    | none => s1
    | some j => if x.crane.state = .stopped then s1 else s1.judgePhase a x.crane j p

/-! ### DONE -/

/-- The remaining value of a crane's deadline. -/
def Crane.left (c : Crane) : Nat := (c.deadline.map (·.left)).getD 1

/-- DONE of a RETRIEVE (R67, R46, R89): the bin becomes IN_TRANSIT on the trip to the station, whose in-transit list takes
an entry with the remaining deadline, running when the station's zone is NORMAL or ALERT. A bin that stands in a lane is
not changed, and no entry is made (R92). -/
def State.retrieveDone (s : State) (n st left : Nat) : State :=
  if s.inLane n then s
  else
    ((s.setBinState n .inTransit).modBin n fun b => { b with trip := some st }).modStation st fun x =>
      { x with inTransit := x.inTransit ++ [{ bin := n, deadline := { left := left, running := s.stationOpen st } }] }

/-- The pending home becomes the home slot; the old slot is freed (R10). -/
def Bin.moveHome (b : Bin) : Bin := { b with home := b.pendingHome.getD b.home, pendingHome := none }

/-- The bin of a job that ends by DONE, settled by kind (R67). -/
def State.settleDone (s : State) (j : Job) (left : Nat) : State :=
  match j.bin with
  | none => s
  | some n =>
    match j.kind with
    | .retrieve =>
      (match j.station with
       | none => s
       | some st => s.retrieveDone n st left)
    | .store => if s.inLane n then s else s.binStored n
    | .transfer =>
      let s1 := s.modBin n Bin.moveHome
      if s.inLane n then s1 else s1.binStored n
    | .audit | .park => s

/-- A DONE from the crane of an aisle (R67): the bin passes through ON_CRANE, is settled by kind, and the job ends at its
destination point. DESIGN CHOICE: the follow-on RETRIEVE of the settlement takes its tag while the job that ends still holds
its own, which is passed over (R55; log 36). -/
def State.takeDone (s : State) (a : Nat) : State :=
  match s.aisles.look a with
  | none => s
  | some x =>
    if x.crane.state.lost then s
    else
      match x.crane.active with
      | none => s.outOfTurn a 2
      | some j =>
        if x.crane.state.working && j.kind.carries then
          (((s.liftBin j).settleDone j x.crane.left).endJob a j.destinationPoint).settleWing
        else s.outOfTurn a 2

/-! ### PICK_FAILED -/

/-- The bin of an abandoned job, settled by kind (R71): MISSING for a RETRIEVE or TRANSFER, IN_DOUBT for a STORE, the
report carrying the reason of the last PICK_FAILED. A bin that stands in a lane keeps its state and trip station (R92). -/
def State.settleAbandon (s : State) (j : Job) (reason : PickReason) : State :=
  match j.bin with
  | none => s
  | some n =>
    match j.kind with
    | .retrieve => if s.inLane n then s else (s.clearTrip n).enterLoss n .missing (some (.reason reason))
    | .transfer =>
      let s1 := s.clearPending n
      if s.inLane n then s1 else s1.enterLoss n .missing (some (.reason reason))
    | .store =>
      if s.inLane n || decide (s.binState n = some .inDoubt) then s
      else s.enterLoss n .inDoubt (some (.reason reason))
    | .audit | .park => s

/-- ABANDON (R71): the job is dropped, its bin settled, and the job ends at its source point. -/
def State.abandon (s : State) (a : Nat) (j : Job) (reason : PickReason) : State :=
  (((s.sendCrane a (.abandon j.tag)).settleAbandon j reason).endJob a j.sourcePoint).settleWing

/-- RETRY with the next pair (R70, R45): phase PICKING, retry index risen by 1, the deadline extended. -/
def State.retryPick (s : State) (a : Nat) (g : Geometry) (offset : Int × Int) : State :=
  (s.modCrane a fun c =>
      { c with phase := some .picking, retryIndex := c.retryIndex + 1
               deadline := c.deadline.map fun d => { d with left := extendDeadline g d.left } }).sendCrane a
    (.retry offset)

/-- A PICK_FAILED from the crane of an aisle (R70): from a crane in STOPPING it is dropped without report. -/
def State.takePickFailed (reason : PickReason) (s : State) (a : Nat) : State :=
  match s.aisles.look a with
  | none => s
  | some x =>
    if x.crane.state.lost || decide (x.crane.state = .stopping) then s
    else
      match x.crane.active with
      | none => s.outOfTurn a 3
      | some j =>
        if decide (x.crane.state = .busy) && j.kind.carries && !(x.crane.phase.any afterPick) then
          match x.retry[x.crane.retryIndex]? with
          | some p => s.retryPick a x.geom p
          | none => s.abandon a j reason
        else s.outOfTurn a 3

/-! ### AUDIT_RESULT -/

/-- The audited bin, settled by the label read (R72, R73); a bin that stands in a lane keeps its state (R92). -/
def State.settleAudit (s : State) (n : Nat) (r : Reading) : State :=
  match r with
  | .none => if s.inLane n then s else s.enterLoss n .missing none
  | .label m =>
    if m = n then (if s.inLane n then s else s.binStored n)
    else
      let s1 := if s.inLane n then s else s.enterLoss n .missing none
      (s1.judgeRead m).unexpectedBin m none

/-- The bin of an AUDIT job, settled. -/
def State.settleAuditJob (s : State) (j : Job) (r : Reading) : State :=
  match j.bin with
  | none => s
  | some n => s.settleAudit n r

/-- An AUDIT_RESULT from the crane of an aisle (R72). A follow-on RETRIEVE takes its tag as in `takeDone` (log 36). -/
def State.takeAuditResult (r : Reading) (s : State) (a : Nat) : State :=
  match s.aisles.look a with
  | none => s
  | some x =>
    if x.crane.state.lost then s
    else
      match x.crane.active with
      | none => s.outOfTurn a 4
      | some j =>
        if x.crane.state.working && decide (j.kind = .audit) then
          ((s.settleAuditJob j r).endJob a j.destinationPoint).settleWing
        else s.outOfTurn a 4

/-! ### STOPPED -/

/-- The later of two phases. -/
def laterPhase (p q : Phase) : Phase := if phaseRank p ≤ phaseRank q then q else p

/-- The phase at stop (R161): the later of the recorded phase and the phase carried, at least TO_DEST for a job that
carries its bin with the load present. -/
def phaseAtStop (c : Crane) (j : Job) (p : Phase) (load : Bool) : Phase :=
  let q := laterPhase (c.phase.getD p) p
  if j.kind.carries && load then laterPhase q .toDest else q

/-- The suspension record made at a STOPPED (R161). -/
def stopRecord (c : Crane) (j : Job) (p : Phase) (load forks : Bool) : Suspension :=
  { job := j, phaseAtStop := phaseAtStop c j p load, load := load, forks := forks, recoverable := !forks
    pausedLeft := c.left, parkLabel := none }

/-- A STOPPING crane that answers its STOP (R161). `zoneShut` says that its zone is SHUTDOWN, SECURED or RESTORING: the
job then moves into a suspension record; otherwise it stays frozen. A PARK is dropped (R79). -/
def Crane.stop (zoneShut : Bool) (p : Phase) (load forks : Bool) (c : Crane) : Crane :=
  match c.active with
  | none => { c with state := .stopped, stopWait := none }
  | some j =>
    if j.kind = .park then { c.clearJob with state := .stopped, stopWait := none }
    else if zoneShut then
      { c.clearJob with state := .stopped, stopWait := none, suspension := some (stopRecord c j p load forks) }
    else { c.freeze with state := .stopped, stopWait := none }

/-- A crane that has become STOPPED in a RESTORING zone is parked afresh (R171). -/
def State.parkIfRestoring (s : State) (a z : Nat) : State :=
  if s.zoneState z = some .restoring then s.parkStopped a else s

/-- A STOPPED from the crane of an aisle (R161, R68). DESIGN CHOICE: without a job or a record in a DRAINING aisle, it ends the
aisle's service (R81) before a RESTORING zone could park the crane (R171): no PARK is created (log 35). -/
def State.takeStopped (p : Phase) (load forks : Bool) (s : State) (a : Nat) : State :=
  match s.aisles.look a with
  | none => s
  | some x =>
    match x.crane.state with
    | .faulted | .outOfService | .stopped => s
    | .idle | .parking | .busy => s.outOfTurn a 5
    | .stopping =>
      (((s.modCrane a (Crane.stop (s.zoneClosed x.geom.zone) p load forks)).endDraining a).parkIfRestoring a
        x.geom.zone).settleWing

/-! ### PARKED -/

/-- A PARK that ends at the front port (R78, R79). -/
def Crane.endPark (c : Crane) : Crane := { c.clearJob with position := some frontPort }

/-- The label of a PARKED is written into the suspension record (R171). -/
def Crane.notePark (r : Reading) (c : Crane) : Crane :=
  { c with suspension := c.suspension.map fun q => { q with parkLabel := some r } }

/-- PARKED from a PARKING crane (R78). -/
def State.parkEnds (s : State) (a : Nat) (x : Aisle) (r : Reading) : State :=
  let s1 := s.modCrane a fun c => { c.endPark with state := .idle }
  match x.crane.suspension with
  | some _ => s1.modCrane a (Crane.notePark r)
  | none =>
    match r with
    | .none => s1.endDraining a
    | .label n => s1.unaccountedLoad a n

/-- PARKED from a crane that is STOPPING with its PARK active (R79). -/
def State.parkEndsStopping (s : State) (a : Nat) (x : Aisle) (r : Reading) : State :=
  let s1 := s.modCrane a fun c => c.endPark.clearParkLabel
  match x.crane.suspension, r with
  | none, .label n => s1.unaccountedLoad a n
  | _, _ => s1

/-- A PARKED from the crane of an aisle. -/
def State.takeParked (r : Reading) (s : State) (a : Nat) : State :=
  match s.aisles.look a with
  | none => s
  | some x =>
    if x.crane.state.lost then s
    else if decide (x.crane.active.map (·.kind) = some .park) then
      match x.crane.state with
      | .parking => (s.parkEnds a x r).settleWing
      | .stopping => (s.parkEndsStopping a x r).settleWing
      | _ => s.outOfTurn a 6
    else s.outOfTurn a 6

/-! ### CRANE_FAULT -/

/-- A CRANE_FAULT from the crane of an aisle (R76). -/
def State.takeCraneFault (s : State) (a : Nat) : State :=
  match s.aisles.look a with
  | none => s
  | some x =>
    match x.crane.state with
    | .faulted => s
    | .outOfService => (s.loseIdleOutOfService a).settleWing
    | _ => (s.loseCrane a .craneFault).settleWing

/-! ### The commands -/

/-- PHASE (R66). -/
def execPhase (src : Nat) (p : Phase) (bay level : Nat) (s : State) : Next :=
  .next (s.admission src 1 .crane (State.takePhase p bay level))

/-- DONE (R67). -/
def execDone (src : Nat) (s : State) : Next := .next (s.admission src 2 .crane State.takeDone)

/-- PICK_FAILED (R70). -/
def execPickFailed (src : Nat) (reason : PickReason) (s : State) : Next :=
  .next (s.admission src 3 .crane (State.takePickFailed reason))

/-- AUDIT_RESULT (R72). -/
def execAuditResult (src : Nat) (r : Reading) (s : State) : Next :=
  .next (s.admission src 4 .crane (State.takeAuditResult r))

/-- STOPPED (R161). -/
def execStopped (src : Nat) (p : Phase) (load forks : Bool) (s : State) : Next :=
  .next (s.admission src 5 .crane (State.takeStopped p load forks))

/-- PARKED (R78). -/
def execParked (src : Nat) (r : Reading) (s : State) : Next := .next (s.admission src 6 .crane (State.takeParked r))

/-- CRANE_FAULT (R76). -/
def execCraneFault (src : Nat) (s : State) : Next := .next (s.admission src 7 .crane State.takeCraneFault)

end Sys2Proof.Machine
end

