-- ==== Sys2Proof/Machine/Orders.lean ====
section
/-! DEFINITION. What every order passes through: the circulation port, which takes no order while the reply queue is full
or a RESTART is waiting (R187, R199), the kind numbers of the orders (R186), the checks of R187, and the reply. -/
namespace Sys2Proof.Machine

/-- The orders, in the order of Table 11.4. -/
inductive OrderKind where
  | requestItem
  | withdrawRequest
  | confirmLoan
  | cancelLoan
  | callBin
  | moveBin
  | auditBin
  | releaseBin
  | aisleOut
  | aisleIn
  | shutZone
  | restoreZone
  | ackFault
  | loadRecord
  | readRecord
  | closeCommissioning
  | reopenCommissioning
  | queryStatus
  | readIdentity
  | restart
  deriving DecidableEq, Repr

/-- The kind number of an order: kinds count from 1 in the order of Table 11.4 (R186). -/
def OrderKind.number : OrderKind → Nat
  | .requestItem => 1
  | .withdrawRequest => 2
  | .confirmLoan => 3
  | .cancelLoan => 4
  | .callBin => 5
  | .moveBin => 6
  | .auditBin => 7
  | .releaseBin => 8
  | .aisleOut => 9
  | .aisleIn => 10
  | .shutZone => 11
  | .restoreZone => 12
  | .ackFault => 13
  | .loadRecord => 14
  | .readRecord => 15
  | .closeCommissioning => 16
  | .reopenCommissioning => 17
  | .queryStatus => 18
  | .readIdentity => 19
  | .restart => 20

/-- Every order, in the order of Table 11.4. -/
def OrderKind.all : List OrderKind :=
  [.requestItem, .withdrawRequest, .confirmLoan, .cancelLoan, .callBin, .moveBin, .auditBin, .releaseBin, .aisleOut, .aisleIn
    , .shutZone, .restoreZone, .ackFault, .loadRecord, .readRecord, .closeCommissioning, .reopenCommissioning, .queryStatus
    , .readIdentity, .restart]

/-- The order that a kind number names, if any (R187, check 1). -/
def OrderKind.ofNumber (k : Nat) : Option OrderKind := OrderKind.all.find? fun o => decide (o.number = k)

/-- The orders that are taken in HALTED (R183, R187 check 3). -/
def OrderKind.takenInHalted : OrderKind → Bool
  | .queryStatus | .readRecord | .readIdentity | .restart => true
  | _ => false

/-- The orders of wing work, refused in COMMISSIONING (R187 check 4). -/
def OrderKind.wingWork : OrderKind → Bool
  | .requestItem | .withdrawRequest | .confirmLoan | .cancelLoan | .callBin | .moveBin | .auditBin | .releaseBin
  | .aisleOut | .aisleIn | .shutZone | .restoreZone => true
  | _ => false

/-- What an order's own rule decides. -/
inductive Verdict where
  | accept (s : State) (r : Result)
  | refuse (c : RefusalCode) (detail : Nat)
  deriving DecidableEq, Repr

/-- Checks 2 to 4 of R187, in their order; check 1 is that of UNKNOWN_ORDER. `bodyOk` says that the body holds the fields
of the kind. -/
def State.orderRefusal (s : State) (k : OrderKind) (tag : Nat) (bodyOk : Bool) : Option RefusalCode :=
  if decide (tag = 0) || !bodyOk then some .malformed
  else if s.isHalted && !k.takenInHalted then some .halted
  else if !s.isInService && k.wingWork then some .notInService
  else none

/-- A refused order leaves all state unchanged but for its reply (R187). -/
def State.refuseOrder (s : State) (tag : Nat) (c : RefusalCode) (detail : Nat) : State :=
  s.reply { tag := tag, refusal := some c, detail := detail, result := .empty }

/-- An accepted order's reply, queued when its effect is made (R187). -/
def State.acceptOrder (s : State) (tag : Nat) (r : Result) : State :=
  s.reply { tag := tag, refusal := none, detail := 0, result := r }

/-- The reply that a verdict gives. -/
def State.answer (s : State) (tag : Nat) (v : Verdict) : State :=
  match v with
  | .accept s' r => s'.acceptOrder tag r
  | .refuse c d => s.refuseOrder tag c d

/-- Judges an order: by R187 first, then by its own rule. -/
def State.judgeOrder (s : State) (k : OrderKind) (tag : Nat) (bodyOk : Bool) (rule : State → Verdict) : State :=
  match s.orderRefusal k tag bodyOk with
  | some c => s.refuseOrder tag c 0
  | none => s.answer tag (rule s)

/-- The circulation port takes no new order while the reply queue holds 8 (R187), or until a RESTART's restart has taken
effect (R199). -/
def State.portShut (s : State) : Bool :=
  decide (Config.replyCapacity ≤ s.link.replies.length) || s.link.restartPending

/-- An ORDER frame arrives at the circulation port: it waits there while the port takes no order or another waits before
it (R187; log 8); otherwise it is taken. -/
def State.atPort (s : State) (i : Instr) (take : State → State) : State :=
  if s.portShut || !s.link.waiting.isEmpty then
    s.setLink { s.link with waiting := s.link.waiting ++ [i] }
  else take s

/-- Refuses with the first code of a list of checks, in their order; none when all pass. -/
def firstRefusal : List (Bool × RefusalCode) → Option RefusalCode
  | [] => none
  | (fails, c) :: rest => if fails then some c else firstRefusal rest

/-- Refuses with the code, or goes on. -/
def refuseOr (c : Option RefusalCode) (v : Verdict) : Verdict :=
  match c with
  | some c => .refuse c 0
  | none => v

end Sys2Proof.Machine
end

