-- ==== Sys2Proof/Machine/LendingOrders.lean ====
section
/-! DEFINITION. The lending orders (chapter 6): REQUEST_ITEM (R108 to R110), CONFIRM_LOAN and CANCEL_LOAN (R116, R117),
WITHDRAW_REQUEST (R118, R119); and the end of a confirm window (R115). -/
namespace Sys2Proof.Machine

/-! ### REQUEST_ITEM -/

/-- The three routes of R110. -/
inductive Route where
  | join
  | newJob
  | followOn
  deriving DecidableEq, Repr

/-- The route of a request or return at a station, judged on the bin as it stands (R110, R128). -/
def routeOf (b : Bin) (st : Nat) : Route :=
  if b.trip = some st then .join else if b.state = .stored then .newJob else .followOn

/-- The aisle's queue holds 32 or more queued jobs (R57). -/
def State.queueFull (s : State) (a : Nat) : Bool :=
  match s.aisles.look a with
  | none => false
  | some x => decide (Config.queueLimit ≤ x.queue.length)

/-- Checks 4 to 9 of R109, for an item whose home bin has the record `b`. -/
def State.requestBinRefusal (s : State) (x : Station) (st : Nat) (b : Bin) : Option RefusalCode :=
  firstRefusal
    [ (!decide (b.home.aisle ∈ x.loaded.linked), .notReachable)
    , (decide (b.state = .missing), .binMissing)
    , (decide (b.state = .inDoubt), .binInDoubt)
    , (decide (Config.requestCapacity ≤ s.requests.length), .listFull)
    , (decide (routeOf b st = .followOn) && b.next.isSome && !decide (b.next = some st), .binBusy)
    , (decide (routeOf b st = .newJob) && s.queueFull b.home.aisle, .queueFull) ]

/-- The checks of R109 on one item, in their order. -/
def State.requestRefusal (s : State) (st item : Nat) : Option RefusalCode :=
  if !itemNumberInRange item then some .unknownItem
  else
    match s.items.look item with
    | none => some .unknownItem
    | some i =>
      if i.state ≠ .shelved then some .itemNotShelved
      else if !within 1 4 st then some .badStation
      else
        match s.stations.look st with
        | none => some .badStation
        | some x =>
          if !x.loaded.lending then some .badStation
          else
            match i.home.bind s.bins.look with
            | none => some .notReachable
            | some b => s.requestBinRefusal x st b

/-- The state of a request on the join route (R110). -/
def State.joinState (s : State) (st n : Nat) : RequestState :=
  if s.presentedBin st = some n then .presented
  else if s.laneOf n = some st then .atStation
  else .awaitingBin

/-- The state of a new request (R110). -/
def State.newRequestState (s : State) (st n : Nat) (b : Bin) : RequestState :=
  match routeOf b st with
  | .join => s.joinState st n
  | .newJob | .followOn => .awaitingBin

/-- The bin's travel for a new request (R110), once its record stands in the list. On the join route a request PRESENTED
at once gets its REQUEST_READY, and PRESENT is sent again (R112). -/
def State.travelFor (s : State) (st n : Nat) (b : Bin) (r : Request) : State :=
  match routeOf b st with
  | .join => if r.state = .presented then (s.readyOne st r).offerPresent st else s
  | .newJob => (s.callBin n st .request).lookAll
  | .followOn =>
    (s.modBin n fun b => { b with next := some (b.next.getD st) }).reportRequest .requestDelayed r (some (.number st))

/-- The record of a newly taken item (Table 6.1). -/
def State.newRequest (s : State) (order st item n : Nat) (b : Bin) : Request :=
  { tag := s.requestTag, order := order, item := item, station := st, state := s.newRequestState st n b, window := none }

/-- An item that passes R109 is taken (R110). -/
def State.takeItem (s : State) (order st item : Nat) : State :=
  match s.homeOf item with
  | none => s
  | some n =>
    match s.bins.look n with
    | none => s
    | some b =>
      let r := s.newRequest order st item n b
      let s1 := (s.modItem item fun i => { i with state := .requested }).setNextRequest (tagAfter s.requestTag)
      (s1.setRequests (s1.requests ++ [r])).travelFor st n b r

/-- One item of a REQUEST_ITEM, judged on the records as the items before it have left them (R108). -/
def requestOne (order st : Nat) (acc : State × List (Option RefusalCode × Nat)) (item : Nat) :
    State × List (Option RefusalCode × Nat) :=
  match acc.1.requestRefusal st item with
  | some c => (acc.1, acc.2 ++ [(some c, 0)])
  | none => (acc.1.takeItem order st item, acc.2 ++ [(none, acc.1.requestTag)])

/-- R108, past the checks of R187: the outcomes in the order in which the items are named. -/
def State.requestItems (order st : Nat) (items : List Nat) (s : State) : Verdict :=
  let r := items.foldl (requestOne order st) (s, [])
  .accept r.1 (.outcomes r.2)

/-- REQUEST_ITEM (R108): an order that names no item or more than 8 is MALFORMED. -/
def orderRequestItem (tag st : Nat) (items : List Nat) (s : State) : State :=
  s.judgeOrder .requestItem tag (within 1 8 items.length) (State.requestItems tag st items)

/-! ### The loan decision -/

/-- The checks of R116 in their order. -/
def State.loanRefusal (s : State) (item reference : Nat) : Option RefusalCode :=
  if !itemNumberInRange item || !tagInRange reference then some .badField
  else
    match s.items.look item with
    | none => some .unknownItem
    | some i =>
      if decide (i.state = .held) || decide (i.state = .lent) then some .tooLate
      else if i.state ≠ .picked then some .noSuchRequest
      else if s.requests.any fun r => decide (r.item = item) && decide (r.tag = reference) then none
      else some .noSuchRequest

/-- Removes the request of an item, with its confirm window. -/
def State.endRequest (s : State) (item : Nat) : State := s.setRequests (s.requests.filter fun r => !decide (r.item = item))

/-- The loan is made (R116): the item becomes LENT, its home bin's reserved falls by the thickness, and the request is
removed. -/
def State.lend (s : State) (item : Nat) : State :=
  let s1 := match s.homeOf item with
    | none => s
    | some n => s.modBin n fun b => b.release (s.thicknessOf item)
  (s1.modItem item fun i => { i with state := .lent }).endRequest item

/-- The loan is not made (R117, R115): the item becomes HELD with its reservation, and the request is removed. -/
def State.withhold (s : State) (item : Nat) : State :=
  (s.modItem item fun i => { i with state := .held }).endRequest item

/-- CONFIRM_LOAN (R116). -/
def orderConfirmLoan (tag item reference : Nat) (s : State) : State :=
  s.judgeOrder .confirmLoan tag true fun s => refuseOr (s.loanRefusal item reference) (.accept (s.lend item) .empty)

/-- CANCEL_LOAN (R117). -/
def orderCancelLoan (tag item reference : Nat) (s : State) : State :=
  s.judgeOrder .cancelLoan tag true fun s => refuseOr (s.loanRefusal item reference) (.accept (s.withhold item) .empty)

/-! ### WITHDRAW_REQUEST -/

/-- The request of a tag. -/
def State.requestOf (s : State) (t : Nat) : Option Request := s.requests.find? fun r => decide (r.tag = t)

/-- The bin still needs to come to the station (R119): another request, a return entry, or a RETRIEVE with purpose CALL
stands on it for that station. -/
def State.stillNeeded (s : State) (n st : Nat) : Bool :=
  s.requests.any (s.standsFor n st) || s.awaitedAt n st
    || s.aisles.any fun e => e.2.jobs.any fun j => j.names n && j.boundFor st && decide (j.purpose = some .call)

/-- The RETRIEVE for the station that names the bin. -/
def servesTrip (n st : Nat) (j : Job) : Bool := j.names n && j.boundFor st

/-- The aisle in whose queue a RETRIEVE for the station names the bin. -/
def State.queuedFor (s : State) (n st : Nat) : Option Nat :=
  (s.aisles.find? fun e => e.2.queue.any (servesTrip n st)).map (·.1)

/-- The aisle whose crane holds staged a RETRIEVE for the station that names the bin. -/
def State.stagedFor (s : State) (n st : Nat) : Option Nat :=
  (s.aisles.find? fun e => e.2.crane.staged.any (servesTrip n st)).map (·.1)

/-- A staged job is dropped with UNSTAGE rather than returned to its queue (R64, R92). -/
def State.dropStaged (s : State) (a : Nat) : State :=
  match s.aisles.look a with
  | none => s
  | some x =>
    match x.crane.staged with
    | none => s
    | some j => (s.modCrane a fun c => { c with staged := none }).sendCrane a (.unstage j.tag)

/-- The bin's travel after a request on it for the station has been withdrawn (R119). -/
def State.settleTrip (s : State) (n st : Nat) : State :=
  if s.stillNeeded n st then s
  else
    match s.queuedFor n st with
    | some a =>
      ((s.modAisle a fun x => { x with queue := x.queue.filter fun j => !servesTrip n st j }).uncallBin n).settleWing
    | none =>
      match s.stagedFor n st with
      | some a => ((s.dropStaged a).uncallBin n).settleWing
      | none => s.modBin n fun b => if b.next = some st then { b with next := none } else b

/-- The request is withdrawn (R118): its record is removed, its item becomes SHELVED, PRESENT is sent again if it was
PRESENTED, and the bin's travel is settled. -/
def State.withdraw (s : State) (r : Request) : State :=
  let s1 := (s.endRequest r.item).modItem r.item fun i => { i with state := .shelved }
  let s2 := if r.state = .presented then s1.offerPresent r.station else s1
  match s.homeOf r.item with
  | none => s2
  | some n => s2.settleTrip n r.station

/-- WITHDRAW_REQUEST (R118). -/
def orderWithdrawRequest (tag request : Nat) (s : State) : State :=
  s.judgeOrder .withdrawRequest tag true fun s =>
    if !tagInRange request then .refuse .badField 0
    else
      match s.requestOf request with
      | none => .refuse .noSuchRequest 0
      | some r => if r.state = .picked then .refuse .alreadyPicked 0 else .accept (s.withdraw r) .empty

end Sys2Proof.Machine
end

