-- ==== Sys2Proof/Machine/ZoneTelegrams.lean ====
section
/-! DEFINITION. The shutter telegrams CLOSED, OPENED, JAMMED (R166, Table 9.3) and the concentrator telegrams BEAT (R143),
PREALARM (R147), ALARM (R146), CLEAR and TROUBLE (R145). -/
namespace Sys2Proof.Machine

/-! ### Shutters -/

/-- CLOSED from a shutter (R166): in a RESTORING zone OPEN is sent again. -/
def State.takeClosed (s : State) (n : Nat) : State :=
  match s.shutters.look n with
  | none => s
  | some h =>
    (if s.zoneState h.zone = some .restoring then
        (s.modShutter n fun h => { h with state := .opening, wait := none }).sendShutter n .openShutter
      else s.modShutter n fun h => { h with state := .closed, wait := none }).settleWing

/-- A SECURED zone that loses its condition returns to SHUTDOWN (R167). -/
def State.unsecure (s : State) (z : Nat) : State :=
  if s.zoneState z = some .secured then s.setZoneState z .shutdown else s

/-- OPENED from a shutter (R166): in a zone that is SHUTDOWN or SECURED a close is started again. -/
def State.takeOpened (s : State) (n : Nat) : State :=
  match s.shutters.look n with
  | none => s
  | some h =>
    let s1 := s.modShutter n fun h => { h with state := .opened, wait := none }
    (match s.zoneState h.zone with
     | some .shutdown | some .secured => (s1.unsecure h.zone).startClose n
     | _ => s1).settleWing

/-- JAMMED from a shutter (R166): from JAMMED nothing; otherwise the state is set and the recoverable major fault raised. -/
def State.takeJammed (s : State) (n : Nat) : State :=
  match s.shutters.look n with
  | none => s
  | some h =>
    if h.state = .jammed then s
    else
      (((s.modShutter n fun h => { h with state := .jammed, wait := none }).unsecure h.zone).raise
        { kind := .shutterJammed, subject := .zone h.zone, jobTag := none, bin := none, detail := some n
          recoverable := true }).settleWing

/-! ### Supervision -/

/-- Changes a concentrator's health; a change to HEALTHY, TOKEN_FAULT or SILENT posts SUPERVISION (R142). -/
def State.setHealth (s : State) (n : Nat) (c : Concentrator) (v : Health) : State :=
  let s1 := s.modConcentrator n fun c => { c with health := v }
  if c.health = v then s1 else s1.report .supervision (.zone c.zone) (some (.number n))

/-- The health that a token gives (R143). -/
def healthAfter (last : Option Nat) (token : Nat) : Health :=
  match last with
  | none => .healthy
  | some t => if token = (t + 1) % 256 then .healthy else .tokenFault

/-- What follows a change that may have taken zone `z` from NORMAL to ALERT: on the entry the ineligible staged jobs are
withdrawn and the Dispatcher looks again (R150). -/
def State.afterAlert (before after : State) (z : Nat) : State :=
  if after.zoneState z = before.zoneState z then after else after.settleWing

/-- BEAT from a concentrator (R143). DESIGN CHOICE: SUPERVISION is posted with the change of health, before the ZONE_STATE of an
ALERT that the re-formed cause set brings (log 42). -/
def State.takeBeat (token : Nat) (s : State) (n : Nat) : State :=
  match s.concentrators.look n with
  | none => s
  | some c =>
    let s1 := (s.setHealth n c (healthAfter c.token token)).modConcentrator n fun c =>
      { c with token := some token, supervision := some c.period }
    s.afterAlert (s1.reformCauses c.zone) c.zone

/-! ### Detectors -/

/-- A detector telegram with a number outside 1..32 is dropped, and FIELD_PROTOCOL is raised with the zone as subject
(R145). -/
def State.withDetector (s : State) (n d : Nat) (take : State → Concentrator → State) : State :=
  match s.concentrators.look n with
  | none => s
  | some c => if within 1 32 d then take s c else s.fieldProtocol (.zone c.zone) none

/-- Sets a detector's entry (R145). -/
def State.setDetector (s : State) (n d : Nat) (v : Condition) : State :=
  s.modConcentrator n fun c => { c with detectors := c.detectors.put d v }

/-- Another detector of the zone has its entry in PRE (R147). -/
def State.otherPre (s : State) (z n d : Nat) : Bool :=
  s.concentrators.any fun e =>
    decide (e.2.zone = z) &&
      e.2.detectors.any fun m => decide (m.2 = .pre) && !(decide (e.1 = n) && decide (m.1 = d))

/-- A fire in a zone: it enters SHUTDOWN from NORMAL, ALERT or RESTORING, and keeps its state otherwise (R146, R147). The
cause set is re-formed without passing through ALERT. -/
def State.fireIn (s : State) (z : Nat) : State := ((s.formCauses z).enterShutdown z).settleWing

/-- PREALARM from a concentrator (R145, R147): an entry that becomes PRE from absent or from TROUBLE is judged for
coincidence. -/
def State.takePrealarm (d : Nat) (s : State) (n : Nat) : State :=
  s.withDetector n d fun s c =>
    match c.detectors.look d with
    | some .alarm | some .pre => s
    | _ =>
      let s1 := s.setDetector n d .pre
      if s1.otherPre c.zone n d then s1.fireIn c.zone else s.afterAlert (s1.reformCauses c.zone) c.zone

/-- ALARM from a concentrator (R146). -/
def State.takeAlarm (d : Nat) (s : State) (n : Nat) : State :=
  s.withDetector n d fun s c => (s.setDetector n d .alarm).fireIn c.zone

/-- CLEAR from a concentrator (R145). -/
def State.takeClear (d : Nat) (s : State) (n : Nat) : State :=
  s.withDetector n d fun s c =>
    match c.detectors.look d with
    | none => s
    | some _ =>
      let s1 := s.modConcentrator n fun c => { c with detectors := c.detectors.remove d }
      s.afterAlert (s1.reformCauses c.zone) c.zone

/-- TROUBLE from a concentrator (R145): an entry in ALARM is kept. -/
def State.takeTrouble (d : Nat) (s : State) (n : Nat) : State :=
  s.withDetector n d fun s c =>
    match c.detectors.look d with
    | some .alarm => s
    | _ => s.afterAlert ((s.setDetector n d .trouble).reformCauses c.zone) c.zone

/-! ### The commands -/

/-- CLOSED (R166). -/
def execClosed (src : Nat) (s : State) : Next := .next (s.admission src 17 .shutter State.takeClosed)

/-- OPENED (R166). -/
def execOpened (src : Nat) (s : State) : Next := .next (s.admission src 18 .shutter State.takeOpened)

/-- JAMMED (R166). -/
def execJammed (src : Nat) (s : State) : Next := .next (s.admission src 19 .shutter State.takeJammed)

/-- BEAT (R143). -/
def execBeat (src token : Nat) (s : State) : Next := .next (s.admission src 20 .concentrator (State.takeBeat token))

/-- PREALARM (R147). -/
def execPrealarm (src d : Nat) (s : State) : Next := .next (s.admission src 21 .concentrator (State.takePrealarm d))

/-- ALARM (R146). -/
def execAlarm (src d : Nat) (s : State) : Next := .next (s.admission src 22 .concentrator (State.takeAlarm d))

/-- CLEAR (R145). -/
def execClear (src d : Nat) (s : State) : Next := .next (s.admission src 23 .concentrator (State.takeClear d))

/-- TROUBLE (R145). -/
def execTrouble (src d : Nat) (s : State) : Next := .next (s.admission src 24 .concentrator (State.takeTrouble d))

end Sys2Proof.Machine
end

