-- ==== Sys2Proof/Machine/Expiries.lean ====
section
/-! DEFINITION. The expiries: crane deadline (R74), in-transit deadline (R184, R89), confirm window (R115), alert window
(R151), supervision (R144), shutter wait (R165), stop wait (R162). An expiry is taken when its timer has run out: one that has
been disarmed, paused, extended or armed again since has no expiry, and no timer runs in COMMISSIONING (R44, R45, R144, R196;
log 3). -/
namespace Sys2Proof.Machine

/-- Timers run in IN_SERVICE alone (R196). -/
def State.whileInService (s : State) (f : State → State) : State := if s.isInService then f s else s

/-- The running deadline of a crane that is BUSY, PARKING or STOPPING has run out (R44, R74). -/
def Crane.overdue (c : Crane) : Bool :=
  (match c.state with
   | .busy | .parking | .stopping => true
   | .idle | .stopped | .faulted | .outOfService => false)
    && c.deadline.any Deadline.out

/-- Expiry of a crane deadline (R74): CRANE_OVERDUE. -/
def State.craneDeadlineExpires (s : State) (a : Nat) : State :=
  match s.aisles.look a with
  | none => s
  | some x => if x.crane.overdue then (s.loseCrane a .craneOverdue).settleWing else s

/-- A bin joins the station's overdue list, a set in ascending order (R89). -/
def insertBin (n : Nat) (l : List Nat) : List Nat := (l.filter (· < n)) ++ n :: l.filter (n < ·)

/-- The settlement of R89: the entry is removed, the trip station cleared, the bin becomes IN_DOUBT and joins the station's
overdue list. -/
def State.overrun (s : State) (st n : Nat) : State :=
  (((s.removeTransit n st).clearTrip n).enterDoubt n).modStation st fun x => { x with overdue := insertBin n x.overdue }

/-- Expiry of an in-transit deadline (R184): CONVEYOR_OVERDUE, not recoverable. A paused deadline does not expire
(R44). -/
def State.inTransitExpires (s : State) (st n : Nat) : State :=
  match s.stations.look st with
  | none => s
  | some x =>
    if x.inTransit.any fun t => decide (t.bin = n) && t.deadline.out then
      ((s.overrun st n).raise
        { kind := .conveyorOverdue, subject := .station st, jobTag := none, bin := some n, detail := none
          recoverable := false }).settleWing
    else s

/-- Expiry of a confirm window (R115): the item becomes HELD, the request is removed, and LOAN_EXPIRED is posted. -/
def State.confirmExpires (s : State) (t : Nat) : State :=
  match s.requestOf t with
  | none => s
  | some r => if r.window.any runsOut then (s.withhold r.item).reportRequest .loanExpired r none else s

/-- Every concentrator of the zone is HEALTHY (R151). -/
def State.allHealthy (s : State) (z : Nat) : Bool := (s.zoneConcentrators z).all fun c => decide (c.health = .healthy)

/-- Expiry of an alert window (R151): the zone becomes NORMAL when it is clear and healthy; otherwise the window is armed
again. -/
def State.alertExpires (s : State) (z : Nat) : State :=
  match s.zones.look z with
  | none => s
  | some x =>
    if decide (x.state = .alert) && x.windowLeft.any runsOut then
      if x.causes.isEmpty && s.allHealthy z then
        ((s.modZone z fun x => { x with windowLeft := none }).setZoneState z .normal).settleWing
      else s.modZone z fun x => { x with windowLeft := some x.window }
    else s

/-- Expiry of a concentrator's supervision (R144): SILENT. DESIGN CHOICE: SUPERVISION is posted before the ZONE_STATE of an ALERT
that SILENT brings (log 42). -/
def State.supervisionExpires (s : State) (n : Nat) : State :=
  match s.concentrators.look n with
  | none => s
  | some c =>
    if c.supervision.any runsOut then
      let s1 := (s.setHealth n c .silent).modConcentrator n fun c => { c with supervision := none }
      s.afterAlert (s1.reformCauses c.zone) c.zone
    else s

/-- The bound station's presented bin becomes LOCKED_OUT in its place, and its presentation ends (R165). -/
def State.lockOut (s : State) (st : Nat) : State :=
  match s.presentedBin st with
  | none => s
  | some n => (s.endPresentation st).setBinState n .lockedOut

/-- Expiry of a shutter wait (R165): CLOSE is sent with the force mark. -/
def State.shutterWaitExpires (s : State) (n : Nat) : State :=
  match s.shutters.look n with
  | none => s
  | some h =>
    if decide (h.state = .waitingMouth) && h.wait.any runsOut then
      let s1 := (s.modShutter n fun h => { h with state := .closing, wait := none }).sendShutter n (.closeShutter true)
      match s.boundStation n with
      | none => s1
      | some st => s1.lockOut st
    else s

/-- Expiry of a crane's stop wait (R162): CRANE_NO_STOP. -/
def State.stopWaitExpires (s : State) (a : Nat) : State :=
  match s.aisles.look a with
  | none => s
  | some x =>
    if decide (x.crane.state = .stopping) && x.crane.stopWait.any runsOut then (s.loseCrane a .craneNoStop).settleWing else s

/-! ### The commands -/

/-- CRANE_DEADLINE_EXPIRY (R74). -/
def execCraneDeadlineExpiry (a : Nat) (s : State) : Next := .next (s.whileInService (·.craneDeadlineExpires a))

/-- IN_TRANSIT_DEADLINE_EXPIRY (R184). -/
def execInTransitDeadlineExpiry (st n : Nat) (s : State) : Next := .next (s.whileInService (·.inTransitExpires st n))

/-- CONFIRM_WINDOW_EXPIRY (R115). -/
def execConfirmWindowExpiry (t : Nat) (s : State) : Next := .next (s.whileInService (·.confirmExpires t))

/-- ALERT_WINDOW_EXPIRY (R151). -/
def execAlertWindowExpiry (z : Nat) (s : State) : Next := .next (s.whileInService (·.alertExpires z))

/-- SUPERVISION_EXPIRY (R144). -/
def execSupervisionExpiry (n : Nat) (s : State) : Next := .next (s.whileInService (·.supervisionExpires n))

/-- SHUTTER_WAIT_EXPIRY (R165). -/
def execShutterWaitExpiry (n : Nat) (s : State) : Next := .next (s.whileInService (·.shutterWaitExpires n))

/-- STOP_WAIT_EXPIRY (R162). -/
def execStopWaitExpiry (a : Nat) (s : State) : Next := .next (s.whileInService (·.stopWaitExpires a))

end Sys2Proof.Machine
end

