-- ==== Sys2Proof/Machine/AisleOrders.lean ====
section
/-! DEFINITION. The orders on aisles, zones and faults: AISLE_OUT (R80), AISLE_IN (R82), SHUT_ZONE (R154), RESTORE_ZONE
(R169), ACK_FAULT (R180). -/
namespace Sys2Proof.Machine

/-- A taken AISLE_OUT of an aisle with the record `x` (R80). A staged job of a DRAINING aisle is withdrawn with UNSTAGE,
because it is no longer eligible (R61, R64). -/
def State.aisleOut (s : State) (a : Nat) (x : Aisle) : State :=
  match x.service with
  | .draining | .outOfService => s
  | .inService =>
    if x.crane.free then
      ((s.dropQueuedPark a).modCrane a fun c => { c with stopWait := none }).takeOut a |>.settleWing
    else (s.setService a .draining).settleWing

/-- AISLE_OUT (R80). -/
def orderAisleOut (tag a : Nat) (s : State) : State :=
  s.judgeOrder .aisleOut tag true fun s =>
    if !within 1 6 a then .refuse .badField 0
    else
      match s.aisles.look a with
      | none => .refuse .badField 0
      | some x => .accept (s.aisleOut a x) .empty

/-- A taken AISLE_IN (R82): the aisle becomes IN_SERVICE, and its crane is parked, or STOPPED in a zone that is SHUTDOWN or
SECURED. -/
def State.aisleIn (s : State) (a : Nat) (x : Aisle) : State :=
  let s1 := (s.setService a .inService).modCrane a fun c => { c with position := none }
  (match s.zoneState x.geom.zone with
   | some .shutdown | some .secured => (s1.modCrane a fun c => { c with state := .stopped }).sendCrane a .stop
   | _ => s1.createPark a).settleWing

/-- AISLE_IN (R82). -/
def orderAisleIn (tag a : Nat) (s : State) : State :=
  s.judgeOrder .aisleIn tag true fun s =>
    if !within 1 6 a then .refuse .badField 0
    else
      match s.aisles.look a with
      | none => .refuse .badField 0
      | some x => if x.service ≠ .outOfService then .refuse .wingBusy 0 else .accept (s.aisleIn a x) .empty

/-- SHUT_ZONE (R154). -/
def orderShutZone (tag z : Nat) (s : State) : State :=
  s.judgeOrder .shutZone tag true fun s =>
    if !within 1 8 z then .refuse .badField 0
    else
      match s.zoneState z with
      | none => .refuse .badField 0
      | some .shutdown | some .secured => .accept s .empty
      | some _ => .accept (s.enterShutdown z).settleWing .empty

/-- A detector of the zone has an entry in its concentrator's detector map (R169, check 5). -/
def State.detectorStands (s : State) (z : Nat) : Bool := (s.zoneConcentrators z).any fun c => !c.detectors.isEmpty

/-- Checks 4 and 5 of R169. `counting` is a force mark taken while the key line is active. -/
def State.restoreRefusal (s : State) (z : Nat) (v : ZoneState) (counting : Bool) : Option RefusalCode :=
  firstRefusal
    [ (match v with
       | .normal | .alert | .restoring => true
       | .shutdown => !counting
       | .secured => false, .notSecured)
    , (!counting && (s.detectorStands z || s.firePanel), .firePersists) ]

/-- RESTORE_ZONE (R169). -/
def orderRestoreZone (tag z : Nat) (force key : Bool) (s : State) : State :=
  (s.setKeyLine key).judgeOrder .restoreZone tag true fun s =>
    if !within 1 8 z then .refuse .badField 0
    else
      match s.zoneState z with
      | none => .refuse .badField 0
      | some v =>
        refuseOr (s.restoreRefusal z v (force && s.keyLine)) (.accept (s.enterRestoring z).settleWing .empty)

/-- The first-fault record is removed and the fault state becomes CLEAR (R180). -/
def FaultUnit.acknowledge (f : FaultUnit) : FaultUnit := { f with state := .clear, first := none }

/-- ACK_FAULT (R180). -/
def orderAckFault (tag fault : Nat) (s : State) : State :=
  s.judgeOrder .ackFault tag true fun s =>
    refuseOr
      (firstRefusal
        [ (!within 1 Config.maxFaultTag fault, .badField)
        , (decide (s.faults.state = .clear), .noFault)
        , (!decide (s.faults.first.map (·.tag) = some fault), .tagMismatch) ])
      (.accept (s.setFaults s.faults.acknowledge) .empty)

end Sys2Proof.Machine
end

