-- ==== Sys2Proof/Machine/Commissioning.lean ====
section
/-! DEFINITION. CLOSE_COMMISSIONING (R197, R156, R60), REOPEN_COMMISSIONING (R198, R155), RESTART (R199), and the order
frames that spell no order of another row (R187, R194). -/
namespace Sys2Proof.Machine

/-! ### The checks of R197 -/

/-- Check 1: every bin's home slot is in bounds, and no slot is the home slot of two bins. -/
def State.homesGood (s : State) : Bool :=
  s.bins.all fun e =>
    s.slotInBounds e.2.home && s.bins.all fun f => decide (e.1 = f.1) || !decide (e.2.home = f.2.home)

/-- The zone has a Zone Table record. -/
def State.zoneDefined (s : State) (z : Nat) : Bool := (s.zones.look z).isSome

/-- The station shutter, where present, names a defined shutter of the station's own zone (R139). -/
def State.stationShutterGood (s : State) (f : StationFields) : Bool :=
  match f.shutter with
  | none => true
  | some n =>
    match s.shutters.look n with
    | none => false
    | some h => decide (h.zone = f.zone)

/-- Check 2: every member names a zone that has a record, and every station shutter is good. -/
def State.zonesGood (s : State) : Bool :=
  (s.aisles.all fun e => s.zoneDefined e.2.geom.zone) && (s.stations.all fun e => s.zoneDefined e.2.loaded.zone)
    && (s.concentrators.all fun e => s.zoneDefined e.2.zone) && (s.shutters.all fun e => s.zoneDefined e.2.zone)
    && s.stations.all fun e => s.stationShutterGood e.2.loaded

/-- Check 3: every station's linked aisle set is non-empty. -/
def State.linksGood (s : State) : Bool := s.stations.all fun e => !e.2.loaded.linked.isEmpty

/-- Check 4: every zone has at least one concentrator. -/
def State.concentratorsGood (s : State) : Bool :=
  s.zones.all fun e => s.concentrators.any fun c => decide (c.2.zone = e.1)

/-- The record that a device names is defined (R197, check 5). -/
def State.deviceDefined (s : State) (d : Device) : Bool :=
  match d.role with
  | .crane => (s.aisles.look d.index).isSome
  | .station => (s.stations.look d.index).isSome
  | .shutter => (s.shutters.look d.index).isSome
  | .concentrator => (s.concentrators.look d.index).isSome

/-- An address holds an entry with a role and number. -/
def State.entryIs (s : State) (address : Nat) (r : Role) (n : Nat) : Bool :=
  decide (s.addresses.look address = some { role := r, index := n })

/-- Check 5: every entry names a defined record, every record's field address holds its own entry, and every aisle has a
CRANE entry. -/
def State.addressesGood (s : State) : Bool :=
  (s.addresses.all fun e => s.deviceDefined e.2)
    && (s.stations.all fun e => s.entryIs e.2.loaded.address .station e.1)
    && (s.concentrators.all fun e => s.entryIs e.2.address .concentrator e.1)
    && (s.shutters.all fun e => s.entryIs e.2.address .shutter e.1)
    && s.aisles.all fun e => (s.craneAddress e.1).isSome

/-- Check 6: every bin has fill plus reserved no greater than its capacity. -/
def State.figuresGood (s : State) : Bool := s.bins.all fun e => decide (e.2.fill + e.2.reserved ≤ e.2.capacity)

/-- The number of the first check of R197 that fails; none when all pass. -/
def State.failingCheck (s : State) : Option Nat :=
  if !s.homesGood then some 1
  else if !s.zonesGood then some 2
  else if !s.linksGood then some 3
  else if !s.concentratorsGood then some 4
  else if !s.addressesGood then some 5
  else if !s.figuresGood then some 6
  else none

/-! ### Closing -/

/-- A concentrator at the close (R156): UNHEARD, no last token, supervision armed with its period, map kept. -/
def Concentrator.commission (c : Concentrator) : Concentrator :=
  { c with health := .unheard, token := none, supervision := some c.period }

/-- A zone at the close (R156): START with the causes of its kept maps; ALERT with its window armed, or SHUTDOWN when the
fire panel mark is ASSERTED; ZONE_STATE is posted. -/
def State.commissionZone (s : State) (z : Nat) : State :=
  let v := if s.firePanel then ZoneState.shutdown else .alert
  (s.modZone z fun x =>
    { x with causes := s.causesOf z true, windowLeft := if s.firePanel then none else some x.window }).setZoneState z v

/-- A crane at the close (R60): of an aisle that is IN_SERVICE, in ALERT parked afresh, in SHUTDOWN STOPPED with STOP sent;
of an aisle that is OUT_OF_SERVICE, kept. -/
def State.commissionCrane (s : State) (a : Nat) : State :=
  match s.aisles.look a with
  | none => s
  | some x =>
    if x.service ≠ .inService then s
    else
      let s1 := s.modCrane a fun c => { c with position := none }
      match s.zoneState x.geom.zone with
      | some .shutdown => (s1.modCrane a fun c => { c with state := .stopped }).sendCrane a .stop
      | _ => s1.createPark a

/-- The entry actions of a zone that the close begins in SHUTDOWN (R156). -/
def State.commissionEntry (s : State) (z : Nat) : State :=
  if s.zoneState z = some .shutdown then s.entryActions z else s

/-- All checks of R197 pass: the mode becomes IN_SERVICE, zones and concentrators are set up by R156 and cranes by R60. -/
def State.commission (s : State) : State :=
  let s1 := s.setMode .inService
  let s2 := s1.setConcentrators (s1.concentrators.mapRecords fun _ c => c.commission)
  let s3 := s2.zones.numbers.foldl State.commissionZone s2
  let s4 := s3.aisles.numbers.foldl State.commissionCrane s3
  let s5 := s4.zones.numbers.foldl State.commissionEntry s4
  s5.settleWing

/-- CLOSE_COMMISSIONING (R197). -/
def orderCloseCommissioning (tag : Nat) (s : State) : State :=
  s.judgeOrder .closeCommissioning tag true fun s =>
    if s.isInService then .accept s .empty
    else
      match s.failingCheck with
      | some n => .refuse .checkFailed n
      | none => .accept s.commission .empty

/-! ### Reopening -/

/-- A bin is ON_CRANE, IN_TRANSIT, IN_LANE, LOCKED_OUT or HOMEBOUND (R198). -/
def BinState.inMotion : BinState → Bool
  | .onCrane | .inTransit | .inLane | .lockedOut | .homebound => true
  | .stored | .called | .missing | .inDoubt => false

/-- What R198 check 2 refuses WING_BUSY. -/
def State.wingBusy (s : State) : Bool :=
  (s.aisles.any fun e => !e.2.jobs.isEmpty) || !s.requests.isEmpty
    || (s.stations.any fun e => !e.2.returns.isEmpty || !e.2.lane.isEmpty || !e.2.inTransit.isEmpty)
    || (s.bins.any fun e => e.2.state.inMotion)
    || s.zones.any fun e => !e.2.state.isOpen

/-- A zone at the reopening (R155): NORMAL, no cause (log 19), window disarmed; ZONE_STATE for a zone that leaves ALERT. -/
def State.reopenZone (s : State) (z : Nat) : State :=
  match s.zones.look z with
  | none => s
  | some x =>
    let s1 := s.modZone z fun x => { x with causes := Causes.empty, windowLeft := none }
    if x.state = .normal then s1 else s1.setZoneState z .normal

/-- A concentrator at the reopening (R155): UNHEARD, no last token, supervision disarmed, map kept. -/
def Concentrator.reopen (c : Concentrator) : Concentrator :=
  { c with health := .unheard, token := none, supervision := none }

/-- A station at the reopening (R198): its overdue list is emptied and its hold mark cleared. -/
def Station.reopen (x : Station) : Station := { x with overdue := [], hold := false }

/-- A taken REOPEN_COMMISSIONING (R198, R155). -/
def State.reopen (s : State) : State :=
  let s1 := s.setMode .commissioning
  let s2 := s1.zones.numbers.foldl State.reopenZone s1
  let s3 := s2.setConcentrators (s2.concentrators.mapRecords fun _ c => c.reopen)
  s3.setStations (s3.stations.mapRecords fun _ x => x.reopen)

/-- REOPEN_COMMISSIONING (R198). -/
def orderReopenCommissioning (tag : Nat) (key : Bool) (s : State) : State :=
  (s.setKeyLine key).judgeOrder .reopenCommissioning tag true fun s =>
    if !s.isInService then .accept s .empty
    else
      refuseOr (firstRefusal [(!s.keyLine, .locked), (s.wingBusy, .wingBusy)]) (.accept s.reopen .empty)

/-! ### RESTART, and unreadable orders -/

/-- RESTART (R199): its reply is queued, and the restart waits until that reply has been sent. -/
def orderRestart (tag : Nat) (s : State) : State :=
  s.judgeOrder .restart tag true fun s => .accept (s.setLink { s.link with restartPending := true }) .empty

/-- An ORDER frame that spells no order of another row: a kind number that names no order is refused UNKNOWN_ORDER (R187,
check 1); a body that does not hold the fields of its kind is MALFORMED (check 2); a LOAD_RECORD of a table outside the
eleven is refused BAD_FIELD after the checks of R187 (R194). DESIGN CHOICE: a scope, role, class or load kind that
is no named value counts as a body without the fields of its kind, MALFORMED and not BAD_FIELD (log 40). -/
def orderUnknown (tag : Nat) (why : Unreadable) (s : State) : State :=
  match why with
  | .kind n =>
    match OrderKind.ofNumber n with
    | some _ => s.refuseOrder tag .malformed 0
    | none => s.refuseOrder tag .unknownOrder 0
  | .table n =>
    s.judgeOrder .loadRecord tag (!within 1 11 n) fun _ => .refuse .badField 0

end Sys2Proof.Machine
end

