-- ==== Sys2Proof/Machine/BinOrders.lean ====
section
/-! DEFINITION. The orders on single bins: CALL_BIN (R100), MOVE_BIN (R16), AUDIT_BIN (R17), RELEASE_BIN (R18). -/
namespace Sys2Proof.Machine

/-- A RETRIEVE for the station that names the bin takes purpose CALL, wherever it stands (R100, check 5). -/
def Job.markCall (n st : Nat) (j : Job) : Job := if servesTrip n st j then { j with purpose := some .call } else j

/-- The same for every job of an aisle: queued, staged, active or held in a suspension record. -/
def Aisle.markCall (n st : Nat) (x : Aisle) : Aisle :=
  { x with
    queue := x.queue.map (Job.markCall n st)
    crane := { x.crane with
      active := x.crane.active.map (Job.markCall n st)
      staged := x.crane.staged.map (Job.markCall n st)
      suspension := x.crane.suspension.map fun r => { r with job := r.job.markCall n st } } }

/-- The refusal that a bin which is not STORED gives (R14, R16, R32): BIN_MISSING, BIN_IN_DOUBT or BIN_BUSY. -/
def notStoredCode : BinState → Option RefusalCode
  | .stored => none
  | .missing => some .binMissing
  | .inDoubt => some .binInDoubt
  | .called | .onCrane | .inTransit | .inLane | .lockedOut | .homebound => some .binBusy

/-- Checks 4 to 8 of R100 on a bin of the Bin Map, and the call. -/
def State.callVerdict (s : State) (n st : Nat) (x : Station) (b : Bin) : Verdict :=
  if b.state = .missing then .refuse .binMissing 0
  else if b.state = .inDoubt then .refuse .binInDoubt 0
  else if b.trip = some st then .accept (s.setAisles (s.aisles.mapRecords fun _ x => x.markCall n st)) .empty
  else
    refuseOr
      (firstRefusal
        [ (!decide (b.state = .stored), .binBusy)
        , (!decide (b.home.aisle ∈ x.loaded.linked), .notReachable)
        , (s.queueFull b.home.aisle, .queueFull) ])
      (.accept (s.callBin n st .call).settleWing .empty)

/-- CALL_BIN (R100). -/
def orderCallBin (tag n st : Nat) (s : State) : State :=
  s.judgeOrder .callBin tag true fun s =>
    if !binNumberInRange n || !within 1 4 st then .refuse .badField 0
    else
      match s.stations.look st with
      | none => .refuse .badStation 0
      | some x =>
        match s.bins.look n with
        | none => .refuse .unknownBin 0
        | some b => s.callVerdict n st x b

/-- A taken MOVE_BIN (R16). -/
def State.moveBinTo (s : State) (n : Nat) (home new : Slot) : State :=
  (s.modBin n fun b => { b with pendingHome := some new, state := .called }).addJob home.aisle (transferJob n home new)

/-- MOVE_BIN (R16). -/
def orderMoveBin (tag n : Nat) (slot : SlotField) (s : State) : State :=
  s.judgeOrder .moveBin tag true fun s =>
    match slotOf slot with
    | none => .refuse .badField 0
    | some v =>
      match s.bins.look n with
      | none => .refuse .unknownBin 0
      | some b =>
        match notStoredCode b.state with
        | some c => .refuse c 0
        | none =>
          refuseOr
            (firstRefusal
              [ (!decide (v.aisle = b.home.aisle), .otherAisle)
              , (!s.slotInBounds v, .outOfBounds)
              , (s.slotTaken v, .slotTaken)
              , (s.queueFull b.home.aisle, .queueFull) ])
            (.accept (s.moveBinTo n b.home v).settleWing .empty)

/-- A taken AUDIT_BIN (R17): a STORED bin becomes CALLED; a MISSING or IN_DOUBT bin keeps its state. -/
def State.auditBin (s : State) (n : Nat) (b : Bin) : State :=
  (if b.state = .stored then s.modBin n fun b => { b with state := .called } else s).addJob b.home.aisle
    (auditJob n b.home)

/-- AUDIT_BIN (R17). -/
def orderAuditBin (tag n : Nat) (s : State) : State :=
  s.judgeOrder .auditBin tag true fun s =>
    match s.bins.look n with
    | none => .refuse .unknownBin 0
    | some b =>
      refuseOr
        (firstRefusal
          [ (!(decide (b.state = .stored) || decide (b.state = .missing) || decide (b.state = .inDoubt)), .binBusy)
          , (s.named n, .binBusy)
          , (s.inLane n, .binBusy)
          , (s.queueFull b.home.aisle, .queueFull) ])
        (.accept (s.auditBin n b).settleWing .empty)

/-- A taken RELEASE_BIN (R18): the bin becomes IN_LANE in its place, and is presented if it is the top of its lane. -/
def State.releaseBin (s : State) (n : Nat) : State :=
  let s1 := s.setBinState n .inLane
  match s1.laneOf n with
  | none => s1
  | some st => if s1.presentedBin st = some n then s1.presentTop st else s1

/-- RELEASE_BIN (R18). -/
def orderReleaseBin (tag n : Nat) (s : State) : State :=
  s.judgeOrder .releaseBin tag true fun s =>
    match s.bins.look n with
    | none => .refuse .unknownBin 0
    | some b =>
      refuseOr
        (firstRefusal
          [ (decide (b.state = .missing), .binMissing)
          , (decide (b.state = .inDoubt) && !s.inLane n, .binInDoubt)
          , (!(decide (b.state = .lockedOut) || decide (b.state = .inDoubt)), .binBusy)
          , (s.named n, .binBusy) ])
        (.accept (s.releaseBin n) .empty)

end Sys2Proof.Machine
end

