-- ==== Sys2Proof/Machine/Loads.lean ====
section
/-! DEFINITION. LOAD_RECORD (R194), one definition per table: the mode lock, then the table's own rule (R1, R5, R69, R84,
R138, R140, R141, R189, R192, R12 to R15, R31 to R34). -/
namespace Sys2Proof.Machine

/-- A table that is loaded in COMMISSIONING alone: in IN_SERVICE its loads are refused LOCKED (R194). -/
def State.lockedInService (s : State) (v : Verdict) : Verdict := if s.isInService then .refuse .locked 0 else v

/-- Refuses BAD_FIELD unless the fields are good. -/
def badFieldUnless (ok : Bool) (v : Verdict) : Verdict := if ok then v else .refuse .badField 0

/-! ### Geometry Table and Retry Offset Lists -/

/-- The crane record of a new aisle (R60). -/
def Crane.created : Crane :=
  { state := .parking, phase := none, position := none, active := none, staged := none, retryIndex := 0
    deadline := none, stopWait := none, suspension := none }

/-- The record of a new aisle: IN_SERVICE (R1), an empty retry list (R69), an empty queue (R56). -/
def Aisle.created (g : Geometry) : Aisle :=
  { geom := g, service := .inService, retry := [], queue := [], crane := Crane.created }

/-- A geometry load in COMMISSIONING (R1): it creates the record, with AISLE_STATE (R4; without the order's tag, DESIGN CHOICE,
log 44), or replaces its loaded fields. -/
def State.storeGeometry (s : State) (a : Nat) (g : Geometry) : State :=
  match s.aisles.look a with
  | some _ => s.modAisle a fun x => { x with geom := g }
  | none =>
    (s.setAisles (s.aisles.put a (Aisle.created g))).report .aisleState (.aisle a) (some (.service .inService))

/-- The keyed rework of R5 is open for an aisle: the key is active and the aisle is OUT_OF_SERVICE. -/
def State.reworkOpen (s : State) (x : Aisle) : Bool := s.keyLine && decide (x.service = .outOfService)

/-- A slot of the aisle lies within new numbers of bays and levels; a slot of another aisle is not judged (R5). -/
def fitsRework (a : Nat) (g : Geometry) (v : Slot) : Bool :=
  !decide (v.aisle = a) || (within 1 g.bays v.bay && within 1 g.levels v.level)

/-- No home slot or pending home of the aisle's bins would fall out of bounds (R5). -/
def State.reworkFits (s : State) (a : Nat) (g : Geometry) : Bool :=
  s.bins.all fun e => fitsRework a g e.2.home && (e.2.pendingHome.all (fitsRework a g))

/-- A taken keyed rework (R5): the loaded fields are replaced, and the crane's position becomes UNKNOWN when B or L
changes. -/
def Aisle.rework (g : Geometry) (x : Aisle) : Aisle :=
  { x with
    geom := g
    crane := if x.geom.bays = g.bays ∧ x.geom.levels = g.levels then x.crane else { x.crane with position := none } }

/-- A geometry load in IN_SERVICE (R5). -/
def State.reworkVerdict (s : State) (a : Nat) (g : Geometry) : Verdict :=
  match s.aisles.look a with
  | none => .refuse .locked 0
  | some x =>
    refuseOr
      (firstRefusal
        [ (!s.reworkOpen x, .locked)
        , (!decide (g.zone = x.geom.zone), .locked)
        , (!geometryInRange g, .badField)
        , (!s.reworkFits a g, .outOfBounds) ])
      (.accept (s.modAisle a (Aisle.rework g)) .empty)

/-- LOAD_RECORD of the Geometry Table (R1, R5). -/
def orderLoadGeometryRecord (tag a : Nat) (g : Geometry) (key : Bool) (s : State) : State :=
  (s.setKeyLine key).judgeOrder .loadRecord tag true fun s =>
    if s.isInService then s.reworkVerdict a g
    else badFieldUnless (within 1 6 a && geometryInRange g) (.accept (s.storeGeometry a g) .empty)

/-- A taken load replaces the aisle's retry list (R69). -/
def State.storeOffsets (s : State) (a : Nat) (l : List (Int × Int)) : State := s.modAisle a fun x => { x with retry := l }

/-- LOAD_RECORD of the Retry Offset Lists (R69). -/
def orderLoadRetryOffsetList (tag a : Nat) (l : List (Int × Int)) (key : Bool) (s : State) : State :=
  (s.setKeyLine key).judgeOrder .loadRecord tag true fun s =>
    match s.aisles.look a with
    | none => .refuse (if s.isInService then .locked else .badField) 0
    | some x =>
      if s.isInService && !s.reworkOpen x then .refuse .locked 0
      else badFieldUnless (offsetsInRange l) (.accept (s.storeOffsets a l) .empty)

/-! ### Stations, zones, concentrators, shutters -/

/-- A new station record, its working parts empty (R85). -/
def Station.created (f : StationFields) : Station :=
  { loaded := f, lane := [], inTransit := [], overdue := [], returns := [], hold := false, mouthOccupied := false }

/-- A station load (R84): creates the record, or replaces its loaded fields and keeps its working parts. -/
def State.storeStation (s : State) (st : Nat) (f : StationFields) : State :=
  match s.stations.look st with
  | some _ => s.modStation st fun x => { x with loaded := f }
  | none => s.setStations (s.stations.put st (Station.created f))

/-- The station shutter, where present, is named by no other station (R141). -/
def State.shutterFree (s : State) (st : Nat) (f : StationFields) : Bool :=
  match f.shutter with
  | none => true
  | some n => s.stations.all fun e => decide (e.1 = st) || !decide (e.2.loaded.shutter = some n)

/-- LOAD_RECORD of the Station Table (R84). -/
def orderLoadStationRecord (tag st : Nat) (f : StationFields) (s : State) : State :=
  s.judgeOrder .loadRecord tag true fun s =>
    s.lockedInService
      (badFieldUnless (within 1 4 st && stationFieldsInRange f && s.shutterFree st f)
        (.accept (s.storeStation st { f with linked := asAisleSet f.linked }) .empty))

/-- A new zone record (R155, Table 8.4). -/
def Zone.created (w : Nat) : Zone := { window := w, state := .normal, causes := Causes.empty, windowLeft := none }

/-- A zone load (R138). -/
def State.storeZone (s : State) (z w : Nat) : State :=
  match s.zones.look z with
  | some _ => s.modZone z fun x => { x with window := w }
  | none => s.setZones (s.zones.put z (Zone.created w))

/-- LOAD_RECORD of the Zone Table (R138). -/
def orderLoadZoneRecord (tag z w : Nat) (s : State) : State :=
  s.judgeOrder .loadRecord tag true fun s =>
    s.lockedInService (badFieldUnless (within 1 8 z && within 50 6000 w) (.accept (s.storeZone z w) .empty))

/-- A new concentrator record (R155, Table 8.4). -/
def Concentrator.created (address zone period : Nat) : Concentrator :=
  { address := address, zone := zone, period := period, health := .unheard, token := none, supervision := none
    detectors := [] }

/-- A concentrator load (R140). -/
def State.storeConcentrator (s : State) (n address zone period : Nat) : State :=
  match s.concentrators.look n with
  | some _ => s.modConcentrator n fun c => { c with address := address, zone := zone, period := period }
  | none => s.setConcentrators (s.concentrators.put n (Concentrator.created address zone period))

/-- LOAD_RECORD of the Concentrator Table (R140). -/
def orderLoadConcentratorRecord (tag n address zone period : Nat) (s : State) : State :=
  s.judgeOrder .loadRecord tag true fun s =>
    s.lockedInService
      (badFieldUnless (within 1 16 n && within 1 63 address && within 1 8 zone && within 10 600 period)
        (.accept (s.storeConcentrator n address zone period) .empty))

/-- A new shutter record: OPEN with no wait armed (R163). -/
def Shutter.created (address zone : Nat) : Shutter := { address := address, zone := zone, state := .opened, wait := none }

/-- A shutter load (R141). -/
def State.storeShutter (s : State) (n address zone : Nat) : State :=
  match s.shutters.look n with
  | some _ => s.modShutter n fun h => { h with address := address, zone := zone }
  | none => s.setShutters (s.shutters.put n (Shutter.created address zone))

/-- LOAD_RECORD of the Shutter Table (R141). -/
def orderLoadShutterRecord (tag n address zone : Nat) (s : State) : State :=
  s.judgeOrder .loadRecord tag true fun s =>
    s.lockedInService
      (badFieldUnless (within 1 8 n && within 1 63 address && within 1 8 zone)
        (.accept (s.storeShutter n address zone) .empty))

/-! ### Field addresses, report classes, wing settings -/

/-- The role and index stand at no other address (R192). -/
def State.deviceFree (s : State) (address : Nat) (d : Device) : Bool :=
  s.addresses.all fun e => decide (e.1 = address) || !decide (e.2 = d)

/-- LOAD_RECORD of the Field Address Table (R192); none is NONE, which removes the entry. -/
def orderLoadFieldAddress (tag address : Nat) (entry : Option Device) (s : State) : State :=
  s.judgeOrder .loadRecord tag true fun s =>
    s.lockedInService
      (match entry with
       | none => badFieldUnless (within 1 63 address) (.accept (s.setAddresses (s.addresses.remove address)) .empty)
       | some d =>
         badFieldUnless (within 1 63 address && deviceInRange d && s.deviceFree address d)
           (.accept (s.setAddresses (s.addresses.put address d)) .empty))

/-- The kind numbers of the five reports that are URGENT whatever the table holds: ZONE_STATE, FIRE_PANEL, SUPERVISION,
FAULT and HALTED (R189, R190). -/
def urgentNumber (k : Nat) : Bool := within 17 21 k

/-- LOAD_RECORD of the Report Class Table (R189). -/
def orderLoadReportClass (tag k : Nat) (c : ReportClass) (s : State) : State :=
  s.judgeOrder .loadRecord tag true fun s =>
    s.lockedInService
      (badFieldUnless (within 1 22 k && !(urgentNumber k && decide (c = .routine)))
        (.accept (s.setClasses (s.classes.put k c)) .empty))

/-- LOAD_RECORD of the Wing Settings (R194). -/
def orderLoadWingSettings (tag confirm stop shutter : Nat) (s : State) : State :=
  s.judgeOrder .loadRecord tag true fun s =>
    s.lockedInService
      (badFieldUnless (settingsInRange confirm stop shutter)
        (.accept (s.setSettings { confirm := confirm, stop := stop, shutter := shutter }) .empty))

/-! ### The Bin Map -/

/-- A new bin record: STORED and empty (R6). -/
def Bin.created (home : Slot) (capacity cls : Nat) : Bin :=
  { home := home, pendingHome := none, capacity := capacity, sizeClass := cls, fill := 0, reserved := 0, count := 0
    state := .stored, trip := none, next := none }

/-- The bin fields lie in their ranges, and give the home slot (R12, R13 check 1). -/
def binFields (n : Nat) (home : SlotField) (capacity cls : Nat) : Option Slot :=
  if binNumberInRange n && capacityInRange capacity && sizeClassInRange cls then slotOf home else none

/-- BIN_MAP_ADD (R12, R13). -/
def orderBinMapAdd (tag n : Nat) (home : SlotField) (capacity cls : Nat) (s : State) : State :=
  s.judgeOrder .loadRecord tag true fun s =>
    match binFields n home capacity cls with
    | none => .refuse .badField 0
    | some v =>
      refuseOr
        (firstRefusal
          [ ((s.bins.look n).isSome, .badField)
          , (s.isInService && !s.slotInBounds v, .outOfBounds)
          , (s.isInService && s.slotTaken v, .slotTaken) ])
        (.accept (s.setBins (s.bins.put n (Bin.created v capacity cls))) .empty)

/-- BIN_MAP_EDIT in IN_SERVICE (R15). -/
def State.rerateVerdict (s : State) (n : Nat) (home : SlotField) (capacity cls : Nat) : Verdict :=
  match s.bins.look n with
  | none => .refuse .unknownBin 0
  | some b =>
    refuseOr
      (firstRefusal
        [ (!capacityInRange capacity, .badField)
        , (!(decide (slotOf home = some b.home) && decide (cls = b.sizeClass)), .locked)
        , (decide (capacity < b.fill + b.reserved), .badField) ])
      (.accept (s.modBin n fun b => { b with capacity := capacity }) .empty)

/-- BIN_MAP_EDIT in COMMISSIONING (R12). -/
def State.redescribeVerdict (s : State) (n : Nat) (home : SlotField) (capacity cls : Nat) : Verdict :=
  match binFields n home capacity cls with
  | none => .refuse .badField 0
  | some v =>
    if (s.bins.look n).isNone then .refuse .unknownBin 0
    else .accept (s.modBin n fun b => { b with home := v, capacity := capacity, sizeClass := cls }) .empty

/-- BIN_MAP_EDIT (R12, R15). -/
def orderBinMapEdit (tag n : Nat) (home : SlotField) (capacity cls : Nat) (s : State) : State :=
  s.judgeOrder .loadRecord tag true fun s =>
    if s.isInService then s.rerateVerdict n home capacity cls else s.redescribeVerdict n home capacity cls

/-- The checks of a RETIRE (R12, R14) on a bin of the Bin Map; those on its state and jobs are made in IN_SERVICE. -/
def State.retireRefusal (s : State) (n : Nat) (b : Bin) : Option RefusalCode :=
  firstRefusal
    [ (s.isInService && decide (b.state = .inDoubt), .binInDoubt)
    , (s.isInService && !(decide (b.state = .stored) || decide (b.state = .missing)), .binBusy)
    , (s.isInService && s.named n, .binBusy)
    , (decide (0 < b.count) || decide (0 < b.reserved), .binBusy) ]

/-- BIN_MAP_RETIRE (R12, R14). -/
def orderBinMapRetire (tag n : Nat) (s : State) : State :=
  s.judgeOrder .loadRecord tag true fun s =>
    if !s.isInService && !binNumberInRange n then .refuse .badField 0
    else
      match s.bins.look n with
      | none => .refuse .unknownBin 0
      | some b => refuseOr (s.retireRefusal n b) (.accept (s.setBins (s.bins.remove n)) .empty)

/-! ### The Item Directory -/

/-- The checks of R31 and R32 on the home bin of an ADD as SHELVED: in IN_SERVICE its state and its room, in COMMISSIONING
the largest fill. -/
def State.shelfRefusal (s : State) (b : Bin) (t : Nat) : Option RefusalCode :=
  if s.isInService then
    match notStoredCode b.state with
    | some c => some c
    | none => if b.capacity < b.fill + b.reserved + t then some .badField else none
  else if Config.maxFigure < b.fill + t then some .badField
  else none

/-- A taken ADD (R31, R32). -/
def State.storeItem (s : State) (n : Nat) (i : Item) : State :=
  let s1 := s.setItems (s.items.put n i)
  match i.home with
  | none => s1
  | some b => s1.modBin b fun b => b.addItem i.thickness

/-- An ADD of an item, its state field naming a state: the field ranges first, then the checks in the order of R32. -/
def State.addVerdict (s : State) (n : Nat) (i : Item) : Verdict :=
  refuseOr
    (firstRefusal
      [ (!(itemNumberInRange n && thicknessInRange i.thickness && sizeClassInRange i.sizeClass
          && addCombination i.state i.home), .badField)
      , ((s.items.look n).isSome, .badField)
      , (decide (Config.itemCapacity ≤ s.items.length), .tableFull) ])
    (match i.home with
     | none => .accept (s.storeItem n i) .empty
     | some h =>
       match s.bins.look h with
       | none => .refuse .unknownBin 0
       | some b => refuseOr (s.shelfRefusal b i.thickness) (.accept (s.storeItem n i) .empty))

/-- ITEM_DIRECTORY_ADD (R31, R32). A state field that names no state is BAD_FIELD, as one other than SHELVED or LENT is (check
1). DESIGN CHOICE: in COMMISSIONING, where R31 gives the checks after the field ranges no order, they are made in the order in
which R31 lists them, which is that of R32 (log 14). -/
def orderItemDirectoryAdd (tag n t cls : Nat) (st : Option ItemState) (home : Option Nat) (s : State) : State :=
  s.judgeOrder .loadRecord tag true fun s =>
    match st with
    | none => .refuse .badField 0
    | some v => s.addVerdict n { thickness := t, sizeClass := cls, state := v, home := home, target := none }

/-- The home bin's figures with an item of thickness `old` re-measured to `new` (R31, R33): the fill of a SHELVED item's
bin, the reserved of a HELD item's bin. -/
def Bin.remeasure (st : ItemState) (old new : Nat) (b : Bin) : Bin :=
  match st with
  | .shelved => { b with fill := b.fill + new - old }
  | .held => { b with reserved := b.reserved + new - old }
  | .requested | .picked | .lent | .returning | .overflow => b

/-- Changes an item's home bin, where it has one. -/
def State.modHome (s : State) (i : Item) (f : Bin → Bin) : State :=
  match i.home with
  | none => s
  | some h => s.modBin h f

/-- A taken EDIT (R31, R33). -/
def State.remeasureItem (s : State) (n t cls : Nat) (i : Item) : State :=
  (s.modItem n fun i => { i with thickness := t, sizeClass := cls }).modHome i (Bin.remeasure i.state i.thickness t)

/-- Check 5 of R33: the home bin has room for the new thickness. -/
def State.remeasureFits (s : State) (i : Item) (t : Nat) : Bool :=
  match i.home.bind s.bins.look with
  | none => true
  | some b => decide (b.fill + t + b.reserved ≤ b.capacity + i.thickness)

/-- R31: the figure that the EDIT moves stays at 1,000 mm or below. -/
def State.remeasureFigures (s : State) (i : Item) (t : Nat) : Bool :=
  match i.home.bind s.bins.look with
  | none => true
  | some b =>
    let b' := b.remeasure i.state i.thickness t
    match i.state with
    | .shelved => decide (b'.fill ≤ Config.maxFigure)
    | .held => decide (b'.reserved ≤ Config.maxFigure)
    | .requested | .picked | .lent | .returning | .overflow => true

/-- ITEM_DIRECTORY_EDIT in IN_SERVICE (R33). -/
def State.editVerdict (s : State) (n t cls : Nat) : Verdict :=
  match s.items.look n with
  | none => .refuse .unknownItem 0
  | some i =>
    refuseOr
      (firstRefusal
        [ (!thicknessInRange t, .badField)
        , (!decide (cls = i.sizeClass), .locked)
        , (!decide (i.state = .shelved), .itemNotShelved)
        , (!s.remeasureFits i t, .badField) ])
      (.accept (s.remeasureItem n t cls i) .empty)

/-- ITEM_DIRECTORY_EDIT in COMMISSIONING (R31). -/
def State.describeVerdict (s : State) (n t cls : Nat) : Verdict :=
  badFieldUnless (itemNumberInRange n && thicknessInRange t && sizeClassInRange cls)
    (match s.items.look n with
     | none => .refuse .unknownItem 0
     | some i => badFieldUnless (s.remeasureFigures i t) (.accept (s.remeasureItem n t cls i) .empty))

/-- ITEM_DIRECTORY_EDIT (R31, R33). -/
def orderItemDirectoryEdit (tag n t cls : Nat) (s : State) : State :=
  s.judgeOrder .loadRecord tag true fun s => if s.isInService then s.editVerdict n t cls else s.describeVerdict n t cls

/-- A taken REMOVE (R31, R34): a SHELVED item leaves its home bin's fill and count, a HELD item its reserved. -/
def State.removeItem (s : State) (n : Nat) (i : Item) : State :=
  (s.setItems (s.items.remove n)).modHome i fun b =>
    match i.state with
    | .shelved => b.removeItem i.thickness
    | .held => b.release i.thickness
    | .requested | .picked | .lent | .returning | .overflow => b

/-- ITEM_DIRECTORY_REMOVE (R31, R34). -/
def orderItemDirectoryRemove (tag n : Nat) (s : State) : State :=
  s.judgeOrder .loadRecord tag true fun s =>
    if !s.isInService && !itemNumberInRange n then .refuse .badField 0
    else
      match s.items.look n with
      | none => .refuse .unknownItem 0
      | some i =>
        if s.isInService && !decide (i.state = .shelved) then .refuse .itemNotShelved 0
        else .accept (s.removeItem n i) .empty

end Sys2Proof.Machine
end

