-- ==== Sys2Proof/Machine/Reads.lean ====
section
/-! DEFINITION. The orders that return records: READ_RECORD (R195), QUERY_STATUS (R201), READ_IDENTITY (R200). They change
no record. -/
namespace Sys2Proof.Machine

/-- A record found is returned; a key with no record is refused with its table's code (R195). -/
def found (s : State) (r : Option Result) (c : RefusalCode) : Verdict :=
  match r with
  | some r => .accept s r
  | none => .refuse c 0

/-- The record of a report kind as READ_RECORD returns it: URGENT or ROUTINE as R189 gives. -/
def State.classRecord (s : State) (k : Nat) : Option Result :=
  if within 1 22 k then
    some (.reportClass (if within 17 21 k then .urgent else (s.classes.look k).getD .routine))
  else none

/-- A zone with its member sets (R138). -/
def State.zoneRecord (s : State) (z : Nat) : Option Result :=
  (s.zones.look z).map fun x => .zone x (s.aislesOf z) (s.stationsOf z) (s.concentratorsOf z) (s.shuttersOf z)

/-- READ_RECORD past R187 (R195): tables 1 to 11 in the order of Table 11.8, then 12 the request list and 13 the return
queue of a station (log 11). -/
def State.readVerdict (s : State) (table key : Nat) : Verdict :=
  match table with
  | 1 => found s ((s.aisles.look key).map fun x => .geometry x.geom x.service) .badField
  | 2 => found s ((s.aisles.look key).map fun x => .offsets x.retry) .badField
  | 3 => found s ((s.stations.look key).map fun x => .station x.loaded) .badStation
  | 4 => found s (s.zoneRecord key) .badField
  | 5 => found s ((s.concentrators.look key).map .concentrator) .badField
  | 6 => found s ((s.shutters.look key).map fun h => .shutter h (s.boundStation key)) .badField
  | 7 => found s ((s.addresses.look key).map .device) .badField
  | 8 => found s (s.classRecord key) .badField
  | 9 => .accept s (.settings s.settings)
  | 10 => found s ((s.bins.look key).map (.bin key)) .unknownBin
  | 11 => found s ((s.items.look key).map (.item key)) .unknownItem
  | 12 => found s ((s.requestOf key).map .request) .noSuchRequest
  | 13 => found s ((s.stations.look key).map fun x => .returnQueue x.returns) .badStation
  | _ => .refuse .badField 0

/-- READ_RECORD (R195). -/
def orderReadRecord (tag table key : Nat) (s : State) : State :=
  s.judgeOrder .readRecord tag true fun s => s.readVerdict table key

/-- A lane from bottom to top, with each bin's state (R85). -/
def State.laneStatus (s : State) (x : Station) : List LanePlace :=
  x.lane.reverse.map fun p =>
    { place := p
      state := match p with
        | .bin n => s.binState n
        | .tray _ => none }

/-- Up to `n` entries of a list from a position, counting from 0 (R201); at or past the length, none. -/
def fromPosition {α : Type} (l : List α) (position n : Nat) : List α := (l.drop position).take n

/-- The scopes of Table 11.9 (R201). DESIGN CHOICE: the start cause that the WING scope returns is the cause alone, without the
halted-before mark, which READ_IDENTITY returns beside it (R200; log 43). -/
def State.statusVerdict (s : State) (scope : Scope) (number position : Nat) : Verdict :=
  match scope with
  | .wing =>
    .accept s (.statusWing s.mode s.faults.state s.startCause s.firePanel s.keyLine s.faults.haltedLine s.securedLine
      s.requests.length s.link.urgent.length s.link.routine.length s.link.urgentOverrun s.link.routineOverrun)
  | .aisle => found s ((s.aisles.look number).map fun x => .statusAisle x.service x.crane x.queue.length) .badField
  | .queue =>
    found s ((s.aisles.look number).map fun x =>
      .statusQueue x.queue.length ((fromPosition x.queue position 16).map fun j => (j.tag, j.kind))) .badField
  | .station =>
    found s ((s.stations.look number).map fun x =>
      .statusStation (s.laneStatus x) x.inTransit x.overdue.length (fromPosition x.overdue position 8)
        x.returns.length x.hold x.mouthOccupied (s.claims number)) .badField
  | .zone =>
    found s ((s.zones.look number).map fun x =>
      .statusZone x.state x.causes x.windowLeft ((s.zoneConcentrators number).map (·.health))
        ((s.shutters.filter fun e => decide (e.2.zone = number)).map fun e => (e.2.state, e.2.wait))) .badField
  | .faults => .accept s (.statusFaults s.faults.state s.faults.first s.faults.halting)

/-- QUERY_STATUS (R201). -/
def orderQueryStatus (tag : Nat) (scope : Scope) (number position : Nat) (key : Bool) (s : State) : State :=
  (s.setKeyLine key).judgeOrder .queryStatus tag true fun s => s.statusVerdict scope number position

/-- READ_IDENTITY (R200). -/
def orderReadIdentity (tag : Nat) (s : State) : State :=
  s.judgeOrder .readIdentity tag true fun s => .accept s (.identity s.mode s.startCause s.haltedBefore)

end Sys2Proof.Machine
end

