-- ==== Sys2Proof/Machine/OrderCommands.lean ====
section
/-! DEFINITION. The ORDER frames as commands: each arrives at the circulation port, where it is taken or waits (R187, R199);
and the taking of the frames that waited, when a place frees (log 8). -/
namespace Sys2Proof.Machine

/-- The order that an ORDER frame spells, as it is taken; a command that is no ORDER frame spells none. -/
def runOrder (i : Instr) (s : State) : State :=
  match i with
  | .requestItem tag st items => orderRequestItem tag st items s
  | .withdrawRequest tag request => orderWithdrawRequest tag request s
  | .confirmLoan tag item reference => orderConfirmLoan tag item reference s
  | .cancelLoan tag item reference => orderCancelLoan tag item reference s
  | .callBin tag n st => orderCallBin tag n st s
  | .moveBin tag n slot => orderMoveBin tag n slot s
  | .auditBin tag n => orderAuditBin tag n s
  | .releaseBin tag n => orderReleaseBin tag n s
  | .aisleOut tag a => orderAisleOut tag a s
  | .aisleIn tag a => orderAisleIn tag a s
  | .shutZone tag z => orderShutZone tag z s
  | .restoreZone tag z force key => orderRestoreZone tag z force key s
  | .ackFault tag fault => orderAckFault tag fault s
  | .loadGeometryRecord tag a g key => orderLoadGeometryRecord tag a g key s
  | .loadRetryOffsetList tag a l key => orderLoadRetryOffsetList tag a l key s
  | .loadStationRecord tag st f => orderLoadStationRecord tag st f s
  | .loadZoneRecord tag z w => orderLoadZoneRecord tag z w s
  | .loadConcentratorRecord tag n address zone period => orderLoadConcentratorRecord tag n address zone period s
  | .loadShutterRecord tag n address zone => orderLoadShutterRecord tag n address zone s
  | .loadFieldAddress tag address entry => orderLoadFieldAddress tag address entry s
  | .loadReportClass tag k c => orderLoadReportClass tag k c s
  | .loadWingSettings tag confirm stop shutter => orderLoadWingSettings tag confirm stop shutter s
  | .binMapAdd tag n home capacity cls => orderBinMapAdd tag n home capacity cls s
  | .binMapEdit tag n home capacity cls => orderBinMapEdit tag n home capacity cls s
  | .binMapRetire tag n => orderBinMapRetire tag n s
  | .itemDirectoryAdd tag n t cls st home => orderItemDirectoryAdd tag n t cls st home s
  | .itemDirectoryEdit tag n t cls => orderItemDirectoryEdit tag n t cls s
  | .itemDirectoryRemove tag n => orderItemDirectoryRemove tag n s
  | .readRecord tag table key => orderReadRecord tag table key s
  | .closeCommissioning tag => orderCloseCommissioning tag s
  | .reopenCommissioning tag key => orderReopenCommissioning tag key s
  | .queryStatus tag scope number position key => orderQueryStatus tag scope number position key s
  | .readIdentity tag => orderReadIdentity tag s
  | .restart tag => orderRestart tag s
  | .unknownOrder tag why => orderUnknown tag why s
  | .powerOn _ _ | .resetLineAsserted | .firePanelAsserted | .firePanelNegated | .badFrame _ _
  | .unadmittedFieldTelegram _ _ | .sendNextFrame | .restartTakesEffect | .passDown _ _ | .phase _ _ _ _ | .done _
  | .pickFailed _ _ | .auditResult _ _ | .stopped _ _ _ _ | .parked _ _ | .craneFault _ | .binArrived _ _
  | .itemOutScan _ _ | .itemInScan _ _ | .returnScan _ _ | .binDone _ _ | .mouthOccupied _ | .mouthClear _
  | .stationFault _ | .terminalKey _ _ | .closed _ | .opened _ | .jammed _ | .beat _ _ | .prealarm _ _ | .alarm _ _
  | .clear _ _ | .trouble _ _ | .craneDeadlineExpiry _ | .inTransitDeadlineExpiry _ _ | .confirmWindowExpiry _
  | .alertWindowExpiry _ | .supervisionExpiry _ | .shutterWaitExpiry _ | .stopWaitExpiry _ => s

/-- The ORDER frames that waited in the port are taken in their order for as long as the port takes orders; the rest goes
on waiting (R187). -/
def drainOrders : List Instr → State → State
  | [], s => s
  | i :: rest, s =>
    if s.portShut then s.setLink { s.link with waiting := i :: rest } else drainOrders rest (runOrder i s)

/-- The port after a place may have freed. -/
def State.drainPort (s : State) : State := drainOrders s.link.waiting (s.setLink { s.link with waiting := [] })

/-- An ORDER frame as a command. -/
def State.order (s : State) (i : Instr) (take : State → State) : Next := .next (s.atPort i take)

/-- REQUEST_ITEM (R108). -/
def execRequestItem (tag st : Nat) (items : List Nat) (s : State) : Next :=
  s.order (.requestItem tag st items) (orderRequestItem tag st items)

/-- WITHDRAW_REQUEST (R118). -/
def execWithdrawRequest (tag request : Nat) (s : State) : Next :=
  s.order (.withdrawRequest tag request) (orderWithdrawRequest tag request)

/-- CONFIRM_LOAN (R116). -/
def execConfirmLoan (tag item reference : Nat) (s : State) : Next :=
  s.order (.confirmLoan tag item reference) (orderConfirmLoan tag item reference)

/-- CANCEL_LOAN (R117). -/
def execCancelLoan (tag item reference : Nat) (s : State) : Next :=
  s.order (.cancelLoan tag item reference) (orderCancelLoan tag item reference)

/-- CALL_BIN (R100). -/
def execCallBin (tag n st : Nat) (s : State) : Next := s.order (.callBin tag n st) (orderCallBin tag n st)

/-- MOVE_BIN (R16). -/
def execMoveBin (tag n : Nat) (slot : SlotField) (s : State) : Next :=
  s.order (.moveBin tag n slot) (orderMoveBin tag n slot)

/-- AUDIT_BIN (R17). -/
def execAuditBin (tag n : Nat) (s : State) : Next := s.order (.auditBin tag n) (orderAuditBin tag n)

/-- RELEASE_BIN (R18). -/
def execReleaseBin (tag n : Nat) (s : State) : Next := s.order (.releaseBin tag n) (orderReleaseBin tag n)

/-- AISLE_OUT (R80). -/
def execAisleOut (tag a : Nat) (s : State) : Next := s.order (.aisleOut tag a) (orderAisleOut tag a)

/-- AISLE_IN (R82). -/
def execAisleIn (tag a : Nat) (s : State) : Next := s.order (.aisleIn tag a) (orderAisleIn tag a)

/-- SHUT_ZONE (R154). -/
def execShutZone (tag z : Nat) (s : State) : Next := s.order (.shutZone tag z) (orderShutZone tag z)

/-- RESTORE_ZONE (R169). -/
def execRestoreZone (tag z : Nat) (force key : Bool) (s : State) : Next :=
  s.order (.restoreZone tag z force key) (orderRestoreZone tag z force key)

/-- ACK_FAULT (R180). -/
def execAckFault (tag fault : Nat) (s : State) : Next := s.order (.ackFault tag fault) (orderAckFault tag fault)

/-- LOAD_RECORD of the Geometry Table (R1, R5). -/
def execLoadGeometryRecord (tag a : Nat) (g : Geometry) (key : Bool) (s : State) : Next :=
  s.order (.loadGeometryRecord tag a g key) (orderLoadGeometryRecord tag a g key)

/-- LOAD_RECORD of the Retry Offset Lists (R69). -/
def execLoadRetryOffsetList (tag a : Nat) (l : List (Int × Int)) (key : Bool) (s : State) : Next :=
  s.order (.loadRetryOffsetList tag a l key) (orderLoadRetryOffsetList tag a l key)

/-- LOAD_RECORD of the Station Table (R84). -/
def execLoadStationRecord (tag st : Nat) (f : StationFields) (s : State) : Next :=
  s.order (.loadStationRecord tag st f) (orderLoadStationRecord tag st f)

/-- LOAD_RECORD of the Zone Table (R138). -/
def execLoadZoneRecord (tag z w : Nat) (s : State) : Next :=
  s.order (.loadZoneRecord tag z w) (orderLoadZoneRecord tag z w)

/-- LOAD_RECORD of the Concentrator Table (R140). -/
def execLoadConcentratorRecord (tag n address zone period : Nat) (s : State) : Next :=
  s.order (.loadConcentratorRecord tag n address zone period) (orderLoadConcentratorRecord tag n address zone period)

/-- LOAD_RECORD of the Shutter Table (R141). -/
def execLoadShutterRecord (tag n address zone : Nat) (s : State) : Next :=
  s.order (.loadShutterRecord tag n address zone) (orderLoadShutterRecord tag n address zone)

/-- LOAD_RECORD of the Field Address Table (R192). -/
def execLoadFieldAddress (tag address : Nat) (entry : Option Device) (s : State) : Next :=
  s.order (.loadFieldAddress tag address entry) (orderLoadFieldAddress tag address entry)

/-- LOAD_RECORD of the Report Class Table (R189). -/
def execLoadReportClass (tag k : Nat) (c : ReportClass) (s : State) : Next :=
  s.order (.loadReportClass tag k c) (orderLoadReportClass tag k c)

/-- LOAD_RECORD of the Wing Settings (R194). -/
def execLoadWingSettings (tag confirm stop shutter : Nat) (s : State) : Next :=
  s.order (.loadWingSettings tag confirm stop shutter) (orderLoadWingSettings tag confirm stop shutter)

/-- BIN_MAP_ADD (R12, R13). -/
def execBinMapAdd (tag n : Nat) (home : SlotField) (capacity cls : Nat) (s : State) : Next :=
  s.order (.binMapAdd tag n home capacity cls) (orderBinMapAdd tag n home capacity cls)

/-- BIN_MAP_EDIT (R12, R15). -/
def execBinMapEdit (tag n : Nat) (home : SlotField) (capacity cls : Nat) (s : State) : Next :=
  s.order (.binMapEdit tag n home capacity cls) (orderBinMapEdit tag n home capacity cls)

/-- BIN_MAP_RETIRE (R12, R14). -/
def execBinMapRetire (tag n : Nat) (s : State) : Next := s.order (.binMapRetire tag n) (orderBinMapRetire tag n)

/-- ITEM_DIRECTORY_ADD (R31, R32). -/
def execItemDirectoryAdd (tag n t cls : Nat) (st : Option ItemState) (home : Option Nat) (s : State) : Next :=
  s.order (.itemDirectoryAdd tag n t cls st home) (orderItemDirectoryAdd tag n t cls st home)

/-- ITEM_DIRECTORY_EDIT (R31, R33). -/
def execItemDirectoryEdit (tag n t cls : Nat) (s : State) : Next :=
  s.order (.itemDirectoryEdit tag n t cls) (orderItemDirectoryEdit tag n t cls)

/-- ITEM_DIRECTORY_REMOVE (R31, R34). -/
def execItemDirectoryRemove (tag n : Nat) (s : State) : Next :=
  s.order (.itemDirectoryRemove tag n) (orderItemDirectoryRemove tag n)

/-- READ_RECORD (R195). -/
def execReadRecord (tag table key : Nat) (s : State) : Next :=
  s.order (.readRecord tag table key) (orderReadRecord tag table key)

/-- CLOSE_COMMISSIONING (R197). -/
def execCloseCommissioning (tag : Nat) (s : State) : Next :=
  s.order (.closeCommissioning tag) (orderCloseCommissioning tag)

/-- REOPEN_COMMISSIONING (R198). -/
def execReopenCommissioning (tag : Nat) (key : Bool) (s : State) : Next :=
  s.order (.reopenCommissioning tag key) (orderReopenCommissioning tag key)

/-- QUERY_STATUS (R201). -/
def execQueryStatus (tag : Nat) (scope : Scope) (number position : Nat) (key : Bool) (s : State) : Next :=
  s.order (.queryStatus tag scope number position key) (orderQueryStatus tag scope number position key)

/-- READ_IDENTITY (R200). -/
def execReadIdentity (tag : Nat) (s : State) : Next := s.order (.readIdentity tag) (orderReadIdentity tag)

/-- RESTART (R199). -/
def execRestart (tag : Nat) (s : State) : Next := s.order (.restart tag) (orderRestart tag)

/-- An ORDER frame that spells no order of another row (R187, R194). -/
def execUnknownOrder (tag : Nat) (why : Unreadable) (s : State) : Next :=
  s.order (.unknownOrder tag why) (orderUnknown tag why)

end Sys2Proof.Machine
end

