-- ==== Sys2Proof/Machine/Restart.lean ====
section
/-! DEFINITION. A restart (R199): the conversions that its chapters give the working records (R20, R36, R83, R104, R107,
R136, R157, R176, R185), shared by the reset line and the RESTART order. -/
namespace Sys2Proof.Machine

/-! ### Links, items and bins -/

/-- The queues at a restart (R199): the overrun pending mark of each class whose queue held an entry is set, and the
reply queue and both report queues are emptied. The frames still waiting in the port stay (log 8). -/
def Link.restart (l : Link) : Link :=
  { l with
    replies := []
    urgent := []
    routine := []
    urgentOverrun := l.urgentOverrun || !l.urgent.isEmpty
    routineOverrun := l.routineOverrun || !l.routine.isEmpty
    restartPending := false }

/-- The conversion of an item (R36). -/
def Item.restart (i : Item) : Item :=
  match i.state with
  | .requested => { i with state := .shelved }
  | .picked => { i with state := .held }
  | .returning => { i with state := .overflow, target := none }
  | .shelved | .lent | .held | .overflow => i

/-- The reservation that a RETURNING item holds in its target bin is removed (R36). -/
def releaseReturning (bins : Table Bin) (e : Nat × Item) : Table Bin :=
  match e.2.state, e.2.target with
  | .returning, some n => bins.adjust n fun b => b.release e.2.thickness
  | _, _ => bins

/-- The conversion of a bin (R20). -/
def Bin.restart (b : Bin) : Bin :=
  { b with
    state := match b.state with
      | .onCrane | .inTransit | .inLane | .lockedOut | .homebound => .inDoubt
      | .called => .stored
      | .stored | .missing | .inDoubt => b.state
    trip := none
    next := none
    pendingHome := none }

/-- Items, requests and bins at a restart (R20, R36, R107). -/
def State.restartStock (s : State) : State :=
  let bins := s.items.foldl releaseReturning s.bins
  ((s.setItems (s.items.mapRecords fun _ i => i.restart)).setRequests []).setBins (bins.mapRecords fun _ b => b.restart)

/-- The working parts of a station at a restart (R104): emptied, but for the mouth. -/
def Station.restart (x : Station) : Station :=
  { x with lane := [], inTransit := [], overdue := [], returns := [], hold := false }

/-- The Fault Unit at a restart (R185): CLEAR, no record, the halted line negated, the next fault tag kept. -/
def FaultUnit.restart (f : FaultUnit) : FaultUnit :=
  { f with state := .clear, first := none, halting := none, haltedLine := false }

/-! ### Cranes -/

/-- A crane's contents at a restart (R83): no job, record, phase or wait, position UNKNOWN; its state is set after. -/
def Crane.restart (c : Crane) : Crane :=
  { c.clearJob with position := none, staged := none, stopWait := none, suspension := none }

/-- An aisle's queue and crane record at a restart (R83). -/
def Aisle.restart (x : Aisle) : Aisle := { x with queue := [], crane := x.crane.restart }

/-- A DRAINING aisle becomes OUT_OF_SERVICE, with AISLE_STATE (R20). -/
def State.restartService (s : State) (a : Nat) : State :=
  match s.aisles.look a with
  | none => s
  | some x => if x.service = .draining then s.setService a .outOfService else s

/-- The state of a crane after a restart (R83, R176), by the aisle's service state, the mode and the state its zone has
after R157. -/
def State.restartCrane (s : State) (a : Nat) : State :=
  match s.aisles.look a with
  | none => s
  | some x =>
    if x.service = .outOfService then
      s.modCrane a fun c => { c with state := if c.state = .faulted then .faulted else .outOfService }
    else if s.mode = .commissioning then s.modCrane a fun c => { c with state := .parking }
    else
      match s.zoneState x.geom.zone with
      | some .shutdown => (s.modCrane a fun c => { c with state := .stopped }).sendCrane a .stop
      | some .secured => s.modCrane a fun c => { c with state := .stopped }
      | _ => s.createPark a

/-! ### Zones, concentrators and shutters -/

/-- A concentrator at a restart (R157): UNHEARD, no last token, the detector map kept; its supervision is armed with its
period in IN_SERVICE and disarmed in COMMISSIONING. -/
def Concentrator.restart (m : Mode) (c : Concentrator) : Concentrator :=
  { c with health := .unheard, token := none
           supervision := match m with
             | .inService => some c.period
             | .commissioning => none }

/-- A shutter at a restart (R176). -/
def Shutter.restart (h : Shutter) : Shutter :=
  { h with wait := none
           state := match h.state with
             | .waitingMouth => .opened
             | .opened | .closing | .closed | .opening | .jammed => h.state }

/-- The state a zone has after a restart in IN_SERVICE (R157). -/
def zoneAfterRestart (firePanel : Bool) : ZoneState → ZoneState
  | .shutdown => .shutdown
  | .secured => .secured
  | .restoring => .shutdown
  | .normal | .alert => if firePanel then .shutdown else .alert

/-- A zone at a restart in IN_SERVICE (R157): START is added to its cause set, its window is armed in ALERT and disarmed
otherwise, and a change of its state posts ZONE_STATE. DESIGN CHOICE: the cause set of a zone kept in SHUTDOWN or SECURED is
re-formed too: SILENT and TOKEN, whose concentrators are UNHEARD now, leave it (R148; log 39). -/
def State.restartZone (s : State) (z : Nat) : State :=
  match s.zones.look z with
  | none => s
  | some x =>
    let v := zoneAfterRestart s.firePanel x.state
    let s1 := s.modZone z fun x =>
      { x with causes := s.causesOf z true, windowLeft := if v = .alert then some x.window else none }
    if v = x.state then s1 else s1.setZoneState z v

/-- The entry actions of R159 on a zone that the restart leaves in, or brings to, SHUTDOWN (R157). -/
def State.restartEntry (s : State) (z : Nat) : State :=
  if s.zoneState z = some .shutdown then s.entryActions z else s

/-- The zones at a restart: in COMMISSIONING they keep their commissioning values (R157). -/
def State.restartZones (s : State) : State :=
  match s.mode with
  | .commissioning => s
  | .inService => s.zones.numbers.foldl State.restartZone s

/-! ### The restart -/

/-- The records that a restart resets without regard to the zones (R20, R36, R83, R104, R107, R136, R157, R176, R185). -/
def State.restartRecords (s : State) (cause : StartCause) : State :=
  let s1 := ((s.setHaltedBefore s.isHalted).setStartCause cause).setLink s.link.restart
  let s2 := (s1.restartStock.setStations (s1.stations.mapRecords fun _ x => x.restart)).setFaults s1.faults.restart
  let s3 := s2.setAisles (s2.aisles.mapRecords fun _ x => x.restart)
  let s4 := s3.setConcentrators (s3.concentrators.mapRecords fun _ c => c.restart s3.mode)
  s4.setShutters (s4.shutters.mapRecords fun _ h => h.restart)

/-- A restart (R199; log 22): the records are reset, the zones converted, the cranes set, the entry actions made for zones
in SHUTDOWN, and the secured line judged on the zone states that the restart leaves (R168). -/
def State.restart (s : State) (cause : StartCause) : State :=
  let s1 := s.restartRecords cause
  let s2 := s1.aisles.numbers.foldl State.restartService s1
  let s3 := s2.restartZones
  let s4 := s3.aisles.numbers.foldl State.restartCrane s3
  let s5 := s4.zones.numbers.foldl State.restartEntry s4
  s5.judgeSecuredLine.settleWing

end Sys2Proof.Machine
end

