-- ==== Sys2Proof/Machine/Lines.lean ====
section
/-! DEFINITION. Power and the discrete lines: POWER_ON (R196), RESET_LINE_ASSERTED (R199), FIRE_PANEL_ASSERTED and
FIRE_PANEL_NEGATED (R153). -/
namespace Sys2Proof.Machine

/-- Power-on (R196): every record at its reset value, the fire panel mark and the key line at the lines' levels. The
commands that wait are the outside world's, and stay. -/
def State.poweredOn (s : State) (firePanel key : Bool) : State :=
  { State.reset with firePanel := firePanel, keyLine := key, pending := s.pending }

/-- POWER_ON (R196). -/
def execPowerOn (firePanel key : Bool) (s : State) : Next := .next (s.poweredOn firePanel key)

/-- The reset line passes from negated to asserted (R199): a restart at once; the port may then take what waited. -/
def execResetLineAsserted (s : State) : Next := .next (s.restart .resetLine).drainPort

/-- The fire panel line is asserted in IN_SERVICE (R153): FIRE_PANEL is posted and every zone in NORMAL, ALERT or RESTORING
enters SHUTDOWN. -/
def State.panelAlarm (s : State) : State :=
  let s1 := s.report .firePanel .wing (some (.firePanel true))
  (s1.zones.numbers.foldl State.enterShutdown s1).settleWing

/-- FIRE_PANEL_ASSERTED (R153): in COMMISSIONING the mark follows the line, and nothing else happens. -/
def execFirePanelAsserted (s : State) : Next :=
  let s1 := s.setFirePanel true
  .next (if s1.isInService then s1.panelAlarm else s1)

/-- FIRE_PANEL_NEGATED (R153): FIRE_PANEL is posted in IN_SERVICE; no zone changes state. -/
def execFirePanelNegated (s : State) : Next :=
  let s1 := s.setFirePanel false
  .next (if s1.isInService then s1.report .firePanel .wing (some (.firePanel false)) else s1)

end Sys2Proof.Machine
end

