-- ==== Sys2Proof/Machine/Frame.lean ====
section
/-! DEFINITION. The telegram frame as it stands on a link (Table 11.1), its check (R186), the frames of replies and reports
(Tables 11.2 and 11.3), and the bytes of the records that replies return (R195, R201; log 11). -/
namespace Sys2Proof.Machine

/-! ### The frame check (R186) -/

/-- One bit through the divisor x^16 + x^12 + x^5 + 1. -/
def checkBit (c : CheckWord) (b : Bool) : CheckWord :=
  if (c.getLsbD 15) != b then (c <<< 1) ^^^ 0x1021#16 else c <<< 1

/-- One byte, most significant bit first. -/
def checkByte (c : CheckWord) (x : Byte) : CheckWord :=
  [7, 6, 5, 4, 3, 2, 1, 0].foldl (fun c i => checkBit c (x.getLsbD i)) c

/-- The check over a sequence of bytes: starting value FFFF hexadecimal, no final inversion. -/
def frameCheck (l : List Byte) : CheckWord := l.foldl checkByte 0xFFFF#16

/-! ### The fields of the records that replies return, in the order of their tables -/

def Job.fields (j : Job) : List Field :=
  [.num 2 j.tag, .num 1 j.kind.place, .opt 2 j.bin] ++ optFields (j.source.map Locus.fields) ++ j.destination.fields
    ++ [.opt 1 j.station, .opt 1 (j.purpose.map Purpose.place)]

def Suspension.fields (r : Suspension) : List Field :=
  r.job.fields ++ [.num 1 r.phaseAtStop.place, markField r.load, markField r.forks, markField r.recoverable
    , .num 2 r.pausedLeft, .opt 2 (r.parkLabel.map Reading.number)]

def Crane.fields (c : Crane) : List Field :=
  [.num 1 c.state.place, .opt 1 (c.phase.map Phase.place)]
    ++ optFields (c.position.map fun p => [.num 1 p.bay, .num 1 p.level])
    ++ optFields (c.active.map Job.fields) ++ optFields (c.staged.map Job.fields)
    ++ [.num 1 c.retryIndex, .opt 2 (c.deadline.map (·.left)), markField ((c.deadline.map (·.running)).getD false)]
    ++ optFields (c.suspension.map Suspension.fields)

def Causes.mask (c : Causes) : Nat :=
  maskOf 1 ((if c.prealarm then [1] else []) ++ (if c.trouble then [2] else []) ++ (if c.silent then [3] else [])
    ++ (if c.token then [4] else []) ++ (if c.start then [5] else []))

def FaultRecord.fields (f : FaultRecord) : List Field :=
  [.num 1 f.tag, .num 1 f.kind.place, .num 1 f.subject, .opt 2 f.jobTag, .opt 2 f.bin, .opt 1 f.detail
    , markField f.recoverable]

/-- One of the three fields of a detector map: the bit of value 2^(n - 1) is set when detector n has an entry in the
condition (R140). -/
def Concentrator.mapField (c : Concentrator) (d : Condition) : Field :=
  .num 4 (maskOf 1 (c.detectors.select fun e => decide (e = d)))

def LanePlace.fields (p : LanePlace) : List Field :=
  [match p.place with
   | .bin n => Field.num 2 n
   | .tray l => Field.num 2 l
   , .num 1 ((p.state.map BinState.place).getD 0)]

/-- The fields of a result. -/
def Result.fields : Result → List Field
  | .empty => []
  | .outcomes l =>
    .num 1 l.length :: l.flatMap fun o => [.num 1 ((o.1.map RefusalCode.number).getD 0), .num 2 o.2]
  | .geometry g v =>
    [.num 1 g.bays, .num 1 g.levels, .num 1 g.h0, .num 1 g.h1, .num 1 g.v0, .num 1 g.v1, .num 1 g.handling
      , .num 2 g.margin, .num 2 g.grace, .num 1 g.zone, .num 1 v.place]
  | .offsets l => .num 1 l.length :: l.flatMap pairFields
  | .station f =>
    [.num 1 f.address, .num 1 f.zone, .num 1 ((if f.lending then 1 else 0) + (if f.returns then 2 else 0))
      , .num 1 f.depth, .num 2 f.conveyor, .num 1 (maskOf 1 f.linked), .opt 1 f.shutter]
  | .zone z a st c h =>
    [.num 2 z.window, .num 1 (maskOf 1 a), .num 1 (maskOf 1 st), .num 2 (maskOf 1 c), .num 1 (maskOf 1 h)
      , .num 1 z.state.place, .num 1 z.causes.mask, .opt 2 z.windowLeft]
  | .concentrator c =>
    [.num 1 c.address, .num 1 c.zone, .num 2 c.period, .num 1 c.health.place, .opt 1 c.token, .opt 2 c.supervision
      , c.mapField .pre, c.mapField .alarm, c.mapField .trouble]
  | .shutter h b => [.num 1 h.address, .num 1 h.zone, .opt 1 b, .num 1 h.state.place]
  | .device d => [.num 1 d.role.place, .num 1 d.index]
  | .reportClass c => [.num 1 c.place]
  | .settings v => [.num 2 v.confirm, .num 2 v.stop, .num 2 v.shutter]
  | .bin n b =>
    [.num 2 n] ++ b.home.fields ++ optFields (b.pendingHome.map Slot.fields)
      ++ [.num 2 b.capacity, .num 1 b.sizeClass, .num 2 b.fill, .num 2 b.reserved, .num 2 b.count, .num 1 b.state.place
        , .opt 1 b.trip, .opt 1 b.next]
  | .item n i =>
    [.num 4 n, .num 1 i.thickness, .num 1 i.sizeClass, .num 1 i.state.place, .opt 2 i.home, .opt 2 i.target]
  | .request r =>
    [.num 2 r.tag, .num 2 r.order, .num 4 r.item, .num 1 r.station, .num 1 r.state.place, .opt 2 r.window]
  | .returnQueue l => .num 1 l.length :: l.flatMap fun e => [.num 4 e.item, .num 2 e.target]
  | .identity m c h =>
    -- the part number CW6A as its four characters (R200; log 11)
    [.num 4 0x43573641, .num 1 Config.siliconRevision.toNat, .num 1 m.place, .num 1 c.place, markField h]
  | .statusWing m f c p k h sec n u r uo ro =>
    [.num 1 m.place, .num 1 f.place, .num 1 c.place, markField p, markField k, markField h, markField sec, .num 1 n
      , .num 1 u, .num 1 r, markField uo, markField ro]
  | .statusAisle v c q => .num 1 v.place :: c.fields ++ [.num 2 q]
  | .statusQueue n l => .num 2 n :: l.flatMap fun e => [.num 2 e.1, .num 1 e.2.place]
  | .statusStation l t n o r h m c =>
    (.num 1 l.length :: l.flatMap LanePlace.fields)
      ++ (.num 1 t.length :: t.flatMap fun e => [.num 2 e.bin, .num 2 e.deadline.left, markField e.deadline.running])
      ++ (.num 2 n :: .num 1 o.length :: o.map fun b => .num 2 b)
      ++ [.num 1 r, markField h, markField m, .num 1 c]
  | .statusZone v c w hs sh =>
    [.num 1 v.place, .num 1 c.mask, .opt 2 w] ++ (.num 1 hs.length :: hs.map fun x => .num 1 x.place)
      ++ (.num 1 sh.length :: sh.flatMap fun x => [.num 1 x.1.place, .opt 2 x.2])
  | .statusFaults v a b =>
    .num 1 v.place :: optFields (a.map FaultRecord.fields) ++ optFields (b.map FaultRecord.fields)

/-! ### Bodies and frames -/

/-- The body of a reply (Table 11.2). -/
def Reply.body (r : Reply) : List Byte :=
  fieldBytes
    ([ .num 1 (match r.refusal with
        | none => 1
        | some _ => 2)
      , .num 1 ((r.refusal.map RefusalCode.number).getD 0)
      , .num 1 r.detail ] ++ r.result.fields)

/-- Subject kinds and subjects (Table 11.3). -/
def Subject.fields : Subject → List Field
  | .item n => [.num 1 1, .num 4 n]
  | .bin n => [.num 1 2, .num 4 n]
  | .station n => [.num 1 3, .num 4 n]
  | .zone n => [.num 1 4, .num 4 n]
  | .aisle n => [.num 1 5, .num 4 n]
  | .faultTag n => [.num 1 6, .num 4 n]
  | .wing => [.num 1 7, .num 4 Config.wingSubject.toNat]

/-- The code kind and code of a report (Table 11.3, R190). -/
def codeFields : Option Code → List Field
  | none => [.num 1 0, .num 2 Config.absentCode.toNat]
  | some (.number n) => [.num 1 1, .num 2 n]
  | some (.refusal c) => [.num 1 2, .num 2 c.number]
  | some (.zoneState z) => [.num 1 2, .num 2 z.place]
  | some (.service v) => [.num 1 2, .num 2 v.place]
  | some (.faultKind k) => [.num 1 2, .num 2 k.place]
  | some (.reason r) => [.num 1 2, .num 2 r.place]
  | some (.firePanel p) => [.num 1 2, .num 2 (if p then 1 else 2)]

/-- The body of a report (Table 11.3), with the overrun mark of its class. -/
def Report.body (r : Report) (overrun : Bool) : List Byte :=
  fieldBytes (markField overrun :: r.subject.fields ++ [.num 2 (r.order.getD 0)] ++ codeFields r.code)

/-- Bytes 1 to 7 + n of a frame, over which the check is computed. -/
def Frame.covered (f : Frame) : List Byte :=
  [BitVec.ofNat 8 f.destination, BitVec.ofNat 8 f.source, BitVec.ofNat 8 f.cls, BitVec.ofNat 8 f.kind]
    ++ bytesOf 2 f.tag ++ [BitVec.ofNat 8 f.body.length] ++ f.body

/-- A frame as it stands on the link (Table 11.1): start mark A5 hexadecimal, the covered bytes, and the check. -/
def Frame.bytes (f : Frame) : List Byte :=
  0xA5#8 :: (f.covered ++ bytesOf 2 (frameCheck f.covered).toNat)

/-- The frame of a reply: class 2, kind 0, the order's tag (Table 11.1). -/
def replyFrame (r : Reply) : Frame :=
  { destination := 0, source := 0, cls := 2, kind := 0, tag := r.tag, body := r.body }

/-- The frame of a report: class 3, its kind number, tag 0 (Table 11.1). -/
def reportFrame (r : Report) (overrun : Bool) : Frame :=
  { destination := 0, source := 0, cls := 3, kind := r.kind.number, tag := 0, body := r.body overrun }

/-- The frame of a PASS_UP message: class 4, with the station number as destination (Table 11.1). -/
def passUpFrame (st : Nat) (data : List Byte) : Frame :=
  { destination := st, source := 0, cls := 4, kind := 0, tag := 0, body := data }

/-! ### Arriving frames -/

/-- The classes a sender may send (R186): the host 1 (ORDER) and 5 (PASS_DOWN), a field device 6 (FIELD). -/
def classAllowed (p : Port) (cls : Byte) : Bool :=
  match p with
  | .circulation => decide (cls = 1#8) || decide (cls = 5#8)
  | .fieldLink => decide (cls = 6#8)

/-- A frame that R186 drops: its check disagrees, its body length byte is above 64, or it is of a class that its sender
may not send. `l` is the whole frame; one too short to hold its check cannot agree with it. DESIGN CHOICE: the first byte is
not examined, so that a frame with another start mark passes (log 41). -/
def frameBad (p : Port) (l : List Byte) : Bool :=
  match l with
  | _ :: rest =>
    let n := ((rest.drop 6).headD 0#8).toNat
    let covered := rest.take (7 + n)
    decide (64 < n) || !classAllowed p ((rest.drop 2).headD 0#8)
      || !decide (covered.length = 7 + n) || !decide (rest.drop (7 + n) = bytesOf 2 (frameCheck covered).toNat)
  | [] => true

end Sys2Proof.Machine
end

