-- ==== Sys2Proof/Machine/Links.lean ====
section
/-! DEFINITION. The Link Interface's own commands: BAD_FRAME (R186), UNADMITTED_FIELD_TELEGRAM (R193), SEND_NEXT_FRAME
(R191), RESTART_TAKES_EFFECT (R199), PASS_DOWN (R103). -/
namespace Sys2Proof.Machine

/-- BAD_FRAME (R186): the frame (see `frameBad`) is dropped without reply or report. -/
def execBadFrame (_ : Port) (_ : List Byte) (s : State) : Next := .next s

/-- UNADMITTED_FIELD_TELEGRAM (R193): a FIELD frame for address 0 from a source without an entry, or in COMMISSIONING, is
dropped; otherwise its kind is not one of its sender's role, or its body does not hold the kind's fields. -/
def execUnadmittedFieldTelegram (src kind : Nat) (s : State) : Next :=
  .next
    (match s.addresses.look src with
     | none => s
     | some d => if s.mode = .commissioning then s else s.rejectTelegram d kind)

/-- A frame begins to be sent on the circulation link (log 9). -/
def Link.transmit (l : Link) (f : Frame) : Link := { l with sent := l.sent ++ [f] }

/-- The frame of an entry of the routine queue (R190): a report carries the overrun mark, a PASS_UP message none. -/
def RoutineEntry.frame (e : RoutineEntry) (overrun : Bool) : Frame :=
  match e with
  | .report r => reportFrame r overrun
  | .passUp st data => passUpFrame st data

/-- The overrun pending mark after an entry of the routine queue is sent: a report clears it, a PASS_UP leaves it (R190). -/
def RoutineEntry.markAfter (e : RoutineEntry) (overrun : Bool) : Bool :=
  match e with
  | .report _ => false
  | .passUp _ _ => overrun

/-- The arbiter's choice (R191): the oldest reply, else the oldest urgent report, else the oldest routine entry. The chosen
entry leaves its queue when its sending begins. -/
def Link.arbitrate (l : Link) : Link :=
  match l.replies with
  | r :: rest => { l with replies := rest }.transmit (replyFrame r)
  | [] =>
    match l.urgent with
    | u :: rest => { l with urgent := rest, urgentOverrun := false }.transmit (reportFrame u l.urgentOverrun)
    | [] =>
      match l.routine with
      | e :: rest =>
        { l with routine := rest, routineOverrun := e.markAfter l.routineOverrun }.transmit (e.frame l.routineOverrun)
      | [] => l

/-- SEND_NEXT_FRAME (R191): the circulation link is free to send a frame; a place of the reply queue may free, and the port
then takes an order that waited (R187). -/
def execSendNextFrame (s : State) : Next := .next (s.setLink s.link.arbitrate).drainPort

/-- RESTART_TAKES_EFFECT (R199): a RESTART order has been taken and its reply has been sent; otherwise nothing happens. -/
def execRestartTakesEffect (s : State) : Next :=
  .next (if s.link.restartPending && s.link.replies.isEmpty then (s.restart .restartOrder).drainPort else s)

/-- PASS_DOWN (R103): terminal text for a station whose zone is NORMAL or ALERT is forwarded as TERMINAL_TEXT; in
COMMISSIONING, for a station without a record or in a closed zone it is dropped. -/
def execPassDown (st : Nat) (text : List Byte) (s : State) : Next :=
  .next (if s.isInService && s.stationOpen st then s.sendStation st (.terminalText text) else s)

end Sys2Proof.Machine
end

