-- ==== Sys2Proof/Machine/Scans.lean ====
section
/-! DEFINITION. The four scans (R96): ITEM_OUT_SCAN (R114), ITEM_IN_SCAN (R132), RETURN_SCAN (R124 to R130), BIN_DONE (R97
to R99, R121, R134). -/
namespace Sys2Proof.Machine

/-! ### The common checks -/

/-- The kinds of scan (5.5). -/
inductive ScanKind where
  | itemOut
  | itemIn
  | returned
  | binDone
  deriving DecidableEq, Repr

/-- The station has the role a scan asks for (R96, check 3). -/
def ScanKind.roleOf (k : ScanKind) (f : StationFields) : Bool :=
  match k with
  | .itemOut => f.lending
  | .itemIn | .returned => f.returns
  | .binDone => true

/-- The checks of R96, in their order. -/
def State.scanRefusal (s : State) (k : ScanKind) (x : Station) : Option ScanCode :=
  if s.isHalted && !decide (k = .binDone) then some .halted
  else if s.zoneClosed x.loaded.zone then some .zoneClosed
  else if !k.roleOf x.loaded then some .role
  else none

/-- What a scan leaves: the state, and whether the scan itself is a moment at which the Dispatcher looks (R62): a job has joined
a queue, or the station's claims have fallen. -/
structure Scanned where
  state : State
  looks : Bool

/-- A scan after which the Dispatcher has nothing new to look at. -/
def State.quiet (s : State) : Scanned := { state := s, looks := false }

/-- A scan after which the Dispatcher looks (R62). -/
def State.stirred (s : State) : Scanned := { state := s, looks := true }

/-- A scan that is refused after the common checks (R96). -/
def State.refusedScan (s : State) (st : Nat) (c : ScanCode) : Scanned := (s.refuseScan st c).quiet

/-- A scan from a station (R96, R101): it ends a lane hold, whether it is taken or refused. When it did, and when the scan itself
calls for it, the Dispatcher looks once at its queues (log 6). -/
def State.takeScan (k : ScanKind) (body : State → Nat → Station → Scanned) (s : State) (st : Nat) : State :=
  match s.stations.look st with
  | none => s
  | some x =>
    let s1 := s.endHold st
    let r :=
      match s1.scanRefusal k x with
      | some c => s1.refusedScan st c
      | none => body s1 st x
    if x.hold || r.looks then r.state.settleWing else r.state

/-- The bin stands in the station's lane as LOCKED_OUT. -/
def State.lockedHere (s : State) (x : Station) (n : Nat) : Bool :=
  decide (Place.bin n ∈ x.lane) && decide (s.binState n = some .lockedOut)

/-! ### ITEM_OUT_SCAN -/

/-- The request of an item, standing for the station and not yet PICKED. -/
def State.openRequest (s : State) (st item : Nat) : Option Request :=
  s.requests.find? fun r => decide (r.item = item) && decide (r.station = st)

/-- A taken ITEM_OUT_SCAN (R114). -/
def State.pickItem (s : State) (st item n : Nat) (r : Request) : State :=
  let s1 := (s.modItem item fun i => { i with state := .picked }).modBin n fun b => b.pickOut (s.thicknessOf item)
  (s1.setRequests (s1.requests.map fun q =>
      if q.tag = r.tag then { q with state := .picked, window := some s.settings.confirm } else q)).reportRequest
    .itemPicked r (some (.number st))

/-- ITEM_OUT_SCAN past R96 (R114). -/
def State.scanOut (item : Nat) (s : State) (st : Nat) (x : Station) : Scanned :=
  match s.items.look item with
  | none => s.refusedScan st .notRequested
  | some i =>
    match s.openRequest st item, i.home with
    | some r, some n =>
      if i.state ≠ .requested then s.refusedScan st .notRequested
      else if s.lockedHere x n then s.refusedScan st .binLocked
      else if s.presentedBin st ≠ some n then s.refusedScan st .notPresented
      else (s.pickItem st item n r).quiet
    | _, _ => s.refusedScan st .notRequested

/-! ### ITEM_IN_SCAN -/

/-- A taken ITEM_IN_SCAN (R132, R28). -/
def State.shelveItem (s : State) (st item n : Nat) : State :=
  ((((s.modItem item fun i => { i with state := .shelved, home := some n, target := none }).modBin n fun b =>
      b.shelve (s.thicknessOf item)).modStation st fun x =>
      { x with returns := x.returns.filter fun e => !decide (e.item = item) })).report
    .returnShelved (.item item) (some (.number n))

/-- ITEM_IN_SCAN past R96 (R132). -/
def State.scanIn (item : Nat) (s : State) (st : Nat) (x : Station) : Scanned :=
  match s.items.look item with
  | none => s.refusedScan st .wrongBin
  | some i =>
    match i.target with
    | none => s.refusedScan st .wrongBin
    | some n =>
      if i.state ≠ .returning then s.refusedScan st .wrongBin
      else if !(x.returns.any fun e => decide (e.item = item)) then s.refusedScan st .wrongBin
      else if s.lockedHere x n then s.refusedScan st .binLocked
      else if s.presentedBin st ≠ some n then s.refusedScan st .wrongBin
      else (s.shelveItem st item n).quiet

/-! ### RETURN_SCAN -/

/-- The home bin of a HELD item is usable at a station (R126). -/
def homeUsable (x : Station) (st : Nat) (b : Bin) : Bool :=
  !(decide (b.state = .missing) || decide (b.state = .inDoubt) || decide (b.state = .lockedOut))
    && (decide (b.trip = some st) || decide (b.home.aisle ∈ x.loaded.linked))

/-- The usable home bin of a HELD item (R126). -/
def State.usableHome (s : State) (x : Station) (st : Nat) (i : Item) : Option (Nat × Bin) :=
  match i.home with
  | none => none
  | some n =>
    match s.bins.look n with
    | none => none
    | some b => if decide (i.state = .held) && homeUsable x st b then some (n, b) else none

/-- The bin cannot be brought to this station because its next station names another (R124, check 5). -/
def calledElsewhere (b : Bin) (st : Nat) : Bool :=
  decide (routeOf b st = .followOn) && b.next.isSome && !decide (b.next = some st)

/-- The checks of R124 on an item of the Item Directory, in their order. -/
def State.returnRefusal (s : State) (x : Station) (st : Nat) (i : Item) : Option ScanCode :=
  if i.state = .returning then some .alreadyReturning
  else if decide (i.state = .shelved) || decide (i.state = .requested) || decide (i.state = .picked) then some .notOut
  else if Config.returnCapacity ≤ x.returns.length then some .returnQueueFull
  else
    match s.usableHome x st i with
    | some (_, b) => if calledElsewhere b st then some .binBusy else none
    | none => none

/-- The target bin is brought to the station by its route (R128); a presented bin's display data is sent again (R131). -/
def State.bringTarget (s : State) (st n : Nat) : Scanned :=
  match s.bins.look n with
  | none => s.quiet
  | some b =>
    match routeOf b st with
    | .join => (if s.presentedBin st = some n then s.offerPresent st else s).quiet
    | .newJob => (s.callBin n st .ret).stirred
    | .followOn => (s.modBin n fun b => { b with next := some (b.next.getD st) }).quiet

/-- An item becomes RETURNING with a target (R127): `rise` is what the target's reserved rises by, 0 for a HELD item that
keeps its home bin. -/
def State.acceptReturn (s : State) (st item n rise : Nat) : Scanned :=
  (((s.modItem item fun i => { i with state := .returning, target := some n }).modBin n fun b => b.reserve rise).modStation
      st fun x => { x with returns := x.returns ++ [{ item := item, target := n }] }).report
    .returnAccepted (.item item) (some (.number n)) |>.bringTarget st n

/-- No target was found (R130). -/
def State.overflowItem (s : State) (st item : Nat) : State :=
  (s.modItem item fun i => { i with state := .overflow, target := none }).report
    .returnOverflow (.item item) (some (.number st))

/-- Selection and its outcome (R127, R130), on the figures as they stand. -/
def State.selectReturn (s : State) (st item : Nat) (i : Item) : Scanned :=
  match s.chooseTarget st i.thickness i.sizeClass i.home with
  | some n => s.acceptReturn st item n i.thickness
  | none => (s.overflowItem st item).quiet

/-- The reservation of a HELD item in its home bin is released (R27). -/
def State.releaseHeld (s : State) (i : Item) : State :=
  match i.state, i.home with
  | .held, some n => s.modBin n fun b => b.release i.thickness
  | _, _ => s

/-- RETURN_SCAN past R96 (R124, R125). -/
def State.scanReturn (item : Nat) (s : State) (st : Nat) (x : Station) : Scanned :=
  match s.items.look item with
  | none => s.refusedScan st .notOut
  | some i =>
    match s.returnRefusal x st i with
    | some c => s.refusedScan st c
    | none =>
      match s.usableHome x st i with
      | some (n, _) => s.acceptReturn st item n 0
      | none => (s.releaseHeld i).selectReturn st item i

/-! ### BIN_DONE -/

/-- One left-over request whose re-call is kept (R121): REQUEST_DELAYED is posted for it. -/
def State.delayOne (st : Nat) (s : State) (r : Request) : State :=
  s.reportRequest .requestDelayed r (some (.number st))

/-- The left-over requests of a kept re-call become AWAITING_BIN (R121). -/
def State.delayRequests (s : State) (n st : Nat) : State :=
  ((s.requests.filter (s.standsFor n st)).foldl (State.delayOne st) s).setRequests
    (s.requests.map fun r => if s.standsFor n st r then { r with state := .awaitingBin } else r)

/-- Requests or return entries of the station are left over on the popped bin (R98). -/
def State.leftOver (s : State) (n st : Nat) : Bool := s.requests.any (s.standsFor n st) || s.awaitedAt n st

/-- What is left over on a popped bin is settled by its next station (R99, R121, R134). -/
def State.settleLeftOver (s : State) (n st : Nat) : State :=
  if s.leftOver n st then
    match (s.bins.look n).bind (·.next) with
    | none => (s.modBin n fun b => { b with next := some st }).delayRequests n st
    | some o =>
      if o = st then s.delayRequests n st
      else (s.failRequests (s.standsFor n st) .binBusy).displaceAt n .binBusy st
  else s

/-- The top place leaves the lane (R86). -/
def State.popLane (s : State) (st : Nat) : State := s.modStation st fun x => { x with lane := x.lane.tail }

/-- A STORE is created for a bin that left a station (R98). -/
def State.createStore (s : State) (n st : Nat) : State :=
  match s.bins.look n with
  | none => s
  | some b => s.addJob b.home.aisle (storeJob n b.home st)

/-- A taken BIN_DONE for the presented bin (R98). -/
def State.releaseToStore (s : State) (n st : Nat) : State :=
  let s1 := (s.popLane st).settleLeftOver n st
  ((s1.setBinState n .homebound).clearTrip n).createStore n st

/-- After any pop the place below becomes the top and is presented if it holds an IN_LANE bin (R97), and the Dispatcher
looks again, because the station's claims have fallen (R88). -/
def State.afterPop (s : State) (st : Nat) : Scanned := (s.presentTop st).stirred

/-- BIN_DONE for the bin at the top of the lane (R97, checks 2 to 4). -/
def State.topDone (s : State) (n st : Nat) : Scanned :=
  if s.binState n = some .lockedOut then s.refusedScan st .binLocked
  else if s.binState n ≠ some .inLane then s.refusedScan st .notPresented
  else if s.named n then s.refusedScan st .binBusy
  else (s.releaseToStore n st).afterPop st

/-- BIN_DONE past R96 (R97). A label is judged against the top place first. DESIGN CHOICE: a foreign tray at the top is popped
without check 4, even where its label has since become a bin of the Bin Map that a job names (R94; log 37). -/
def State.scanDone (label : Nat) (s : State) (st : Nat) (x : Station) : Scanned :=
  if x.lane.head? = some (.tray label) then (s.popLane st).afterPop st
  else if x.lane.head? = some (.bin label) then s.topDone label st
  else if Place.bin label ∈ x.lane then
    s.refusedScan st (if s.binState label = some .lockedOut then .binLocked else .notPresented)
  else if Place.tray label ∈ x.lane then s.refusedScan st .notPresented
  else s.refusedScan st .wrongBin

/-! ### The commands -/

/-- ITEM_OUT_SCAN (R114). -/
def execItemOutScan (src item : Nat) (s : State) : Next :=
  .next (s.admission src 9 .station (State.takeScan .itemOut (State.scanOut item)))

/-- ITEM_IN_SCAN (R132). -/
def execItemInScan (src item : Nat) (s : State) : Next :=
  .next (s.admission src 10 .station (State.takeScan .itemIn (State.scanIn item)))

/-- RETURN_SCAN (R124). -/
def execReturnScan (src item : Nat) (s : State) : Next :=
  .next (s.admission src 11 .station (State.takeScan .returned (State.scanReturn item)))

/-- BIN_DONE (R97). -/
def execBinDone (src label : Nat) (s : State) : Next :=
  .next (s.admission src 12 .station (State.takeScan .binDone (State.scanDone label)))

end Sys2Proof.Machine
end

