-- ==== Sys2Proof/Machine/StationTelegrams.lean ====
section
/-! DEFINITION. The station telegrams that are neither arrivals nor scans: MOUTH_OCCUPIED, MOUTH_CLEAR (R102, R165),
STATION_FAULT (R101), TERMINAL_KEY (R103). -/
namespace Sys2Proof.Machine

/-- Sets a station's mouth (R102). -/
def State.setMouth (s : State) (st : Nat) (occupied : Bool) : State :=
  s.modStation st fun x => { x with mouthOccupied := occupied }

/-- MOUTH_OCCUPIED from a station (R102). -/
def State.takeMouthOccupied (s : State) (st : Nat) : State := s.setMouth st true

/-- A shutter waiting on the mouth is closed without the force mark (R165). -/
def State.closeWaiting (s : State) (n : Nat) : State :=
  match s.shutters.look n with
  | none => s
  | some h =>
    if h.state = .waitingMouth then
      (s.modShutter n fun h => { h with state := .closing, wait := none }).sendShutter n (.closeShutter false)
    else s

/-- MOUTH_CLEAR from a station (R102, R165). -/
def State.takeMouthClear (s : State) (st : Nat) : State :=
  match (s.stations.look st).bind (·.loaded.shutter) with
  | none => s.setMouth st false
  | some n => (s.setMouth st false).closeWaiting n

/-- STATION_FAULT from a station (R101): the lane is held, staged RETRIEVEs bound for it are withdrawn, and the recoverable
major fault is raised. -/
def State.takeStationFault (s : State) (st : Nat) : State :=
  match s.stations.look st with
  | none => s
  | some _ =>
    ((s.holdLane st).raise
      { kind := .stationFault, subject := .station st, jobTag := none, bin := none, detail := none
        recoverable := true }).settleWing

/-- TERMINAL_KEY from a station (R103): forwarded while the station's zone is NORMAL or ALERT, else dropped. -/
def State.takeTerminalKey (data : List Byte) (s : State) (st : Nat) : State :=
  if s.stationOpen st then s.passUp st data else s

/-- MOUTH_OCCUPIED (R102). -/
def execMouthOccupied (src : Nat) (s : State) : Next := .next (s.admission src 13 .station State.takeMouthOccupied)

/-- MOUTH_CLEAR (R102). -/
def execMouthClear (src : Nat) (s : State) : Next := .next (s.admission src 14 .station State.takeMouthClear)

/-- STATION_FAULT (R101). -/
def execStationFault (src : Nat) (s : State) : Next := .next (s.admission src 15 .station State.takeStationFault)

/-- TERMINAL_KEY (R103). -/
def execTerminalKey (src : Nat) (data : List Byte) (s : State) : Next :=
  .next (s.admission src 16 .station (State.takeTerminalKey data))

end Sys2Proof.Machine
end

