-- ==== Sys2Proof/Machine/Dispatch.lean ====
section
/-! DEFINITION. The dispatch of the commands to their meanings, in the order of the table's rows. -/
namespace Sys2Proof.Machine

def exec (i : Instr) (s : State) : Host.Outcome State Fault Refusal :=
  match i with
  | .powerOn firePanel key => Sys2Proof.Machine.execPowerOn firePanel key s
  | .resetLineAsserted => Sys2Proof.Machine.execResetLineAsserted s
  | .firePanelAsserted => Sys2Proof.Machine.execFirePanelAsserted s
  | .firePanelNegated => Sys2Proof.Machine.execFirePanelNegated s
  | .badFrame port bytes => Sys2Proof.Machine.execBadFrame port bytes s
  | .unadmittedFieldTelegram src kind => Sys2Proof.Machine.execUnadmittedFieldTelegram src kind s
  | .sendNextFrame => Sys2Proof.Machine.execSendNextFrame s
  | .restartTakesEffect => Sys2Proof.Machine.execRestartTakesEffect s
  | .requestItem tag station items => Sys2Proof.Machine.execRequestItem tag station items s
  | .withdrawRequest tag request => Sys2Proof.Machine.execWithdrawRequest tag request s
  | .confirmLoan tag item reference => Sys2Proof.Machine.execConfirmLoan tag item reference s
  | .cancelLoan tag item reference => Sys2Proof.Machine.execCancelLoan tag item reference s
  | .callBin tag bin station => Sys2Proof.Machine.execCallBin tag bin station s
  | .moveBin tag bin slot => Sys2Proof.Machine.execMoveBin tag bin slot s
  | .auditBin tag bin => Sys2Proof.Machine.execAuditBin tag bin s
  | .releaseBin tag bin => Sys2Proof.Machine.execReleaseBin tag bin s
  | .aisleOut tag aisle => Sys2Proof.Machine.execAisleOut tag aisle s
  | .aisleIn tag aisle => Sys2Proof.Machine.execAisleIn tag aisle s
  | .shutZone tag zone => Sys2Proof.Machine.execShutZone tag zone s
  | .restoreZone tag zone force key => Sys2Proof.Machine.execRestoreZone tag zone force key s
  | .ackFault tag fault => Sys2Proof.Machine.execAckFault tag fault s
  | .loadGeometryRecord tag aisle fields key => Sys2Proof.Machine.execLoadGeometryRecord tag aisle fields key s
  | .loadRetryOffsetList tag aisle offsets key => Sys2Proof.Machine.execLoadRetryOffsetList tag aisle offsets key s
  | .loadStationRecord tag station fields => Sys2Proof.Machine.execLoadStationRecord tag station fields s
  | .loadZoneRecord tag zone window => Sys2Proof.Machine.execLoadZoneRecord tag zone window s
  | .loadConcentratorRecord tag concentrator address zone period => Sys2Proof.Machine.execLoadConcentratorRecord tag concentrator address zone period s
  | .loadShutterRecord tag shutter address zone => Sys2Proof.Machine.execLoadShutterRecord tag shutter address zone s
  | .loadFieldAddress tag address entry => Sys2Proof.Machine.execLoadFieldAddress tag address entry s
  | .loadReportClass tag kind cls => Sys2Proof.Machine.execLoadReportClass tag kind cls s
  | .loadWingSettings tag confirm stop shutter => Sys2Proof.Machine.execLoadWingSettings tag confirm stop shutter s
  | .binMapAdd tag bin home capacity sizeClass => Sys2Proof.Machine.execBinMapAdd tag bin home capacity sizeClass s
  | .binMapEdit tag bin home capacity sizeClass => Sys2Proof.Machine.execBinMapEdit tag bin home capacity sizeClass s
  | .binMapRetire tag bin => Sys2Proof.Machine.execBinMapRetire tag bin s
  | .itemDirectoryAdd tag item thickness sizeClass state home => Sys2Proof.Machine.execItemDirectoryAdd tag item thickness sizeClass state home s
  | .itemDirectoryEdit tag item thickness sizeClass => Sys2Proof.Machine.execItemDirectoryEdit tag item thickness sizeClass s
  | .itemDirectoryRemove tag item => Sys2Proof.Machine.execItemDirectoryRemove tag item s
  | .readRecord tag table key => Sys2Proof.Machine.execReadRecord tag table key s
  | .closeCommissioning tag => Sys2Proof.Machine.execCloseCommissioning tag s
  | .reopenCommissioning tag key => Sys2Proof.Machine.execReopenCommissioning tag key s
  | .queryStatus tag scope number position key => Sys2Proof.Machine.execQueryStatus tag scope number position key s
  | .readIdentity tag => Sys2Proof.Machine.execReadIdentity tag s
  | .restart tag => Sys2Proof.Machine.execRestart tag s
  | .passDown station text => Sys2Proof.Machine.execPassDown station text s
  | .phase src phase bay level => Sys2Proof.Machine.execPhase src phase bay level s
  | .done src => Sys2Proof.Machine.execDone src s
  | .pickFailed src reason => Sys2Proof.Machine.execPickFailed src reason s
  | .auditResult src reading => Sys2Proof.Machine.execAuditResult src reading s
  | .stopped src phase load forks => Sys2Proof.Machine.execStopped src phase load forks s
  | .parked src reading => Sys2Proof.Machine.execParked src reading s
  | .craneFault src => Sys2Proof.Machine.execCraneFault src s
  | .binArrived src label => Sys2Proof.Machine.execBinArrived src label s
  | .itemOutScan src item => Sys2Proof.Machine.execItemOutScan src item s
  | .itemInScan src item => Sys2Proof.Machine.execItemInScan src item s
  | .returnScan src item => Sys2Proof.Machine.execReturnScan src item s
  | .binDone src label => Sys2Proof.Machine.execBinDone src label s
  | .mouthOccupied src => Sys2Proof.Machine.execMouthOccupied src s
  | .mouthClear src => Sys2Proof.Machine.execMouthClear src s
  | .stationFault src => Sys2Proof.Machine.execStationFault src s
  | .terminalKey src data => Sys2Proof.Machine.execTerminalKey src data s
  | .closed src => Sys2Proof.Machine.execClosed src s
  | .opened src => Sys2Proof.Machine.execOpened src s
  | .jammed src => Sys2Proof.Machine.execJammed src s
  | .beat src token => Sys2Proof.Machine.execBeat src token s
  | .prealarm src detector => Sys2Proof.Machine.execPrealarm src detector s
  | .alarm src detector => Sys2Proof.Machine.execAlarm src detector s
  | .clear src detector => Sys2Proof.Machine.execClear src detector s
  | .trouble src detector => Sys2Proof.Machine.execTrouble src detector s
  | .craneDeadlineExpiry aisle => Sys2Proof.Machine.execCraneDeadlineExpiry aisle s
  | .inTransitDeadlineExpiry station bin => Sys2Proof.Machine.execInTransitDeadlineExpiry station bin s
  | .confirmWindowExpiry request => Sys2Proof.Machine.execConfirmWindowExpiry request s
  | .alertWindowExpiry zone => Sys2Proof.Machine.execAlertWindowExpiry zone s
  | .supervisionExpiry concentrator => Sys2Proof.Machine.execSupervisionExpiry concentrator s
  | .shutterWaitExpiry shutter => Sys2Proof.Machine.execShutterWaitExpiry shutter s
  | .stopWaitExpiry aisle => Sys2Proof.Machine.execStopWaitExpiry aisle s
  | .unknownOrder tag why => Sys2Proof.Machine.execUnknownOrder tag why s

end Sys2Proof.Machine
end

