-- ==== Sys2Proof/Machine/Tick.lean ====
section
/-! DEFINITION. The passing of one ds (R44, R115, R144, R151, R162, R165): every running timer falls by one, and one that
reaches its end puts its expiry command into the queue (log 2). -/
namespace Sys2Proof.Machine

/-- A timer's remaining value after one ds. A timer at its last ds keeps it until its expiry is taken. -/
def fall (n : Nat) : Nat := if n ≤ 1 then n else n - 1

/-- A deadline after one ds: a paused one does not fall (R44). -/
def Deadline.tick (d : Deadline) : Deadline := if d.running then { d with left := fall d.left } else d

def Crane.tick (c : Crane) : Crane := { c with deadline := c.deadline.map Deadline.tick, stopWait := c.stopWait.map fall }
def Station.tick (x : Station) : Station :=
  { x with inTransit := x.inTransit.map fun t => { t with deadline := t.deadline.tick } }
def Zone.tick (x : Zone) : Zone := { x with windowLeft := x.windowLeft.map fall }
def Concentrator.tick (c : Concentrator) : Concentrator := { c with supervision := c.supervision.map fall }
def Shutter.tick (h : Shutter) : Shutter := { h with wait := h.wait.map fall }
def Request.tick (r : Request) : Request := { r with window := r.window.map fall }

/-- The expiry commands of the timers that run out in this ds. DESIGN CHOICE: they stand kind by kind in the table's order; within
a kind by ascending number of the aisle, station, zone, concentrator or shutter; the entries of one station in the order of its
in-transit list, the order of their DONEs (R44), and the confirm windows in the order of the request list (R115) (log 2). -/
def State.expiries (s : State) : List Instr :=
  ((s.aisles.select fun x => x.crane.deadline.any Deadline.out).map Instr.craneDeadlineExpiry)
    ++ (s.stations.flatMap fun e => (e.2.inTransit.filter fun t => t.deadline.out).map fun t =>
          Instr.inTransitDeadlineExpiry e.1 t.bin)
    ++ ((s.requests.filter fun r => r.window.any runsOut).map fun r => Instr.confirmWindowExpiry r.tag)
    ++ ((s.zones.select fun x => x.windowLeft.any runsOut).map Instr.alertWindowExpiry)
    ++ ((s.concentrators.select fun c => c.supervision.any runsOut).map Instr.supervisionExpiry)
    ++ ((s.shutters.select fun h => h.wait.any runsOut).map Instr.shutterWaitExpiry)
    ++ ((s.aisles.select fun x => x.crane.stopWait.any runsOut).map Instr.stopWaitExpiry)

/-- One ds with nothing to take. In COMMISSIONING no timer runs (R196). -/
def State.tick (s : State) : State :=
  match s.mode with
  | .commissioning => s
  | .inService =>
    { s with
      aisles := s.aisles.mapRecords fun _ x => { x with crane := x.crane.tick }
      stations := s.stations.mapRecords fun _ x => x.tick
      zones := s.zones.mapRecords fun _ x => x.tick
      concentrators := s.concentrators.mapRecords fun _ c => c.tick
      shutters := s.shutters.mapRecords fun _ h => h.tick
      requests := s.requests.map Request.tick
      pending := s.pending ++ s.expiries }

end Sys2Proof.Machine
end

