-- ==== Sys2Proof/WellFormed.lean ====
section
/-! DEFINITION. Well-formed commands: every operand is one that the frame, telegram or event of its command can carry. A
field is "its fewest whole bytes" for its range (R186), so a one-byte field holds 0..255, a two-byte field 0..65,535 and an
item number 0..4,294,967,295; an operand of an expiry names a record that can exist. Whether a field lies in its own range
is judged by the command's rule, not here. -/
namespace Sys2Proof

/-- A field of one byte. -/
def inByte (n : Nat) : Bool := decide (n ≤ 255)

/-- A field of two bytes. -/
def inTwoBytes (n : Nat) : Bool := decide (n ≤ 65535)

/-- A field of four bytes. -/
def inFourBytes (n : Nat) : Bool := decide (n ≤ 4294967295)

/-- A body of a frame (Table 11.1). -/
def inBody (l : List Byte) : Bool := decide (l.length ≤ Config.bodyCapacity)

/-- An offset of a retry pair in one byte, two's complement (R69; log 11). -/
def inSignedByte (n : Int) : Bool := decide (-128 ≤ n) && decide (n ≤ 127)

def SlotField.wellFormed (f : SlotField) : Bool :=
  inByte f.aisle && inByte f.bay && inByte f.level && inByte f.side

def Geometry.wellFormed (g : Geometry) : Bool :=
  inByte g.bays && inByte g.levels && inByte g.h0 && inByte g.h1 && inByte g.v0 && inByte g.v1 && inByte g.handling
    && inTwoBytes g.margin && inTwoBytes g.grace && inByte g.zone

/-- Linked aisles are the bits of one byte: a set of the numbers 1..8. -/
def StationFields.wellFormed (f : StationFields) : Bool :=
  inByte f.address && inByte f.zone && inByte f.depth && inTwoBytes f.conveyor
    && f.linked.all (fun a => decide (1 ≤ a) && decide (a ≤ 8)) && decide f.linked.Nodup && f.shutter.all inByte

/-- A label is a number other than the one that means NONE (Table 11.7, Note 1). -/
def Reading.wellFormed : Reading → Bool
  | .none => true
  | .label n => decide (n < 65535)

/-- A kind number, or a table number outside the eleven of Table 11.8. -/
def Unreadable.wellFormed : Unreadable → Bool
  | .kind n => inByte n
  | .table n => inByte n && !(decide (1 ≤ n) && decide (n ≤ 11))

/-- The order's tag, for the commands that are ORDER frames. -/
def Instr.orderTag : Instr → Option Nat
  | .requestItem t _ _ | .withdrawRequest t _ | .confirmLoan t _ _ | .cancelLoan t _ _ | .callBin t _ _
  | .moveBin t _ _ | .auditBin t _ | .releaseBin t _ | .aisleOut t _ | .aisleIn t _ | .shutZone t _
  | .restoreZone t _ _ _ | .ackFault t _ | .loadGeometryRecord t _ _ _ | .loadRetryOffsetList t _ _ _
  | .loadStationRecord t _ _ | .loadZoneRecord t _ _ | .loadConcentratorRecord t _ _ _ _ | .loadShutterRecord t _ _ _
  | .loadFieldAddress t _ _ | .loadReportClass t _ _ | .loadWingSettings t _ _ _ | .binMapAdd t _ _ _ _
  | .binMapEdit t _ _ _ _ | .binMapRetire t _ | .itemDirectoryAdd t _ _ _ _ _ | .itemDirectoryEdit t _ _ _
  | .itemDirectoryRemove t _ | .readRecord t _ _ | .closeCommissioning t | .reopenCommissioning t _
  | .queryStatus t _ _ _ _ | .readIdentity t | .restart t | .unknownOrder t _ => some t
  | .powerOn _ _ | .resetLineAsserted | .firePanelAsserted | .firePanelNegated | .badFrame _ _
  | .unadmittedFieldTelegram _ _ | .sendNextFrame | .restartTakesEffect | .passDown _ _ | .phase _ _ _ _ | .done _
  | .pickFailed _ _ | .auditResult _ _ | .stopped _ _ _ _ | .parked _ _ | .craneFault _ | .binArrived _ _
  | .itemOutScan _ _ | .itemInScan _ _ | .returnScan _ _ | .binDone _ _ | .mouthOccupied _ | .mouthClear _
  | .stationFault _ | .terminalKey _ _ | .closed _ | .opened _ | .jammed _ | .beat _ _ | .prealarm _ _ | .alarm _ _
  | .clear _ _ | .trouble _ _ | .craneDeadlineExpiry _ | .inTransitDeadlineExpiry _ _ | .confirmWindowExpiry _
  | .alertWindowExpiry _ | .supervisionExpiry _ | .shutterWaitExpiry _ | .stopWaitExpiry _ => none

/-- The field address of the sender, for the commands that are FIELD frames. -/
def Instr.sender : Instr → Option Nat
  | .unadmittedFieldTelegram a _ | .phase a _ _ _ | .done a | .pickFailed a _ | .auditResult a _ | .stopped a _ _ _
  | .parked a _ | .craneFault a | .binArrived a _ | .itemOutScan a _ | .itemInScan a _ | .returnScan a _ | .binDone a _
  | .mouthOccupied a | .mouthClear a | .stationFault a | .terminalKey a _ | .closed a | .opened a | .jammed a | .beat a _
  | .prealarm a _ | .alarm a _ | .clear a _ | .trouble a _ => some a
  | .powerOn _ _ | .resetLineAsserted | .firePanelAsserted | .firePanelNegated | .badFrame _ _
  | .sendNextFrame | .restartTakesEffect | .requestItem _ _ _ | .withdrawRequest _ _ | .confirmLoan _ _ _
  | .cancelLoan _ _ _ | .callBin _ _ _ | .moveBin _ _ _ | .auditBin _ _ | .releaseBin _ _ | .aisleOut _ _
  | .aisleIn _ _ | .shutZone _ _ | .restoreZone _ _ _ _ | .ackFault _ _ | .loadGeometryRecord _ _ _ _
  | .loadRetryOffsetList _ _ _ _ | .loadStationRecord _ _ _ | .loadZoneRecord _ _ _ | .loadConcentratorRecord _ _ _ _ _
  | .loadShutterRecord _ _ _ _ | .loadFieldAddress _ _ _ | .loadReportClass _ _ _ | .loadWingSettings _ _ _ _
  | .binMapAdd _ _ _ _ _ | .binMapEdit _ _ _ _ _ | .binMapRetire _ _ | .itemDirectoryAdd _ _ _ _ _ _
  | .itemDirectoryEdit _ _ _ _ | .itemDirectoryRemove _ _ | .readRecord _ _ _ | .closeCommissioning _
  | .reopenCommissioning _ _ | .queryStatus _ _ _ _ _ | .readIdentity _ | .restart _ | .passDown _ _
  | .craneDeadlineExpiry _ | .inTransitDeadlineExpiry _ _ | .confirmWindowExpiry _ | .alertWindowExpiry _
  | .supervisionExpiry _ | .shutterWaitExpiry _ | .stopWaitExpiry _ | .unknownOrder _ _ => none

/-- The operands of a command other than its tag and its sender. -/
def Instr.operandsWellFormed : Instr → Bool
  | .powerOn _ _ | .resetLineAsserted | .firePanelAsserted | .firePanelNegated | .sendNextFrame | .restartTakesEffect => true
  | .badFrame p l => Machine.frameBad p l
  | .unadmittedFieldTelegram _ k => inByte k
  | .requestItem _ st items => inByte st && decide (items.length ≤ 15) && items.all inFourBytes
  | .withdrawRequest _ r => inTwoBytes r
  | .confirmLoan _ i r | .cancelLoan _ i r => inFourBytes i && inTwoBytes r
  | .callBin _ n st => inTwoBytes n && inByte st
  | .moveBin _ n v => inTwoBytes n && v.wellFormed
  | .auditBin _ n | .releaseBin _ n | .binMapRetire _ n => inTwoBytes n
  | .aisleOut _ a | .aisleIn _ a => inByte a
  | .shutZone _ z | .restoreZone _ z _ _ => inByte z
  | .ackFault _ f => inByte f
  | .loadGeometryRecord _ a g _ => inByte a && g.wellFormed
  | .loadRetryOffsetList _ a l _ =>
    inByte a && decide (l.length ≤ 30) && l.all fun p => inSignedByte p.1 && inSignedByte p.2
  | .loadStationRecord _ st f => inByte st && f.wellFormed
  | .loadZoneRecord _ z w => inByte z && inTwoBytes w
  | .loadConcentratorRecord _ n a z p => inByte n && inByte a && inByte z && inTwoBytes p
  | .loadShutterRecord _ n a z => inByte n && inByte a && inByte z
  | .loadFieldAddress _ a d => inByte a && d.all fun d => inByte d.index
  | .loadReportClass _ k _ => inByte k
  | .loadWingSettings _ c p h => inTwoBytes c && inTwoBytes p && inTwoBytes h
  | .binMapAdd _ n v c k | .binMapEdit _ n v c k => inTwoBytes n && v.wellFormed && inTwoBytes c && inByte k
  | .itemDirectoryAdd _ n t k _ h => inFourBytes n && inByte t && inByte k && h.all inTwoBytes
  | .itemDirectoryEdit _ n t k => inFourBytes n && inByte t && inByte k
  | .itemDirectoryRemove _ n => inFourBytes n
  | .readRecord _ t k => inByte t && inFourBytes k
  | .closeCommissioning _ | .reopenCommissioning _ _ | .readIdentity _ | .restart _ => true
  | .queryStatus _ _ n p _ => inByte n && inTwoBytes p
  | .passDown st l => inByte st && inBody l
  | .phase _ _ b l => inByte b && inByte l
  | .done _ | .pickFailed _ _ | .stopped _ _ _ _ | .craneFault _ | .mouthOccupied _ | .mouthClear _ | .stationFault _
  | .closed _ | .opened _ | .jammed _ => true
  | .auditResult _ r | .parked _ r => r.wellFormed
  | .binArrived _ n | .binDone _ n => inTwoBytes n
  | .itemOutScan _ i | .itemInScan _ i | .returnScan _ i => inFourBytes i
  | .terminalKey _ l => inBody l
  | .beat _ t => inByte t
  | .prealarm _ d | .alarm _ d | .clear _ d | .trouble _ d => inByte d
  | .craneDeadlineExpiry a | .stopWaitExpiry a => decide (1 ≤ a) && decide (a ≤ 6)
  | .inTransitDeadlineExpiry st n => decide (1 ≤ st) && decide (st ≤ 4) && decide (n ≤ Config.maxBin)
  | .confirmWindowExpiry t => decide (1 ≤ t) && inTwoBytes t
  | .alertWindowExpiry z => decide (1 ≤ z) && decide (z ≤ 8)
  | .supervisionExpiry n => decide (1 ≤ n) && decide (n ≤ 16)
  | .shutterWaitExpiry n => decide (1 ≤ n) && decide (n ≤ 8)
  | .unknownOrder _ w => w.wellFormed

/-- A command that its frame, telegram or event can carry. -/
def Instr.wellFormed (i : Instr) : Bool :=
  i.orderTag.all inTwoBytes && i.sender.all inByte && i.operandsWellFormed

end Sys2Proof
end

