-- ==== Sys2Proof/Safety.lean ====
section
/-! DEFINITION. What the claims are stated in: the conditions under which a command is taken and completes, the parts of the
records that a command may not touch, and the laws that every step keeps (R10, R24, R56, R59, R105, R123, R168, R178, R187,
R190). -/
namespace Sys2Proof.Machine

/-! ### When a command is taken -/

/-- The circulation port takes an ORDER frame as it arrives: the reply queue holds fewer than 8, no RESTART waits, and no
frame waits before it (R187, R199). -/
def State.portOpen (s : State) : Bool :=
  decide (s.link.replies.length < Config.replyCapacity) && !s.link.restartPending && s.link.waiting.isEmpty

/-- Wing work is taken: the mode is IN_SERVICE and the wing is not HALTED (R187, checks 3 and 4). -/
def State.atWork (s : State) : Bool := s.isInService && !s.isHalted

/-- An ORDER frame with this tag is judged as it arrives: the port takes it, and its tag is not 0 (R187, check 2). -/
def State.receives (s : State) (tag : Nat) : Bool := s.portOpen && !decide (tag = 0)

/-- An order of wing work with this tag comes to its own rule (R187). -/
def State.receivesWork (s : State) (tag : Nat) : Bool := s.receives tag && s.atWork

/-- A field telegram is handed to its block: the source address holds the role and index, and the mode is IN_SERVICE
(R193). -/
def State.admits (s : State) (src : Nat) (r : Role) (n : Nat) : Bool :=
  s.isInService && decide (s.addresses.look src = some { role := r, index := n })

/-- Nothing waits for the end of a command but the jobs of the cranes: no zone in SHUTDOWN meets the condition of R167, no
zone in RESTORING that of R171, and no suspension record is one that resumes (Table 9.4). -/
def State.steady (s : State) : Bool :=
  s.zones.numbers.all (fun z =>
    match s.zoneState z with
    | some .shutdown => !s.securedCondition z
    | some .restoring => !s.restoredCondition z
    | _ => true)
    && s.aisles.all fun e => !e.2.crane.suspension.any Suspension.resumes

/-- The aisle still has the job: it is queued, staged, or active on a crane that is not IDLE (R55). -/
def Aisle.holds (x : Aisle) (j : Job) : Bool :=
  decide (j ∈ x.queue) || decide (x.crane.staged = some j)
    || (decide (x.crane.active = some j) && !decide (x.crane.state = .idle))

/-- What an aisle keeps while the Dispatcher looks at its queues: all but the queue and what its crane is doing. -/
def Aisle.fixed (x : Aisle) :
    Geometry × Service × List (Int × Int) × Option Point × Option Nat × Option Suspension :=
  (x.geom, x.service, x.retry, x.crane.position, x.crane.stopWait, x.crane.suspension)

/-- `t` is `s` after the Dispatcher has withdrawn, staged and activated jobs (R62 to R64): jobs moved between queues and
cranes, none lost, and telegrams were sent; nothing else changed. -/
structure Dispatched (s t : State) : Prop where
  rest : t = { s with aisles := t.aisles, link := { s.link with field := t.link.field } }
  fixed : (t.aisles.map fun e => (e.1, e.2.fixed)) = s.aisles.map fun e => (e.1, e.2.fixed)
  sent : ∃ l, t.link.field = s.link.field ++ l
  jobs : ∀ a x j, s.aisles.look a = some x → x.holds j = true → ∃ y, t.aisles.look a = some y ∧ y.holds j = true

/-- The key level that a command carries, for the orders that test the maintenance key line (R202). -/
def keyLevel : Instr → Option Bool
  | .restoreZone _ _ _ k | .loadGeometryRecord _ _ _ k | .loadRetryOffsetList _ _ _ k | .reopenCommissioning _ k
  | .queryStatus _ _ _ _ k => some k
  | .powerOn _ _ | .resetLineAsserted | .firePanelAsserted | .firePanelNegated | .badFrame _ _
  | .unadmittedFieldTelegram _ _ | .sendNextFrame | .restartTakesEffect | .requestItem _ _ _ | .withdrawRequest _ _
  | .confirmLoan _ _ _ | .cancelLoan _ _ _ | .callBin _ _ _ | .moveBin _ _ _ | .auditBin _ _ | .releaseBin _ _
  | .aisleOut _ _ | .aisleIn _ _ | .shutZone _ _ | .ackFault _ _ | .loadStationRecord _ _ _ | .loadZoneRecord _ _ _
  | .loadConcentratorRecord _ _ _ _ _ | .loadShutterRecord _ _ _ _ | .loadFieldAddress _ _ _ | .loadReportClass _ _ _
  | .loadWingSettings _ _ _ _ | .binMapAdd _ _ _ _ _ | .binMapEdit _ _ _ _ _ | .binMapRetire _ _
  | .itemDirectoryAdd _ _ _ _ _ _ | .itemDirectoryEdit _ _ _ _ | .itemDirectoryRemove _ _ | .readRecord _ _ _
  | .closeCommissioning _ | .readIdentity _ | .restart _ | .passDown _ _ | .phase _ _ _ _ | .done _ | .pickFailed _ _
  | .auditResult _ _ | .stopped _ _ _ _ | .parked _ _ | .craneFault _ | .binArrived _ _ | .itemOutScan _ _
  | .itemInScan _ _ | .returnScan _ _ | .binDone _ _ | .mouthOccupied _ | .mouthClear _ | .stationFault _
  | .terminalKey _ _ | .closed _ | .opened _ | .jammed _ | .beat _ _ | .prealarm _ _ | .alarm _ _ | .clear _ _
  | .trouble _ _ | .craneDeadlineExpiry _ | .inTransitDeadlineExpiry _ _ | .confirmWindowExpiry _
  | .alertWindowExpiry _ | .supervisionExpiry _ | .shutterWaitExpiry _ | .stopWaitExpiry _ | .unknownOrder _ _ => none

/-- The state with the key line as a command that tests it finds it. -/
def State.keyed (s : State) (c : Instr) : State :=
  match keyLevel c with
  | some k => s.setKeyLine k
  | none => s

/-- The kind of an order (Table 11.4), for the commands whose ORDER frame holds the fields of its kind (R187, check 2). -/
def orderKind : Instr → Option OrderKind
  | .requestItem _ _ l => if within 1 8 l.length then some .requestItem else none
  | .withdrawRequest _ _ => some .withdrawRequest
  | .confirmLoan _ _ _ => some .confirmLoan
  | .cancelLoan _ _ _ => some .cancelLoan
  | .callBin _ _ _ => some .callBin
  | .moveBin _ _ _ => some .moveBin
  | .auditBin _ _ => some .auditBin
  | .releaseBin _ _ => some .releaseBin
  | .aisleOut _ _ => some .aisleOut
  | .aisleIn _ _ => some .aisleIn
  | .shutZone _ _ => some .shutZone
  | .restoreZone _ _ _ _ => some .restoreZone
  | .ackFault _ _ => some .ackFault
  | .loadGeometryRecord _ _ _ _ | .loadRetryOffsetList _ _ _ _ | .loadStationRecord _ _ _ | .loadZoneRecord _ _ _
  | .loadConcentratorRecord _ _ _ _ _ | .loadShutterRecord _ _ _ _ | .loadFieldAddress _ _ _ | .loadReportClass _ _ _
  | .loadWingSettings _ _ _ _ | .binMapAdd _ _ _ _ _ | .binMapEdit _ _ _ _ _ | .binMapRetire _ _
  | .itemDirectoryAdd _ _ _ _ _ _ | .itemDirectoryEdit _ _ _ _ | .itemDirectoryRemove _ _ => some .loadRecord
  | .readRecord _ _ _ => some .readRecord
  | .closeCommissioning _ => some .closeCommissioning
  | .reopenCommissioning _ _ => some .reopenCommissioning
  | .queryStatus _ _ _ _ _ => some .queryStatus
  | .readIdentity _ => some .readIdentity
  | .restart _ => some .restart
  | .powerOn _ _ | .resetLineAsserted | .firePanelAsserted | .firePanelNegated | .badFrame _ _
  | .unadmittedFieldTelegram _ _ | .sendNextFrame | .restartTakesEffect | .passDown _ _ | .phase _ _ _ _ | .done _
  | .pickFailed _ _ | .auditResult _ _ | .stopped _ _ _ _ | .parked _ _ | .craneFault _ | .binArrived _ _
  | .itemOutScan _ _ | .itemInScan _ _ | .returnScan _ _ | .binDone _ _ | .mouthOccupied _ | .mouthClear _
  | .stationFault _ | .terminalKey _ _ | .closed _ | .opened _ | .jammed _ | .beat _ _ | .prealarm _ _ | .alarm _ _
  | .clear _ _ | .trouble _ _ | .craneDeadlineExpiry _ | .inTransitDeadlineExpiry _ _ | .confirmWindowExpiry _
  | .alertWindowExpiry _ | .supervisionExpiry _ | .shutterWaitExpiry _ | .stopWaitExpiry _ | .unknownOrder _ _ => none

/-! ### What a command may not touch -/

/-- The records that no crane, station, zone or fault event writes: mode, start cause, the tables that are only loaded, the
lines that come in, the next request tag, and what the circulation port holds and has sent. -/
structure Setup where
  mode : Mode
  startCause : StartCause
  haltedBefore : Bool
  addresses : Table Device
  classes : Table ReportClass
  settings : Settings
  firePanel : Bool
  keyLine : Bool
  nextRequest : Nat
  replies : List Reply
  waiting : List Instr
  restartPending : Bool
  sent : List Frame
  pending : List Instr
  deriving DecidableEq, Repr

/-- The set-up of a state. -/
def State.setup (s : State) : Setup :=
  { mode := s.mode, startCause := s.startCause, haltedBefore := s.haltedBefore, addresses := s.addresses
    classes := s.classes, settings := s.settings, firePanel := s.firePanel, keyLine := s.keyLine
    nextRequest := s.nextRequest, replies := s.link.replies, waiting := s.link.waiting
    restartPending := s.link.restartPending, sent := s.link.sent, pending := s.pending }

/-- The loaded fields of the records (R1, R69, R84, R138, R140, R141): by number, without the working parts. -/
structure Loaded where
  aisles : List (Nat × Geometry × List (Int × Int))
  stations : List (Nat × StationFields)
  zones : List (Nat × Nat)
  concentrators : List (Nat × Nat × Nat × Nat)
  shutters : List (Nat × Nat × Nat)
  deriving DecidableEq, Repr

/-- The loaded fields of a state. -/
def State.loaded (s : State) : Loaded :=
  { aisles := s.aisles.map fun e => (e.1, e.2.geom, e.2.retry)
    stations := s.stations.map fun e => (e.1, e.2.loaded)
    zones := s.zones.map fun e => (e.1, e.2.window)
    concentrators := s.concentrators.map fun e => (e.1, e.2.address, e.2.zone, e.2.period)
    shutters := s.shutters.map fun e => (e.1, e.2.address, e.2.zone) }

/-- The service states, by aisle (R4). -/
def State.services (s : State) : List (Nat × Service) := s.aisles.map fun e => (e.1, e.2.service)

/-- The reports that wait to be sent, with their overrun pending marks (R190). -/
def State.reports (s : State) : List Report × List RoutineEntry × Bool × Bool :=
  (s.link.urgent, s.link.routine, s.link.urgentOverrun, s.link.routineOverrun)

/-! ### The laws that every step keeps -/

/-- R178 and R181: the first-fault record is present in PENDING, both in HALTED, neither in CLEAR; the halted line is
asserted in HALTED alone; the next fault tag is 1..255. -/
def FaultUnit.lawful (f : FaultUnit) : Bool :=
  (match f.state with
   | .clear => f.first.isNone && f.halting.isNone
   | .pending => f.first.isSome && f.halting.isNone
   | .halted => f.first.isSome && f.halting.isSome)
    && decide (f.haltedLine = decide (f.state = .halted)) && within 1 Config.maxFaultTag f.nextTag

/-- R168: the secured line is asserted while at least one zone is SECURED and no zone is in SHUTDOWN. -/
def State.securedLawful (s : State) : Bool := decide (s.securedLine = securedLevel s.zones)

/-- R187 and R190: the reply queue holds 8, the urgent queue 32 and the routine queue 64. -/
def Link.lawful (l : Link) : Bool :=
  decide (l.replies.length ≤ Config.replyCapacity) && decide (l.urgent.length ≤ Config.urgentCapacity)
    && decide (l.routine.length ≤ Config.routineCapacity)

/-- R105: the request list holds 64 records. R123: a return queue holds 8 entries. -/
def State.listsLawful (s : State) : Bool :=
  decide (s.requests.length ≤ Config.requestCapacity)
    && s.stations.all fun e => decide (e.2.returns.length ≤ Config.returnCapacity)

/-- R56: the queue holds its STORE jobs as one run at the head, followed by the jobs of the other kinds. -/
def storesFirst (q : List Job) : Bool := (q.dropWhile Job.isStore).all fun j => !j.isStore

/-- R56 in every aisle. -/
def State.queuesLawful (s : State) : Bool := s.aisles.all fun e => storesFirst e.2.queue

/-- Every table holds no number twice: its numbers rise strictly (R6, R21, R192). -/
def State.tablesLawful (s : State) : Bool :=
  s.aisles.wf && s.stations.wf && s.zones.wf && s.concentrators.wf && s.shutters.wf && s.addresses.wf && s.classes.wf
    && s.bins.wf && s.items.wf

/-- R55, R105: the next job tag and the next request tag are 1..65,535. -/
def State.tagsLawful (s : State) : Bool := within 1 Config.maxTag s.nextJob && within 1 Config.maxTag s.nextRequest

/-! #### Crane records (R59) -/

/-- R59, Tables 4.3 and 4.4: an active job is present on a BUSY crane, and else on one that is PARKING, STOPPING or, frozen,
STOPPED; phase and deadline are present with it alone, and the retry index is 0 without it; a staged job is present on a BUSY crane
alone; a suspension record on a crane that is STOPPED, STOPPING, PARKING or IDLE, beside no active job but the PARK of a crane that
is PARKING or STOPPING (R79, R161). -/
def Crane.lawful (c : Crane) : Bool :=
  (match c.state with
   | .busy => c.active.isSome && c.suspension.isNone
   | .parking | .stopping | .stopped => c.staged.isNone
   | .idle => c.active.isNone && c.staged.isNone
   | .faulted | .outOfService => c.active.isNone && c.staged.isNone && c.suspension.isNone)
    && decide (c.phase.isSome = c.active.isSome) && decide (c.deadline.isSome = c.active.isSome)
    && (c.active.isSome || decide (c.retryIndex = 0))
    && (c.suspension.isNone || (c.active.all (fun j => decide (j.kind = .park)) && !(decide (c.state = .stopped) && c.active.isSome)))

/-- R4, R80, Table 4.4: the crane is FAULTED or OUT_OF_SERVICE exactly where its aisle is OUT_OF_SERVICE. -/
def Aisle.serviceLawful (x : Aisle) : Bool := decide (x.service = .outOfService) == x.crane.state.lost

/-- R59 in every aisle; in COMMISSIONING no job exists (R60, R198). -/
def State.cranesLawful (s : State) : Bool :=
  s.aisles.all fun e => e.2.crane.lawful && e.2.serviceLawful && (s.isInService || e.2.jobs.isEmpty)

/-! #### Home slots (R10) -/

/-- The slots that a bin takes: its home slot and, where present, its pending home (R10). -/
def Bin.slots (b : Bin) : List Slot := b.home :: b.pendingHome.toList

/-- R10: in IN_SERVICE no slot is the home slot or pending home of two bins, or both of one, and every one lies within its aisle's
bays and levels. A pending home is present only while a TRANSFER job names the bin, and so in COMMISSIONING, where no job exists
(R60, R198), on no bin. -/
def State.homesLawful (s : State) : Bool :=
  (if s.isInService then
    decide (s.bins.flatMap fun e => e.2.slots).Nodup && s.bins.all fun e => e.2.slots.all s.slotInBounds
  else s.bins.all fun e => e.2.pendingHome.isNone)
    && s.bins.all fun e =>
      e.2.pendingHome.isNone || s.aisles.any fun x => x.2.jobs.any fun j => decide (j.kind = .transfer) && j.names e.1

/-! #### Shelf space (R24, R30) -/

/-- The item is in the bin: SHELVED or REQUESTED, with the bin as home (R24). -/
def Item.fills (i : Item) (n : Nat) : Bool :=
  (match i.state with
   | .shelved | .requested => true
   | .picked | .lent | .held | .returning | .overflow => false)
    && decide (i.home = some n)

/-- Space of the bin is held for the item: PICKED or HELD, with the bin as home, or RETURNING, with the bin as target (R24). -/
def Item.reserves (i : Item) (n : Nat) : Bool :=
  match i.state with
  | .picked | .held => decide (i.home = some n)
  | .returning => decide (i.target = some n)
  | .shelved | .requested | .lent | .overflow => false

/-- The sum of the thicknesses of the items for which `p` holds. -/
def shelfSpace (t : Table Item) (p : Item → Bool) : Nat := ((t.filter fun e => p e.2).map fun e => e.2.thickness).sum

/-- R24, Laws 2 and 3, in every mode: a bin's fill is the sum over the items in it, its reserved that over the items for which space
is held, and its count the number of items in it. Law 1 in IN_SERVICE: fill and reserved do not exceed the capacity. -/
def State.figuresLawful (s : State) : Bool :=
  s.bins.all fun e =>
    decide (e.2.fill = shelfSpace s.items (·.fills e.1)) && decide (e.2.reserved = shelfSpace s.items (·.reserves e.1))
      && decide (e.2.count = s.items.countP fun i => i.2.fills e.1)
      && (!s.isInService || decide (e.2.fill + e.2.reserved ≤ e.2.capacity))

/-- R30 with Table 2.1: every item is 1..250 mm thick; the home bin of an item that is in it or has space held in it, and the target
bin of a RETURNING item, stand in the Bin Map. -/
def State.binsPresent (s : State) : Bool :=
  s.items.all fun e =>
    within 1 250 e.2.thickness
      && match e.2.state with
         | .shelved | .requested | .picked | .held => e.2.home.any fun n => (s.bins.look n).isSome
         | .returning => e.2.target.any fun n => (s.bins.look n).isSome
         | .lent | .overflow => true

/-- R105, R106: each request stands for an item of its own, under a tag of its own: a PICKED item for a PICKED request, a REQUESTED
item, without a confirm window, for another; and each REQUESTED or PICKED item has its request. -/
def State.requestsLawful (s : State) : Bool :=
  decide (s.requests.map (·.tag)).Nodup && decide (s.requests.map (·.item)).Nodup
    && s.requests.all (fun r =>
      (s.items.look r.item).any fun i =>
        if r.state = .picked then decide (i.state = .picked) else decide (i.state = .requested) && r.window.isNone)
    && s.items.all fun e =>
      match e.2.state with
      | .requested | .picked => s.requests.any fun r => decide (r.item = e.1)
      | .shelved | .lent | .held | .returning | .overflow => true

/-- The return entries of all stations (R123). -/
def State.returnEntries (s : State) : List ReturnEntry := s.stations.flatMap fun e => e.2.returns

/-- R123: each return entry stands for a RETURNING item of its own, with the item's target; and each RETURNING item has its entry. -/
def State.returnsLawful (s : State) : Bool :=
  decide (s.returnEntries.map (·.item)).Nodup
    && s.returnEntries.all (fun e =>
      (s.items.look e.item).any fun i => decide (i.state = .returning) && decide (i.target = some e.target))
    && s.items.all fun e =>
      !decide (e.2.state = .returning) || s.returnEntries.any fun q => decide (q.item = e.1)

/-- R24 with what keeps it: the figures agree with the items, the items with their bins (R30), the request list and the return
queues with the items (R105, R123); in COMMISSIONING both are empty (R31, R198). -/
def State.stockLawful (s : State) : Bool :=
  s.figuresLawful && s.binsPresent && s.requestsLawful && s.returnsLawful
    && (s.isInService || (s.requests.isEmpty && s.returnEntries.isEmpty))

/-! ### What the end of a command leaves -/

/-- `t` is `u` after the zones have been judged, the staged jobs that stopped being eligible withdrawn, and the Dispatcher has
looked at its queues: exactly `settleWing`, which the statement on the Dispatcher gives zone by zone and aisle by aisle. So where
nothing waits but jobs the Dispatcher alone has acted; a zone in SHUTDOWN that meets the condition of R167 is SECURED, and the
restoration of a zone that meets that of R171 is complete. -/
structure Settled (u t : State) : Prop where
  looked : t = u.settleWing
  steady : u.steady = true → Dispatched u t
  secured : ∀ z, u.tablesLawful = true → u.zoneState z = some .shutdown → u.securedCondition z = true →
    t.zoneState z = some .secured
  restored : ∀ z, u.tablesLawful = true → u.zoneState z = some .restoring → u.restoredCondition z = true →
    t.zoneState z = some .normal ∨ t.zoneState z = some .alert

/-- `t` is `s` after a condition of the cause set of zone `z` has changed (R148): the set is re-formed, and a zone in NORMAL
that has a cause becomes ALERT with its window armed and ZONE_STATE posted (R150). -/
def Reformed (s t : State) (z : Nat) : Prop :=
  ∃ x, s.zones.look z = some x ∧
    (if x.state = .normal ∧ (s.causesOf z x.causes.start).isEmpty = false then
      Settled
        ({ s with zones := s.zones.adjust z fun x =>
            { x with state := .alert, causes := s.causesOf z x.causes.start, windowLeft := some x.window } }.report
          .zoneState (.zone z) (some (.zoneState .alert))) t
    else t = { s with zones := s.zones.adjust z fun x => { x with causes := s.causesOf z x.causes.start } })

/-! ### What a stop leaves of an aisle -/

/-- The staged job has gone back to its queue (R64). -/
def Aisle.unstaged (x : Aisle) : Aisle :=
  match x.crane.staged with
  | none => x
  | some j => { x with queue := rejoinQueue x.queue j, crane := { x.crane with staged := none } }

/-- STOP has been sent to the crane (R79, R160, R181): the staged job is withdrawn, a queued PARK removed, the stop wait
armed. -/
def Aisle.sentStop (wait : Nat) (x : Aisle) : Aisle :=
  { x.unstaged with
    queue := x.unstaged.queue.filter fun j => !decide (j.kind = .park)
    crane := { x.unstaged.crane with state := .stopping, stopWait := some wait } }

/-- The aisle as the entry of its zone to SHUTDOWN leaves it (R160). -/
def Aisle.entered (wait : Nat) (x : Aisle) : Aisle :=
  match x.crane.state with
  | .busy | .parking => x.sentStop wait
  | .idle =>
    { x.sentStop wait with
      crane := { (x.sentStop wait).crane with
        suspension := x.crane.suspension.map fun r => { r with parkLabel := none } } }
  | .stopping => { x with crane := { x.crane with stopWait := some (x.crane.stopWait.getD wait) } }
  | .stopped =>
    match x.crane.active with
    | none => x
    | some j =>
      { x with
        crane := { x.crane with
          active := none, phase := none, deadline := none, retryIndex := 0
          suspension := some
            { job := j, phaseAtStop := x.crane.phase.getD .toSource
              load := decide (x.crane.phase = some .toDest) || decide (x.crane.phase = some .placing)
              forks := true, recoverable := false, pausedLeft := (x.crane.deadline.map (·.left)).getD 1
              parkLabel := none } } }
  | .faulted | .outOfService => x

/-- The aisle after its zone has entered SHUTDOWN and the Dispatcher has looked (R160, R64). -/
def Aisle.shut (wait : Nat) (x : Aisle) : Aisle := (x.entered wait).unstaged

/-- An active job other than PARK is held frozen, its deadline paused (R181). -/
def Aisle.frozen (x : Aisle) : Aisle :=
  if x.crane.active.any fun j => !decide (j.kind = .park) then
    { x with crane := { x.crane with deadline := x.crane.deadline.map fun d => { d with running := false } } }
  else x

/-- The aisle after the wing has become HALTED (R181). -/
def Aisle.halted (wait : Nat) (x : Aisle) : Aisle :=
  match x.crane.state with
  | .busy | .parking | .idle => (x.sentStop wait).frozen
  | .stopping => x.frozen
  | .stopped | .faulted | .outOfService => x

/-- A shutter after a close has been started on it (R164). -/
def Shutter.shut (occupied : Bool) (wait : Nat) (h : Shutter) : Shutter :=
  match h.state with
  | .opened | .opening =>
    if occupied then { h with state := .waitingMouth, wait := some wait } else { h with state := .closing }
  | .jammed | .closing | .waitingMouth | .closed => h

/-- A report of a zone's new state (R149), without an order tag (DESIGN CHOICE, log 44). -/
def zoneReport (v : ZoneState) (z : Nat) : Report :=
  { kind := .zoneState, subject := .zone z, order := none, code := some (.zoneState v) }

/-- Posts reports, in their order. -/
def State.posted (s : State) (l : List Report) : State := l.foldl State.post s

/-- `u` is `s` after the zones of `l` have entered SHUTDOWN in their order, before the zones are judged and the Dispatcher looks
(R152, R159, R160, R164, R168). -/
structure Entered (s u : State) (l : List Nat) : Prop where
  rest : u = { s with
    zones := s.zones.mapRecords fun z x => if z ∈ l then { x with state := .shutdown, windowLeft := none } else x
    securedLine := securedLevel u.zones
    aisles := s.aisles.mapRecords fun _ x => if x.geom.zone ∈ l then x.entered s.settings.stop else x
    stations := s.stations.mapRecords fun _ x =>
      if x.loaded.zone ∈ l then
        { x with inTransit := x.inTransit.map fun e => { e with deadline := { e.deadline with running := false } } }
      else x
    shutters := s.shutters.mapRecords fun n h =>
      if h.zone ∈ l then h.shut (s.mouthOccupiedAt n) s.settings.shutter else h
    link := { (s.posted (l.map (zoneReport .shutdown))).link with field := u.link.field } }
  sent : ∃ m, u.link.field = s.link.field ++ m
    ∧ (∀ st x, s.stations.look st = some x → x.loaded.zone ∈ l →
        fieldFrame x.loaded.address .hold ∈ m
        ∧ fieldFrame x.loaded.address .retract ∈ m)
    ∧ (∀ a x d, s.aisles.look a = some x → x.geom.zone ∈ l → s.craneAddress a = some d →
        (x.crane.state = .busy ∨ x.crane.state = .idle ∨ x.crane.state = .parking) →
        fieldFrame d .stop ∈ m)
    ∧ ∀ n h, s.shutters.look n = some h → h.zone ∈ l →
        (h.state = .jammed ∨ ((h.state = .opened ∨ h.state = .opening) ∧ s.mouthOccupiedAt n = false)) →
        fieldFrame h.address (.closeShutter false) ∈ m

/-- `t` is `s` after the zones of `l` have entered SHUTDOWN in their order, and those that meet the condition of R167 have
become SECURED (R152, R159, R160, R164, R167, R168). -/
structure Shut (s t : State) (l : List Nat) : Prop where
  rest : t = { s with zones := t.zones, aisles := t.aisles, stations := t.stations, shutters := t.shutters
                      securedLine := securedLevel t.zones
                      link := { s.link with urgent := t.link.urgent, urgentOverrun := t.link.urgentOverrun
                                            field := t.link.field } }
  zones : t.zones = s.zones.mapRecords fun z x =>
    if z ∈ l then { x with state := if t.securedCondition z then .secured else .shutdown, windowLeft := none } else x
  reports : (t.link.urgent, t.link.urgentOverrun)
    = let w := s.posted (l.map (zoneReport .shutdown) ++ (l.filter t.securedCondition).map (zoneReport .secured))
      (w.link.urgent, w.link.urgentOverrun)
  cranes : ∀ a x, s.aisles.look a = some x → x.geom.zone ∈ l → t.aisles.look a = some (x.shut s.settings.stop)
  others : ∀ a x, s.aisles.look a = some x → x.geom.zone ∉ l →
    ∃ y, t.aisles.look a = some y ∧ y.fixed = x.fixed ∧ ∀ j, x.holds j = true → y.holds j = true
  stations : t.stations = s.stations.mapRecords fun _ x =>
    if x.loaded.zone ∈ l then
      { x with inTransit := x.inTransit.map fun e => { e with deadline := { e.deadline with running := false } } }
    else x
  shutters : t.shutters = s.shutters.mapRecords fun n h =>
    if h.zone ∈ l then h.shut (s.mouthOccupiedAt n) s.settings.shutter else h
  sent : ∃ m, t.link.field = s.link.field ++ m
    ∧ (∀ st x, s.stations.look st = some x → x.loaded.zone ∈ l →
        fieldFrame x.loaded.address .hold ∈ m
        ∧ fieldFrame x.loaded.address .retract ∈ m)
    ∧ ∀ a x d, s.aisles.look a = some x → x.geom.zone ∈ l → s.craneAddress a = some d →
        (x.crane.state = .busy ∨ x.crane.state = .idle ∨ x.crane.state = .parking) →
        fieldFrame d .stop ∈ m

end Sys2Proof.Machine
end

