-- ==== Sys2Proof/Certificates/Slice0/Obligations.lean ====
section
/-! DEFINITION. The statements for the provers, rule by rule. A statement about a command gives, under hypotheses on the
state and the operands alone, the next state that `exec` answers: as an equation, where the command changes only what it
names, and as `Settled` of such a state, where the zones are then judged and the Dispatcher looks at its queues. -/
open Sys2Proof Sys2Proof.Machine

/-! ### Steps, power and reset -/

/-- One step takes the command at the front of the queue and runs its meaning on the rest. -/
def Obligations.StepRunsFrontCommand : Prop :=
  ∀ (c : Instr) (rest : List Instr) (s : State), s.pending = c :: rest → step s = exec c (s.setPending rest)

/-- The model's choice (log 2): with no command waiting one ds passes. In COMMISSIONING nothing changes. In IN_SERVICE every
running timer falls by one, but that one at its last ds keeps it, and the queue is exactly the expiry commands of those, kind by
kind in the table's order and by ascending number, those of one station in the order of its in-transit list and the confirm
windows in that of the request list; a paused deadline stands still, and every other field keeps its value. -/
def Obligations.EmptyQueuePassesOneDs : Prop :=
  ∀ s : State, s.pending = [] →
    let fall (n : Nat) : Nat := if n ≤ 1 then n else n - 1
    let last (o : Option Nat) : Bool := decide (o = some 0) || decide (o = some 1)
    let down (d : Deadline) : Deadline := if d.running then { d with left := fall d.left } else d
    let ends (d : Deadline) : Bool := d.running && last (some d.left)
    (s.mode = .commissioning → step s = .next s)
    ∧ (s.mode = .inService → step s = .next
        { s with
          aisles := s.aisles.mapRecords fun _ x =>
            { x with crane := { x.crane with deadline := x.crane.deadline.map down, stopWait := x.crane.stopWait.map fall } }
          stations := s.stations.mapRecords fun _ x =>
            { x with inTransit := x.inTransit.map fun e => { e with deadline := down e.deadline } }
          zones := s.zones.mapRecords fun _ x => { x with windowLeft := x.windowLeft.map fall }
          concentrators := s.concentrators.mapRecords fun _ c => { c with supervision := c.supervision.map fall }
          shutters := s.shutters.mapRecords fun _ h => { h with wait := h.wait.map fall }
          requests := s.requests.map fun r => { r with window := r.window.map fall }
          pending :=
            (s.aisles.filterMap fun e => if e.2.crane.deadline.any ends then some (.craneDeadlineExpiry e.1) else none)
            ++ (s.stations.flatMap fun e => e.2.inTransit.filterMap fun t =>
                  if ends t.deadline then some (.inTransitDeadlineExpiry e.1 t.bin) else none)
            ++ (s.requests.filterMap fun r => if last r.window then some (.confirmWindowExpiry r.tag) else none)
            ++ (s.zones.filterMap fun e => if last e.2.windowLeft then some (.alertWindowExpiry e.1) else none)
            ++ (s.concentrators.filterMap fun e => if last e.2.supervision then some (.supervisionExpiry e.1) else none)
            ++ (s.shutters.filterMap fun e => if last e.2.wait then some (.shutterWaitExpiry e.1) else none)
            ++ s.aisles.filterMap fun e => if last e.2.crane.stopWait then some (.stopWaitExpiry e.1) else none })

/-- The values that the spec gives for power-on (R19, R35, R55, R105, R178, R185, R189, R190, R192, R194, R196, R200); POWER_ON
gives every record its reset value, with the fire panel mark and the key line at the levels of their lines (R153, R202). The
model's choices: the commands that wait outside stay (log 31), and the frames that wait in the port (log 8) and the lists of
what the ports have sent (log 9) are emptied. -/
def Obligations.PowerOnGivesResetValues : Prop :=
  (∀ (panel key : Bool) (s : State),
    exec (.powerOn panel key) s =
      .next { State.reset with firePanel := panel, keyLine := key, pending := s.pending })
    ∧ State.reset.mode = .commissioning ∧ State.reset.startCause = .powerOn ∧ State.reset.haltedBefore = false
    ∧ State.reset.aisles = [] ∧ State.reset.stations = [] ∧ State.reset.zones = [] ∧ State.reset.concentrators = []
    ∧ State.reset.shutters = [] ∧ State.reset.addresses = [] ∧ State.reset.classes = []
    ∧ State.reset.settings = { confirm := 1200, stop := 150, shutter := 300 }
    ∧ State.reset.bins = [] ∧ State.reset.items = [] ∧ State.reset.requests = [] ∧ State.reset.nextRequest = 1
    ∧ State.reset.nextJob = 1
    ∧ State.reset.faults = { state := .clear, first := none, halting := none, nextTag := 1, haltedLine := false }
    ∧ State.reset.securedLine = false ∧ State.reset.link.replies = [] ∧ State.reset.link.urgent = []
    ∧ State.reset.link.routine = [] ∧ State.reset.link.urgentOverrun = false
    ∧ State.reset.link.routineOverrun = false ∧ State.reset.link.restartPending = false

/-- Every law that the steps keep holds of the reset state. -/
def Obligations.ResetMeetsTheLaws : Prop :=
  State.reset.faults.lawful = true ∧ State.reset.securedLawful = true ∧ State.reset.link.lawful = true
    ∧ State.reset.listsLawful = true ∧ State.reset.queuesLawful = true ∧ State.reset.tablesLawful = true
    ∧ State.reset.tagsLawful = true ∧ State.reset.cranesLawful = true ∧ State.reset.homesLawful = true
    ∧ State.reset.stockLawful = true

/-! ### Laws that every step keeps -/

/-- R178, R181: a first-fault record in PENDING, both records in HALTED, neither in CLEAR; the halted line is asserted in
HALTED alone; the next fault tag is 1..255. R168: the secured line is asserted while at least one zone is SECURED and no zone is in
SHUTDOWN. -/
def Obligations.StepKeepsFaultUnitAndSecuredLine : Prop :=
  ∀ s t : State, step s = .next t →
    (s.faults.lawful = true → t.faults.lawful = true) ∧ (s.securedLawful = true → t.securedLawful = true)

/-- R187, R190: the reply queue never holds more than 8, the urgent queue 32, the routine queue 64. R105, R123: the request
list never holds more than 64 records, a return queue never more than 8 entries. R56: every job queue holds its STORE jobs as one run
at the head. R6, R21, R192: no table ever holds a number twice. R55, R105: the next job tag and the next request tag stay within
1..65,535. -/
def Obligations.StepKeepsListsTablesAndTags : Prop :=
  ∀ s t : State, step s = .next t →
    (s.link.lawful = true → t.link.lawful = true) ∧ (s.listsLawful = true → t.listsLawful = true)
      ∧ (s.queuesLawful = true → t.queuesLawful = true) ∧ (s.tablesLawful = true → t.tablesLawful = true)
      ∧ (s.tagsLawful = true → t.tagsLawful = true)

/-- R59, R79, R161: a BUSY crane holds an active job, an IDLE, FAULTED or OUT_OF_SERVICE one none; phase and deadline are present with
an active job alone, the retry index is 0 without one, a staged job is present on a BUSY crane alone, and a suspension record on no
crane that is BUSY, FAULTED or OUT_OF_SERVICE and beside no active job but a PARK. In IN_SERVICE no slot is the home slot or pending
home of two bins and every one lies within its aisle's bays and levels; a pending home is present only on a bin that a TRANSFER
names (R10). -/
def Obligations.StepKeepsCraneRecordsAndHomeSlots : Prop :=
  ∀ s t : State, s.cranesLawful = true → s.tablesLawful = true → step s = .next t →
    t.cranesLawful = true ∧ (s.homesLawful = true → t.homesLawful = true)

/-- In every mode each bin's fill is the sum of the thicknesses of the SHELVED and REQUESTED items whose home it is, its count
their number, and its reserved the sum over the PICKED and HELD items whose home it is and the RETURNING items whose target it is
(R24, Laws 2 and 3); in IN_SERVICE fill plus reserved do not exceed the capacity (R24, Law 1). Those bins stand in the Bin Map (R30),
and the request list and the return queues agree with the items (R105, R123). -/
def Obligations.StepKeepsShelfSpaceFigures : Prop :=
  ∀ s t : State, s.stockLawful = true → s.tablesLawful = true → s.listsLawful = true → s.tagsLawful = true →
    step s = .next t → t.stockLawful = true

/-! ### Rules of the whole wing -/

/-- R182, R183: while the wing is HALTED, no command but a power-on or a restart changes the Fault Unit's records or
negates the halted line. -/
def Obligations.HaltEndsOnlyByRestart : Prop :=
  ∀ (c : Instr) (s t : State), s.isHalted = true → exec c s = .next t → (∀ p k, c ≠ .powerOn p k) →
    c ≠ .resetLineAsserted → c ≠ .restartTakesEffect → t.faults = s.faults

/-- R193, R196, R103: in COMMISSIONING every field telegram is dropped, pass-through is dropped, and no timer runs out. That
an expiry command for a timer that does not run is taken without effect is the model's (log 3, DEDUCED). -/
def Obligations.CommissioningDropsTheField : Prop :=
  ∀ (c : Instr) (s : State), s.mode = .commissioning →
    (c.sender.isSome = true ∨ (∃ st l, c = .passDown st l) ∨ (∃ a, c = .craneDeadlineExpiry a)
      ∨ (∃ st n, c = .inTransitDeadlineExpiry st n) ∨ (∃ k, c = .confirmWindowExpiry k)
      ∨ (∃ z, c = .alertWindowExpiry z) ∨ (∃ n, c = .supervisionExpiry n) ∨ (∃ n, c = .shutterWaitExpiry n)
      ∨ ∃ a, c = .stopWaitExpiry a) →
    exec c s = .next s

/-- R187, checks 2 to 4, for every order whose body holds its fields: tag 0 is MALFORMED; in HALTED every order but
QUERY_STATUS, READ_RECORD, READ_IDENTITY and RESTART is refused HALTED; in COMMISSIONING the twelve orders of wing work
are refused NOT_IN_SERVICE. The refusal leaves all state unchanged but for its reply (and the key line as read). -/
def Obligations.OrderChecksRefuseInOrder : Prop :=
  ∀ (c : Instr) (k : OrderKind) (tag : Nat) (s : State), s.portOpen = true → orderKind c = some k →
    c.orderTag = some tag →
    (tag = 0 → exec c s = .next ((s.keyed c).refuseOrder 0 .malformed 0))
    ∧ (tag ≠ 0 → s.isHalted = true → k.takenInHalted = false →
        exec c s = .next ((s.keyed c).refuseOrder tag .halted 0))
    ∧ (tag ≠ 0 → s.isHalted = false → s.mode = .commissioning → k.wingWork = true →
        exec c s = .next ((s.keyed c).refuseOrder tag .notInService 0))

/-- R187: while the reply queue holds 8, an ORDER frame waits in the port, and it is taken when SEND_NEXT_FRAME frees a
place. R199: the port takes no order while a RESTART waits to take effect. The list of the frames that wait, which has no
bound, is the model's choice (log 8). -/
def Obligations.OrderWaitsForAReplyPlace : Prop :=
  ∀ (c : Instr) (k : OrderKind) (s : State), orderKind c = some k →
    ((Config.replyCapacity ≤ s.link.replies.length ∨ s.link.restartPending = true) →
      exec c s = .next (s.setLink { s.link with waiting := s.link.waiting ++ [c] }))
    ∧ (s.link.waiting = [c] → s.link.replies.length = Config.replyCapacity → s.link.restartPending = false →
        exec .sendNextFrame s = .next (runOrder c (s.setLink { s.link.arbitrate with waiting := [] })))

/-- R196: the mode changes by CLOSE_COMMISSIONING and REOPEN_COMMISSIONING, and by power-on. -/
def Obligations.ModeChangesOnlyByCloseOrReopen : Prop :=
  ∀ (c : Instr) (s t : State), exec c s = .next t → (∀ p k, c ≠ .powerOn p k) →
    (∀ i ∈ c :: s.link.waiting,
      orderKind i ≠ some .closeCommissioning ∧ orderKind i ≠ some .reopenCommissioning) →
    t.mode = s.mode

/-- R194: in IN_SERVICE the tables that are loaded in COMMISSIONING stand, but for the keyed rework of an aisle's geometry
and retry list. -/
def Obligations.LoadedTablesStandInService : Prop :=
  ∀ (c : Instr) (s t : State), s.isInService = true → exec c s = .next t → (∀ p k, c ≠ .powerOn p k) →
    (∀ i ∈ c :: s.link.waiting, orderKind i ≠ some .reopenCommissioning
      ∧ (∀ tag a g, i ≠ .loadGeometryRecord tag a g true) ∧ (∀ tag a l, i ≠ .loadRetryOffsetList tag a l true)) →
    t.loaded = s.loaded ∧ t.addresses = s.addresses ∧ t.classes = s.classes ∧ t.settings = s.settings

/-! ### Arithmetic and selection -/

/-- R37: the leg time, its symmetry, its value at one point, and the bounds that Table 1.1 gives it and its two parts. -/
def Obligations.LegTimeIsTheLargerOfTwo : Prop :=
  ∀ (g : Geometry) (p q : Point),
    leg g p q =
      max (if p.bay = q.bay then 0 else g.h0 + g.h1 * ((p.bay : Int) - (q.bay : Int)).natAbs)
        (if p.level = q.level then 0 else g.v0 + g.v1 * ((p.level : Int) - (q.level : Int)).natAbs)
    ∧ leg g p q = leg g q p ∧ leg g p p = 0
    ∧ (geometryInRange g = true → p.bay ≤ 120 → q.bay ≤ 120 → within 1 24 p.level = true →
        within 1 24 q.level = true → legH g p q ≤ 6100 ∧ legV g p q ≤ 1250 ∧ leg g p q ≤ 6100)

/-- R42: the deadline armed from an estimate. Table 3.2 (R40) gives the estimate of a job activated or promoted at a point, by its
kind, with its bounds, and R41 that of a job resumed at the front port; the conveyor time is that of the job's station. -/
def Obligations.DeadlineFollowsFromEstimate : Prop :=
  ∀ (g : Geometry) (e : Nat),
    (e = 0 → deadlineFor g e = 1)
    ∧ (0 < e → ∃ m, e * g.margin ≤ 100 * m ∧ 100 * m < e * g.margin + 100
        ∧ (e * g.margin % 100 = 0 → m = e * g.margin / 100) ∧ (g.margin = 0 → m = 0)
        ∧ (65535 < e + m + g.grace → deadlineFor g e = 65535)
        ∧ (e + m + g.grace ≤ 65535 → deadlineFor g e = e + m + g.grace)
        ∧ (geometryInRange g = true → e ≤ 13200 → e * g.margin ≤ 5280000 ∧ e + m + g.grace ≤ 69000))
    ∧ 1 ≤ deadlineFor g e ∧ deadlineFor g e ≤ 65535 ∧ (e ≤ 13200 → e ≤ deadlineFor g e)
    ∧ ∀ (c : Nat) (j : Job) (p : Point) (s : State),
        let port : Point := { bay := 0, level := 1 }
        let at_ (v : Slot) : Point := { bay := v.bay, level := v.level }
        (j.kind = .retrieve → ∀ v, j.source = some (.slot v) →
            estimate g c j p = leg g p (at_ v) + g.handling + leg g (at_ v) port + g.handling + c)
        ∧ (j.kind = .store → ∀ v, j.destination = .slot v →
            estimate g c j p = leg g p port + g.handling + leg g port (at_ v) + g.handling + c)
        ∧ (j.kind = .transfer → ∀ v w, j.source = some (.slot v) → j.destination = .slot w →
            estimate g c j p = leg g p (at_ v) + g.handling + leg g (at_ v) (at_ w) + g.handling)
        ∧ (j.kind = .audit → ∀ v, j.destination = .slot v → estimate g c j p = leg g p (at_ v) + g.handling)
        ∧ (j.kind = .park → estimate g c j p = leg g p port)
        ∧ (j.kind = .retrieve → resumeEstimate g c j = g.handling + c)
        ∧ (j.kind = .store ∨ j.kind = .transfer → ∀ v, j.destination = .slot v →
            resumeEstimate g c j = leg g port (at_ v) + g.handling)
        ∧ (∀ st x, j.station = some st → s.stations.look st = some x → s.conveyorOf j = x.loaded.conveyor)
        ∧ (j.kind ≠ .park → g.handling ≤ estimate g c j p)
        ∧ (geometryInRange g = true → c ≤ 600 → p.bay ≤ 120 → within 1 24 p.level = true →
            (∀ v, j.source = some (.slot v) → v.bay ≤ 120 ∧ within 1 24 v.level = true) →
            (∀ v, j.destination = .slot v → v.bay ≤ 120 ∧ within 1 24 v.level = true) →
            estimate g c j p ≤ (match j.kind with
              | .retrieve | .store => 13200
              | .transfer => 12600
              | .audit => 6300
              | .park => 6100)
            ∧ (j.kind = .park → (estimate g c j p = 0 ↔ p = port)))

/-- R50, R52 to R54: a bin of the item's size class with room for it is a candidate where it is IN_LANE in the station's lane, or is
STORED in a linked aisle IN_SERVICE in a NORMAL zone, with no next station and named by no job; a rack candidate costs its leg from
the front port and 100 for each queued job of its aisle. The target of a returned item is a candidate, and none is chosen only where
there is none. The home bin comes first; else the lane candidate nearest the top; else the rack candidate of least cost, then of
least space left, then of least number. -/
def Obligations.ReturnTargetIsTheFirstChoice : Prop :=
  ∀ (s : State) (st t cls : Nat) (home : Option Nat), s.bins.wf = true →
    let fits (b : Bin) : Prop := b.sizeClass = cls ∧ b.fill + b.reserved + t ≤ b.capacity
    (∀ n, s.isLaneCandidate st t cls n = true ↔
      ∃ b, s.bins.look n = some b ∧ fits b ∧ b.state = .inLane
        ∧ ∃ x, s.stations.look st = some x ∧ Place.bin n ∈ x.lane)
    ∧ (∀ n, s.isRackCandidate st t cls n = true ↔
      ∃ b, s.bins.look n = some b ∧ fits b ∧ b.state = .stored ∧ b.next = none
        ∧ (∀ e ∈ s.aisles, (∀ j ∈ e.2.queue, j.bin ≠ some n) ∧ (∀ j ∈ e.2.crane.staged, j.bin ≠ some n)
            ∧ (∀ j ∈ e.2.crane.active, j.bin ≠ some n) ∧ ∀ r ∈ e.2.crane.suspension, r.job.bin ≠ some n)
        ∧ (∃ a, s.aisles.look b.home.aisle = some a ∧ a.service = .inService
            ∧ ∃ z, s.zones.look a.geom.zone = some z ∧ z.state = .normal)
        ∧ ∃ x, s.stations.look st = some x ∧ b.home.aisle ∈ x.loaded.linked)
    ∧ (∀ n, s.isCandidate st t cls n = true ↔ s.isLaneCandidate st t cls n = true ∨ s.isRackCandidate st t cls n = true)
    ∧ (∀ b a, s.aisles.look b.home.aisle = some a →
        s.rackCost b = leg a.geom { bay := 0, level := 1 } { bay := b.home.bay, level := b.home.level } + 100 * a.queue.length)
    ∧ (s.chooseTarget st t cls home = none → ∀ n, s.isCandidate st t cls n = false)
    ∧ ∀ n, s.chooseTarget st t cls home = some n →
      s.isCandidate st t cls n = true
      ∧ (∀ h, home = some h → s.isCandidate st t cls h = true → n = h)
      ∧ ((∀ h, home = some h → s.isCandidate st t cls h = false) →
          (∃ x above below, s.stations.look st = some x ∧ x.lane = above ++ Place.bin n :: below
              ∧ s.isLaneCandidate st t cls n = true ∧ ∀ m, Place.bin m ∈ above → s.isLaneCandidate st t cls m = false)
          ∨ ((∀ m, s.isLaneCandidate st t cls m = false) ∧ s.isRackCandidate st t cls n = true
              ∧ ∀ m b c, s.isRackCandidate st t cls m = true → m ≠ n → s.bins.look n = some b →
                  s.bins.look m = some c →
                  s.rackCost b < s.rackCost c
                  ∨ (s.rackCost b = s.rackCost c
                      ∧ (b.capacity - b.fill - b.reserved - t < c.capacity - c.fill - c.reserved - t
                        ∨ (b.capacity - b.fill - b.reserved - t = c.capacity - c.fill - c.reserved - t ∧ n < m)))))

/-- R55, R105: a new job or request takes the first tag, from the next tag on, that no job or request holds. -/
def Obligations.NewTagsAreNotHeld : Prop :=
  ∀ s : State, s.tagsLawful = true →
    (s.heldJobTags.length < Config.maxTag →
      s.jobTag ∉ s.heldJobTags ∧ within 1 Config.maxTag s.jobTag = true
      ∧ ∃ k, s.jobTag = Nat.iterate tagAfter k s.nextJob ∧ ∀ i < k, Nat.iterate tagAfter i s.nextJob ∈ s.heldJobTags)
    ∧ (s.requests.length ≤ Config.requestCapacity →
      s.requestTag ∉ s.requests.map (·.tag) ∧ within 1 Config.maxTag s.requestTag = true
      ∧ ∃ k, s.requestTag = Nat.iterate tagAfter k s.nextRequest
          ∧ ∀ i < k, Nat.iterate tagAfter i s.nextRequest ∈ s.requests.map (·.tag))

/-- R186, R190, Tables 11.1 to 11.3: a frame with its check, of a class its sender may send and with a body of at most 64 bytes,
passes the frame check; with any other check it is dropped. A telegram is sent on the field link as a frame from address 0 of class
FIELD, with its kind number, tag 0 and its fields as body, which passes the same check. A field stands in whole bytes, an optional
one behind its presence byte. A REPLY carries its order's tag, and as body the outcome, the refusal code, the detail and the
result; a REPORT its kind number, and as body the overrun mark, the subject kind and subject, the related order tag, the code kind and
the code, a name by its place in its list; a PASS_UP the station and its text. The bytes of a body beyond what the spec says are the
model's (log 11, DESIGN CHOICE), that PRESENT lists at most 15 items is DEDUCED (log 18), and the number of subject "wing" and
the bytes of an absent code are free values (log 10, UNVERIFIED). -/
def Obligations.FramesCarryTheirBodiesAndCheck : Prop :=
  (∀ (p : Port) (f : Frame), f.body.length ≤ Config.bodyCapacity → classAllowed p (BitVec.ofNat 8 f.cls) = true →
    frameBad p f.bytes = false
    ∧ ∀ w : CheckWord, w ≠ frameCheck f.covered →
        frameBad p (0xA5#8 :: (f.covered ++ bytesOf 2 w.toNat)) = true)
  ∧ ∀ (ad : Nat) (t : FieldTelegram) (l : Link),
      let k : Nat := match t with
        | .job .. => 1
        | .stage .. => 2
        | .unstage _ => 3
        | .retry _ => 4
        | .abandon _ => 5
        | .stop => 6
        | .park _ => 7
        | .present .. => 8
        | .scanRefused _ => 9
        | .retract => 10
        | .hold => 11
        | .resume => 12
        | .terminalText _ => 13
        | .closeShutter _ => 14
        | .openShutter => 15
      let body : List Byte := match t with
        | .unstage n | .abandon n | .park n => [BitVec.ofNat 8 (n / 256), BitVec.ofNat 8 n]
        | .terminalText text => text
        | .closeShutter force => [if force then 1#8 else 0#8]
        | .stop | .retract | .hold | .resume | .openShutter => []
        | .job .. | .stage .. | .retry _ | .present .. | .scanRefused _ => fieldBytes t.fields
      let f : Frame := { destination := ad, source := 0, cls := 6, kind := k, tag := 0, body := body }
      l.sendTo (some ad) t = { l with field := l.field ++ [f] }
      ∧ ((∀ b p q r, t = .present b p q r → r.length ≤ 15) → (∀ text, t = .terminalText text → text.length ≤ 64) →
          body.length ≤ 64 ∧ frameBad .fieldLink f.bytes = false)
  ∧ (let one (n : Nat) : List Byte := [BitVec.ofNat 8 n]
     let two (n : Nat) : List Byte := one (n / 256) ++ one n
     let four (n : Nat) : List Byte := one (n / 16777216) ++ one (n / 65536) ++ two n
     let codes : List RefusalCode :=
       [.unknownOrder, .malformed, .notInService, .halted, .locked, .badField, .checkFailed, .wingBusy, .tableFull, .outOfBounds
         , .slotTaken, .otherAisle, .unknownBin, .binMissing, .binInDoubt, .binBusy, .unknownItem, .itemNotShelved, .badStation
         , .notReachable, .listFull, .queueFull, .noSuchRequest, .alreadyPicked, .tooLate, .noFault, .tagMismatch, .notSecured
         , .firePersists]
     let kinds : List ReportKind :=
       [.requestReady, .requestDelayed, .requestFailed, .itemPicked, .loanExpired, .binPresented, .binStored, .binMissing
         , .binInDoubt, .unexpectedBin, .lateArrival, .returnAccepted, .returnShelved, .returnOverflow, .returnDisplaced
         , .aisleState, .zoneState, .firePanel, .supervision, .fault, .halted, .fieldProtocol]
     let refusal (c : Option RefusalCode) : Nat := match c with
       | none => 0
       | some c => codes.idxOf c + 1
     let subject (u : Subject) : List Byte := match u with
       | .item n => one 1 ++ four n
       | .bin n => one 2 ++ four n
       | .station n => one 3 ++ four n
       | .zone n => one 4 ++ four n
       | .aisle n => one 5 ++ four n
       | .faultTag n => one 6 ++ four n
       | .wing => one 7 ++ four Config.wingSubject.toNat
     let code (c : Option Code) : List Byte := match c with
       | none => one 0 ++ two Config.absentCode.toNat
       | some (.number n) => one 1 ++ two n
       | some (.refusal c) => one 2 ++ two (refusal (some c))
       | some (.zoneState v) => one 2 ++ two ([ZoneState.normal, .alert, .shutdown, .secured, .restoring].idxOf v + 1)
       | some (.service v) => one 2 ++ two ([Service.inService, .draining, .outOfService].idxOf v + 1)
       | some (.faultKind k) => one 2
         ++ two ([FaultKind.craneOverdue, .craneFault, .craneNoStop, .shutterJammed, .stationFault, .conveyorOverdue].idxOf k + 1)
       | some (.reason w) => one 2 ++ two ([PickReason.emptySlot, .labelMismatch].idxOf w + 1)
       | some (.firePanel asserted) => one 2 ++ two (if asserted then 1 else 2)
     (∀ n, (Field.num 1 n).bytes = one n ∧ (Field.num 2 n).bytes = two n ∧ (Field.num 4 n).bytes = four n)
     ∧ (∀ w n, (Field.opt w none).bytes = one 0 ∧ (Field.opt w (some n)).bytes = one 1 ++ (Field.num w n).bytes)
     ∧ (∀ f l, fieldBytes [] = [] ∧ fieldBytes (f :: l) = f.bytes ++ fieldBytes l)
     ∧ (∀ q : Reply, replyFrame q =
         { destination := 0, source := 0, cls := 2, kind := 0, tag := q.tag
           body := one (if q.refusal = none then 1 else 2) ++ one (refusal q.refusal) ++ one q.detail
             ++ match q.result with
                | .empty => []
                | .outcomes l => one l.length ++ l.flatMap fun o => one (refusal o.1) ++ two o.2
                | v => fieldBytes v.fields })
     ∧ (∀ (q : Report) (overrun : Bool), reportFrame q overrun =
         { destination := 0, source := 0, cls := 3, kind := kinds.idxOf q.kind + 1, tag := 0
           body := one (if overrun then 1 else 0) ++ subject q.subject ++ two (q.order.getD 0) ++ code q.code })
     ∧ ∀ (st : Nat) (l : List Byte), passUpFrame st l =
         { destination := st, source := 0, cls := 4, kind := 0, tag := 0, body := l })

/-- R61 to R64, R77, R88, R175: a job other than PARK is eligible in an IN_SERVICE aisle of a NORMAL zone while the mode is IN_SERVICE
and the wing not HALTED, a RETRIEVE besides only where its station's zone is NORMAL, its lane is not held and its claims are below the
lane depth. An IDLE crane without a suspension record takes the first eligible job of its queue, none only where no job other
than PARK is eligible, with its deadline armed and JOB sent; a BUSY one without a staged job stages it, with STAGE; a staged job
that stops being eligible goes back to its queue, with UNSTAGE; a PARKING one without a job takes the queue's PARK; a suspended job whose bin the crane holds is
resumed from TO_DEST at the front port. Jobs passed over keep their places. What the Dispatcher offers one crane before it serves
the next aisle is the model's choice (log 34). At the end of a command every zone is judged, then every staged job, then every aisle
is looked at once, each in ascending number. The model's: the place of this pass at the end of the command, and of the withdrawals
before the looks (log 6, DEDUCED), and the ascending order of the zones (log 22, DESIGN CHOICE). -/
def Obligations.DispatcherHandsJobsToCranes : Prop :=
  let claims (s : State) (st : Nat) (y : Station) : Nat :=
    y.lane.length + y.inTransit.length
      + (s.aisles.map fun e => (e.2.crane.active.toList ++ e.2.crane.staged.toList).countP fun j =>
          decide (j.kind = .retrieve) && decide (j.station = some st)).sum
  let admits (s : State) (own : Nat) (j : Job) : Prop :=
    j.kind = .retrieve → ∃ st y, j.station = some st ∧ s.stations.look st = some y
      ∧ s.zoneState y.loaded.zone = some .normal ∧ y.hold = false ∧ claims s st y - own < y.loaded.depth
  let ready (s : State) (x : Aisle) (own : Nat) (j : Job) : Prop :=
    x.service = .inService ∧ s.zoneState x.geom.zone = some .normal ∧ s.isHalted = false ∧ s.mode = .inService
      ∧ admits s own j
  (∀ (s : State) (a : Nat) (x : Aisle) (j : Job), s.aisles.look a = some x → s.firstEligible x = some j →
    ∃ before after, x.queue = before ++ j :: after ∧ j.kind ≠ .park ∧ ready s x 0 j
      ∧ (∀ k ∈ before, k.kind = .park ∨ ¬ready s x 0 k)
      ∧ (x.crane.state = .idle → x.crane.suspension = none →
          s.activateNext a =
            { s with
              aisles := s.aisles.adjust a fun x =>
                { x with
                  queue := before ++ after
                  crane := { x.crane with
                    state := .busy, phase := some .toSource, active := some j, retryIndex := 0
                    deadline := some
                      { left := deadlineFor x.geom (estimate x.geom (s.conveyorOf j) j
                          (x.crane.position.getD { bay := x.geom.bays, level := x.geom.levels }))
                        running := true } } }
              link := s.link.sendTo (s.craneAddress a) (.job j.tag j.kind j.source j.destination (0, 0)) })
      ∧ (x.crane.state = .busy → x.crane.staged = none → x.service = .inService →
          s.offerStage a =
            { s with
              aisles := s.aisles.adjust a fun x =>
                { x with queue := before ++ after, crane := { x.crane with staged := some j } }
              link := s.link.sendTo (s.craneAddress a) (.stage j.tag j.kind j.source j.destination j.station) }))
  ∧ (∀ (s : State) (a : Nat) (x : Aisle), s.aisles.look a = some x →
      (s.firstEligible x = none ↔ ∀ k ∈ x.queue, k.kind = .park ∨ ¬ready s x 0 k)
      ∧ (s.firstEligible x = none → s.activateNext a = s ∧ s.offerStage a = s)
      ∧ ((x.crane.state ≠ .busy ∨ x.crane.staged ≠ none ∨ x.service ≠ .inService) → s.offerStage a = s)
      ∧ (∀ j own, s.eligible x own j = true ↔ ready s x own j)
      ∧ (x.crane.staged = none → s.withdrawIneligible a = s)
      ∧ (∀ j, x.crane.staged = some j →
          (ready s x 1 j → s.withdrawIneligible a = s)
          ∧ (¬ready s x 1 j → s.withdrawIneligible a =
              { s with
                aisles := s.aisles.adjust a fun x =>
                  { x with
                    queue :=
                      if j.kind = .store then j :: x.queue
                      else x.queue.takeWhile (fun k => decide (k.kind = .store)) ++ j
                        :: x.queue.dropWhile (fun k => decide (k.kind = .store))
                    crane := { x.crane with staged := none } }
                link := s.link.sendTo (s.craneAddress a) (.unstage j.tag) }))
      ∧ (let may := (x.service = .inService ∨ x.service = .draining) ∧ s.isHalted = false ∧ s.mode = .inService
           ∧ (s.zoneState x.geom.zone = some .normal ∨ s.zoneState x.geom.zone = some .alert
             ∨ s.zoneState x.geom.zone = some .restoring)
         ((x.crane.active ≠ none ∨ ¬may ∨ ∀ j ∈ x.queue, j.kind ≠ .park) → s.activatePark a = s)
         ∧ ∀ before j after, x.crane.active = none → may → x.queue = before ++ j :: after → j.kind = .park →
             (∀ k ∈ before, k.kind ≠ .park) →
             s.activatePark a =
               { s with
                 aisles := s.aisles.adjust a fun x =>
                   { x with
                     queue := before ++ after
                     crane := { x.crane with
                       phase := some .toDest, active := some j, retryIndex := 0
                       deadline := some
                         { left := deadlineFor x.geom (leg x.geom
                             (x.crane.position.getD { bay := x.geom.bays, level := x.geom.levels }) { bay := 0, level := 1 })
                           running := true } } }
                 link := s.link.sendTo (s.craneAddress a) (.park j.tag) })
      ∧ (∀ r, x.crane.suspension = some r →
          let may := s.zoneState x.geom.zone = some .normal ∧ s.isHalted = false ∧ s.mode = .inService
            ∧ (x.service = .inService ∨ x.service = .draining) ∧ admits s 0 r.job
          ((r.resumes = false ∨ ¬may) → s.resume a = s)
          ∧ ∀ n b, r.job.bin = some n → s.bins.look n = some b → r.parkLabel = some (.label n) →
              (r.job.kind = .retrieve ∨ r.job.kind = .store ∨ r.job.kind = .transfer) → may →
              s.resume a =
                { s with
                  aisles := s.aisles.adjust a fun x =>
                    { x with crane := { x.crane with
                      state := .busy, phase := some .toDest, active := some r.job, retryIndex := 0, suspension := none
                      deadline := some
                        { left := deadlineFor x.geom
                            (if r.job.kind = .retrieve then x.geom.handling + s.conveyorOf r.job
                            else leg x.geom { bay := 0, level := 1 } r.job.destination.point + x.geom.handling)
                          running := true } } }
                  bins := s.bins.adjust n fun b =>
                    if (b.state = .called ∧ r.job.kind ≠ .store) ∨ (b.state = .homebound ∧ r.job.kind = .store) then
                      { b with state := .onCrane }
                    else b
                  link := s.link.sendTo (s.craneAddress a)
                    (.job r.job.tag r.job.kind (some .frontPort) r.job.destination (0, 0)) })
      ∧ s.lookAisle a =
          (match x.crane.state with
           | .idle => (if x.crane.suspension = none then s.activateNext a else s.resume a).offerStage a
           | .parking => s.activatePark a
           | .busy => s.offerStage a
           | .stopping | .stopped | .faulted | .outOfService => s))
  ∧ ∀ s : State,
      let aisles := s.aisles.map (·.1)
      let zones := s.zones.map (·.1)
      s.withdrawAll = aisles.foldl State.withdrawIneligible s
      ∧ s.lookAll = aisles.foldl State.lookAisle s
      ∧ s.settleWing =
          aisles.foldl State.lookAisle (aisles.foldl State.withdrawIneligible (zones.foldl State.judgeZone s))
      ∧ (s.tablesLawful = true → aisles.Pairwise (· < ·) ∧ zones.Pairwise (· < ·))

/-- R191: the arbiter sends the oldest pending reply, else the oldest entry of the urgent queue, else the oldest entry of
the routine queue; the chosen entry leaves its queue. The report sent carries and clears its class's overrun mark, and a
PASS_UP message leaves it (R190). -/
def Obligations.ArbiterSendsOldestReplyFirst : Prop :=
  ∀ s : State, s.link.waiting = [] →
    ∃ t, exec .sendNextFrame s = .next t ∧ t = { s with link := t.link } ∧
      (match s.link.replies, s.link.urgent, s.link.routine with
       | r :: rest, _, _ => t.link = { s.link with replies := rest, sent := s.link.sent ++ [replyFrame r] }
       | [], u :: rest, _ =>
         t.link = { s.link with urgent := rest, urgentOverrun := false
                                sent := s.link.sent ++ [reportFrame u s.link.urgentOverrun] }
       | [], [], .report r :: rest =>
         t.link = { s.link with routine := rest, routineOverrun := false
                                sent := s.link.sent ++ [reportFrame r s.link.routineOverrun] }
       | [], [], .passUp st l :: rest =>
         t.link = { s.link with routine := rest, sent := s.link.sent ++ [passUpFrame st l] }
       | [], [], [] => t.link = s.link)

/-! ### Loads and reads of records -/

/-- R138, R140, R141, R84, R155, R163, R85 and Table 11.8: in COMMISSIONING a load of a zone, concentrator, shutter or
station record creates the record, its working part as new, or sets its loaded fields and keeps its working part; a field
outside its range is refused BAD_FIELD. -/
def Obligations.RecordLoadsSetLoadedFields : Prop :=
  ∀ (tag : Nat) (s : State), s.receives tag = true → s.isHalted = false → s.mode = .commissioning →
    s.tablesLawful = true →
    (∀ z w, exec (.loadZoneRecord tag z w) s = .next
      (if within 1 8 z && within 50 6000 w then
        { s with
          zones := s.zones.put z
            (match s.zones.look z with
             | some x => { x with window := w }
             | none =>
               { window := w, state := .normal, windowLeft := none
                 causes := { prealarm := false, trouble := false, silent := false, token := false, start := false } })
        }.acceptOrder tag .empty
      else s.refuseOrder tag .badField 0))
    ∧ (∀ n ad z p, exec (.loadConcentratorRecord tag n ad z p) s = .next
      (if within 1 16 n && within 1 63 ad && within 1 8 z && within 10 600 p then
        { s with
          concentrators := s.concentrators.put n
            (match s.concentrators.look n with
             | some c => { c with address := ad, zone := z, period := p }
             | none =>
               { address := ad, zone := z, period := p, health := .unheard, token := none, supervision := none
                 detectors := [] })
        }.acceptOrder tag .empty
      else s.refuseOrder tag .badField 0))
    ∧ (∀ n ad z, exec (.loadShutterRecord tag n ad z) s = .next
      (if within 1 8 n && within 1 63 ad && within 1 8 z then
        { s with
          shutters := s.shutters.put n
            (match s.shutters.look n with
             | some h => { h with address := ad, zone := z }
             | none => { address := ad, zone := z, state := .opened, wait := none })
        }.acceptOrder tag .empty
      else s.refuseOrder tag .badField 0))
    ∧ (∀ st f, stationFieldsInRange f = true → within 1 4 st = true →
      (∀ m x k, s.stations.look m = some x → x.loaded.shutter = some k → f.shutter = some k → m = st) →
      exec (.loadStationRecord tag st f) s = .next
        ({ s with
           stations := s.stations.put st
             (match s.stations.look st with
              | some x => { x with loaded := { f with linked := asAisleSet f.linked } }
              | none =>
                { loaded := { f with linked := asAisleSet f.linked }, lane := [], inTransit := [], overdue := []
                  returns := [], hold := false, mouthOccupied := false })
        }.acceptOrder tag .empty))
    ∧ ∀ st f, (stationFieldsInRange f = false ∨ within 1 4 st = false
        ∨ ∃ m x k, s.stations.look m = some x ∧ x.loaded.shutter = some k ∧ f.shutter = some k ∧ m ≠ st) →
      exec (.loadStationRecord tag st f) s = .next (s.refuseOrder tag .badField 0)

/-- R1, R4, R5, R69: a geometry load creates an IN_SERVICE aisle, with AISLE_STATE, or sets the loaded fields; an offset load
replaces the retry list, in COMMISSIONING only of an aisle with a record. In IN_SERVICE both need the key and an aisle
OUT_OF_SERVICE; a change of the zone is LOCKED, no slot of a bin may fall out of bounds, and a change of B or L makes the
position UNKNOWN. A field outside its range is refused BAD_FIELD. That AISLE_STATE carries no order tag is the model's choice
(log 44). -/
def Obligations.GeometryLoadsCreateAndRework : Prop :=
  ∀ (tag a : Nat) (g : Geometry) (l : List (Int × Int)) (key : Bool) (s : State), s.receives tag = true →
    s.isHalted = false → s.tablesLawful = true →
    (s.mode = .commissioning → (within 1 6 a && geometryInRange g) = true →
      exec (.loadGeometryRecord tag a g key) s = .next
        (match s.aisles.look a with
         | some x => { s with keyLine := key, aisles := s.aisles.put a { x with geom := g } }.acceptOrder tag .empty
         | none =>
           ({ s with
              keyLine := key
              aisles := s.aisles.put a
                { geom := g, service := .inService, retry := [], queue := []
                  crane := { state := .parking, phase := none, position := none, active := none, staged := none
                             retryIndex := 0, deadline := none, stopWait := none, suspension := none } } }.report
              .aisleState (.aisle a) (some (.service .inService))).acceptOrder tag .empty))
    ∧ (s.mode = .commissioning → (within 1 6 a && geometryInRange g) = false →
        exec (.loadGeometryRecord tag a g key) s = .next ((s.setKeyLine key).refuseOrder tag .badField 0))
    ∧ (s.mode = .commissioning → s.aisles.look a = none →
        exec (.loadRetryOffsetList tag a l key) s = .next ((s.setKeyLine key).refuseOrder tag .badField 0))
    ∧ (∀ x, s.aisles.look a = some x → (s.mode = .commissioning ∨ (key = true ∧ x.service = .outOfService)) →
        exec (.loadRetryOffsetList tag a l key) s = .next
          (if offsetsInRange l then
            { s with keyLine := key, aisles := s.aisles.put a { x with retry := l } }.acceptOrder tag .empty
          else (s.setKeyLine key).refuseOrder tag .badField 0))
    ∧ (s.mode = .inService → (key = false ∨ ∀ x, s.aisles.look a = some x → x.service ≠ .outOfService) →
        exec (.loadGeometryRecord tag a g key) s = .next ((s.setKeyLine key).refuseOrder tag .locked 0)
        ∧ exec (.loadRetryOffsetList tag a l key) s = .next ((s.setKeyLine key).refuseOrder tag .locked 0))
    ∧ (∀ x, s.aisles.look a = some x → s.mode = .inService → key = true → x.service = .outOfService →
        (g.zone ≠ x.geom.zone →
          exec (.loadGeometryRecord tag a g key) s = .next ((s.setKeyLine key).refuseOrder tag .locked 0))
        ∧ (g.zone = x.geom.zone → geometryInRange g = false →
          exec (.loadGeometryRecord tag a g key) s = .next ((s.setKeyLine key).refuseOrder tag .badField 0)))
    ∧ (∀ x, s.aisles.look a = some x → s.mode = .inService → key = true → x.service = .outOfService →
        g.zone = x.geom.zone → geometryInRange g = true →
        ((∀ n b v, s.bins.look n = some b → (v = b.home ∨ b.pendingHome = some v) → v.aisle = a →
            within 1 g.bays v.bay = true ∧ within 1 g.levels v.level = true) →
          exec (.loadGeometryRecord tag a g key) s = .next
            ({ s with
               keyLine := key
               aisles := s.aisles.put a
                 { x with
                   geom := g
                   crane := { x.crane with
                     position := if g.bays = x.geom.bays ∧ g.levels = x.geom.levels then x.crane.position else none } }
             }.acceptOrder tag .empty))
        ∧ ((∃ n b v, s.bins.look n = some b ∧ (v = b.home ∨ b.pendingHome = some v) ∧ v.aisle = a
              ∧ (within 1 g.bays v.bay = false ∨ within 1 g.levels v.level = false)) →
          exec (.loadGeometryRecord tag a g key) s = .next ((s.setKeyLine key).refuseOrder tag .outOfBounds 0)))

/-- R189, R192, R194: loads of a field address, a report class and the wing settings in COMMISSIONING, refused BAD_FIELD for a
value outside its range, for a role and index that stand at another address, and for ROUTINE of an always URGENT kind; in IN_SERVICE these
and the loads of zone, concentrator, shutter and station records are refused LOCKED. -/
def Obligations.AddressClassAndSettingsLoads : Prop :=
  ∀ (tag : Nat) (s : State), s.receives tag = true → s.isHalted = false → s.tablesLawful = true →
    let most (r : Role) : Nat := match r with
      | .crane => 6
      | .station => 4
      | .shutter => 8
      | .concentrator => 16
    (s.mode = .commissioning →
      (∀ ad d, (within 1 63 ad && within 1 (most d.role) d.index) = true → (∀ m, s.addresses.look m = some d → m = ad) →
        exec (.loadFieldAddress tag ad (some d)) s =
          .next ({ s with addresses := s.addresses.put ad d }.acceptOrder tag .empty))
      ∧ (∀ ad m d, s.addresses.look m = some d → m ≠ ad →
        exec (.loadFieldAddress tag ad (some d)) s = .next (s.refuseOrder tag .badField 0))
      ∧ (∀ ad d, (within 1 63 ad = false ∨ within 1 (most d.role) d.index = false) →
        exec (.loadFieldAddress tag ad (some d)) s = .next (s.refuseOrder tag .badField 0))
      ∧ (∀ ad, exec (.loadFieldAddress tag ad none) s = .next
          (if within 1 63 ad then { s with addresses := s.addresses.remove ad }.acceptOrder tag .empty
          else s.refuseOrder tag .badField 0))
      ∧ (∀ k c, exec (.loadReportClass tag k c) s = .next
          (if within 1 22 k && !(within 17 21 k && decide (c = .routine)) then
            { s with classes := s.classes.put k c }.acceptOrder tag .empty
          else s.refuseOrder tag .badField 0))
      ∧ ∀ c p h, exec (.loadWingSettings tag c p h) s = .next
          (if within 100 6000 c && within 50 600 p && within 50 600 h then
            { s with settings := { confirm := c, stop := p, shutter := h } }.acceptOrder tag .empty
          else s.refuseOrder tag .badField 0))
    ∧ (s.mode = .inService → ∀ i,
        ((∃ ad d, i = .loadFieldAddress tag ad d) ∨ (∃ k c, i = .loadReportClass tag k c)
          ∨ (∃ c p h, i = .loadWingSettings tag c p h) ∨ (∃ z w, i = .loadZoneRecord tag z w)
          ∨ (∃ n ad z p, i = .loadConcentratorRecord tag n ad z p) ∨ (∃ n ad z, i = .loadShutterRecord tag n ad z)
          ∨ ∃ st f, i = .loadStationRecord tag st f) →
        exec i s = .next (s.refuseOrder tag .locked 0))

/-- R6, R12 to R15: ADD makes a STORED, empty bin; in IN_SERVICE its home slot is in bounds and no home slot or pending home
of another bin. EDIT redescribes a bin in COMMISSIONING and changes its capacity alone in IN_SERVICE, never below fill plus
reserved. RETIRE removes an empty bin, in IN_SERVICE one that is STORED or MISSING and named by no job. Each failed check is refused
with its code, the first in order where several fail. The model's: a slot or size class out of its range is LOCKED as any other change
is, in an IN_SERVICE EDIT (log 33, DEDUCED), and the sides L and R have the numbers 1 and 2 (log 11, DESIGN CHOICE). -/
def Obligations.BinMapLoadsAddEditRetire : Prop :=
  ∀ (tag n cap cls : Nat) (home : SlotField) (s : State), s.receives tag = true → s.isHalted = false →
    s.tablesLawful = true →
    let fits (v : Slot) : Prop := n ≤ 16383 ∧ within 50 1000 cap = true ∧ cls ≤ 7 ∧ slotOf home = some v
    let bounded (v : Slot) : Prop :=
      ∃ x, s.aisles.look v.aisle = some x ∧ within 1 x.geom.bays v.bay = true ∧ within 1 x.geom.levels v.level = true
    let taken (v : Slot) : Prop := ∃ m b, s.bins.look m = some b ∧ (b.home = v ∨ b.pendingHome = some v)
    let named : Prop := ∃ e ∈ s.aisles, ∃ j ∈ e.2.jobs, j.bin = some n
    let add := exec (.binMapAdd tag n home cap cls) s
    let edit := exec (.binMapEdit tag n home cap cls) s
    let retire := exec (.binMapRetire tag n) s
    let refused (c : RefusalCode) : Next := .next (s.refuseOrder tag c 0)
    (∀ v, slotOf home = some v ↔
      within 1 6 home.aisle = true ∧ within 1 120 home.bay = true ∧ within 1 24 home.level = true
        ∧ v.aisle = home.aisle ∧ v.bay = home.bay ∧ v.level = home.level
        ∧ home.side = (match v.side with
            | .left => 1
            | .right => 2))
    ∧ (∀ v, fits v → s.bins.look n = none → (s.mode = .inService → bounded v ∧ ¬taken v) →
        add = .next
          ({ s with
             bins := s.bins.put n
              { home := v, pendingHome := none, capacity := cap, sizeClass := cls, fill := 0, reserved := 0, count := 0
                state := .stored, trip := none, next := none } }.acceptOrder tag .empty))
    ∧ ((∀ v, ¬fits v) →
        add = refused .badField
        ∧ (s.mode = .commissioning → edit = refused .badField)
        ∧ (s.mode = .commissioning → 16383 < n → retire = refused .badField))
    ∧ (∀ v, fits v → (s.bins.look n).isSome = true → add = refused .badField)
    ∧ (∀ v, fits v → s.bins.look n = none → s.mode = .inService → ¬bounded v → add = refused .outOfBounds)
    ∧ (∀ v, fits v → s.bins.look n = none → s.mode = .inService → bounded v → taken v → add = refused .slotTaken)
    ∧ (s.bins.look n = none →
        (s.mode = .inService → edit = refused .unknownBin ∧ retire = refused .unknownBin)
        ∧ (s.mode = .commissioning → (∀ v, fits v → edit = refused .unknownBin)
            ∧ (n ≤ 16383 → retire = refused .unknownBin)))
    ∧ ∀ b, s.bins.look n = some b →
      (∀ v, s.mode = .commissioning → fits v →
        edit = .next
          ({ s with bins := s.bins.put n { b with home := v, capacity := cap, sizeClass := cls } }.acceptOrder tag .empty))
      ∧ (s.mode = .inService → within 50 1000 cap = false → edit = refused .badField)
      ∧ (s.mode = .inService → within 50 1000 cap = true → (slotOf home ≠ some b.home ∨ cls ≠ b.sizeClass) →
        edit = refused .locked)
      ∧ (s.mode = .inService → within 50 1000 cap = true → slotOf home = some b.home → cls = b.sizeClass →
        edit =
          (if b.fill + b.reserved ≤ cap then
            .next ({ s with bins := s.bins.put n { b with capacity := cap } }.acceptOrder tag .empty)
          else refused .badField))
      ∧ (s.mode = .inService → b.state = .inDoubt → retire = refused .binInDoubt)
      ∧ (s.mode = .inService → b.state ≠ .inDoubt → ((b.state ≠ .stored ∧ b.state ≠ .missing) ∨ named) →
        retire = refused .binBusy)
      ∧ ((s.mode = .commissioning → n ≤ 16383) →
        (s.mode = .inService → (b.state = .stored ∨ b.state = .missing) ∧ ¬named) →
        retire =
          (if b.count = 0 ∧ b.reserved = 0 then .next ({ s with bins := s.bins.remove n }.acceptOrder tag .empty)
          else refused .binBusy))

/-- R31 to R34: ADD of a SHELVED item takes room in its home bin, ADD of a LENT item has none; EDIT moves the bin's fill (or
the reserved of a HELD item) with the thickness; REMOVE gives the room back. In IN_SERVICE the home bin of an ADD is STORED
and has room, and EDIT and REMOVE take SHELVED items alone. An ADD of a state other than SHELVED or LENT (absent where its field
names none), or of one that does not go with its home bin, and each other failed check of an ADD, EDIT or REMOVE, is refused with
its code. The model's choice (log 14): in COMMISSIONING too, a number already there, then a full directory, is judged before the
home bin. -/
def Obligations.ItemDirectoryLoadsMoveTheFigures : Prop :=
  ∀ (tag n t cls : Nat) (s : State), s.receives tag = true → s.isHalted = false → s.tablesLawful = true →
    within 1 4294967295 n = true → within 1 250 t = true → cls ≤ 7 →
    (s.items.look n = none → s.items.length < 262144 →
      exec (.itemDirectoryAdd tag n t cls (some .lent) none) s = .next
        ({ s with
           items := s.items.put n
            { thickness := t, sizeClass := cls, state := .lent, home := none, target := none } }.acceptOrder tag .empty)
      ∧ ∀ h b, h ≤ 16383 → s.bins.look h = some b →
        (s.mode = .inService → b.state = .stored ∧ b.fill + b.reserved + t ≤ b.capacity) →
        (s.mode = .commissioning → b.fill + t ≤ 1000) →
        exec (.itemDirectoryAdd tag n t cls (some .shelved) (some h)) s = .next
          ({ s with
             items := s.items.put n
               { thickness := t, sizeClass := cls, state := .shelved, home := some h, target := none }
             bins := s.bins.put h { b with fill := b.fill + t, count := b.count + 1 } }.acceptOrder tag .empty))
    ∧ (s.items.look n = none → 262144 ≤ s.items.length →
        exec (.itemDirectoryAdd tag n t cls (some .lent) none) s = .next (s.refuseOrder tag .tableFull 0)
        ∧ ∀ h, h ≤ 16383 →
            exec (.itemDirectoryAdd tag n t cls (some .shelved) (some h)) s = .next (s.refuseOrder tag .tableFull 0))
    ∧ (∀ m u k, (within 1 4294967295 m = false ∨ within 1 250 u = false ∨ 7 < k) →
        (∀ v home, exec (.itemDirectoryAdd tag m u k v home) s = .next (s.refuseOrder tag .badField 0))
        ∧ (s.mode = .commissioning → exec (.itemDirectoryEdit tag m u k) s = .next (s.refuseOrder tag .badField 0)))
    ∧ (∀ m, s.mode = .commissioning → within 1 4294967295 m = false →
        exec (.itemDirectoryRemove tag m) s = .next (s.refuseOrder tag .badField 0))
    ∧ (s.items.look n = none →
        exec (.itemDirectoryEdit tag n t cls) s = .next (s.refuseOrder tag .unknownItem 0)
        ∧ exec (.itemDirectoryRemove tag n) s = .next (s.refuseOrder tag .unknownItem 0))
    ∧ (∀ (v : Option ItemState) (home : Option Nat),
        ((v ≠ some .shelved ∧ v ≠ some .lent) ∨ (v = some .shelved ∧ home = none) ∨ (v = some .lent ∧ home ≠ none)
          ∨ ∃ h, home = some h ∧ 16383 < h) →
        exec (.itemDirectoryAdd tag n t cls v home) s = .next (s.refuseOrder tag .badField 0))
    ∧ (∀ (v : ItemState) (home : Option Nat), (s.items.look n).isSome = true →
        exec (.itemDirectoryAdd tag n t cls (some v) home) s = .next (s.refuseOrder tag .badField 0))
    ∧ (∀ h, h ≤ 16383 → s.items.look n = none → s.items.length < 262144 →
        (s.bins.look h = none →
          exec (.itemDirectoryAdd tag n t cls (some .shelved) (some h)) s = .next (s.refuseOrder tag .unknownBin 0))
        ∧ ∀ b, s.bins.look h = some b →
          (s.mode = .inService → b.state ≠ .stored →
            exec (.itemDirectoryAdd tag n t cls (some .shelved) (some h)) s = .next
              (s.refuseOrder tag
                (if b.state = .missing then .binMissing else if b.state = .inDoubt then .binInDoubt else .binBusy) 0))
          ∧ ((s.mode = .inService ∧ b.state = .stored ∧ b.capacity < b.fill + b.reserved + t)
                ∨ (s.mode = .commissioning ∧ 1000 < b.fill + t) →
            exec (.itemDirectoryAdd tag n t cls (some .shelved) (some h)) s = .next (s.refuseOrder tag .badField 0)))
    ∧ (∀ i h b, s.items.look n = some i → i.state = .shelved → i.home = some h → s.bins.look h = some b →
        ((s.mode = .inService → cls = i.sizeClass ∧ b.fill + t + b.reserved ≤ b.capacity + i.thickness) →
          (s.mode = .commissioning → b.fill + t - i.thickness ≤ 1000) →
          exec (.itemDirectoryEdit tag n t cls) s = .next
            ({ s with
               items := s.items.put n { i with thickness := t, sizeClass := cls }
               bins := s.bins.put h { b with fill := b.fill + t - i.thickness } }.acceptOrder tag .empty))
        ∧ exec (.itemDirectoryRemove tag n) s = .next
          ({ s with
             items := s.items.remove n
             bins := s.bins.put h { b with fill := b.fill - i.thickness, count := b.count - 1 } }.acceptOrder tag .empty))
    ∧ (∀ i h b, s.items.look n = some i → i.state = .held → i.home = some h → s.bins.look h = some b →
        s.mode = .commissioning →
        (b.reserved + t - i.thickness ≤ 1000 →
          exec (.itemDirectoryEdit tag n t cls) s = .next
            ({ s with
               items := s.items.put n { i with thickness := t, sizeClass := cls }
               bins := s.bins.put h { b with reserved := b.reserved + t - i.thickness } }.acceptOrder tag .empty))
        ∧ exec (.itemDirectoryRemove tag n) s = .next
          ({ s with
             items := s.items.remove n
             bins := s.bins.put h { b with reserved := b.reserved - i.thickness } }.acceptOrder tag .empty))
    ∧ (∀ i, s.items.look n = some i → s.mode = .commissioning → (i.state = .lent ∨ i.state = .overflow) →
        exec (.itemDirectoryEdit tag n t cls) s = .next
          ({ s with items := s.items.put n { i with thickness := t, sizeClass := cls } }.acceptOrder tag .empty)
        ∧ exec (.itemDirectoryRemove tag n) s = .next ({ s with items := s.items.remove n }.acceptOrder tag .empty))
    ∧ (∀ i h b, s.items.look n = some i → i.home = some h → s.bins.look h = some b →
        ((s.mode = .commissioning ∧ i.state = .shelved ∧ 1000 < b.fill + t - i.thickness)
          ∨ (s.mode = .commissioning ∧ i.state = .held ∧ 1000 < b.reserved + t - i.thickness)
          ∨ (s.mode = .inService ∧ i.state = .shelved ∧ cls = i.sizeClass
              ∧ b.capacity + i.thickness < b.fill + t + b.reserved)) →
        exec (.itemDirectoryEdit tag n t cls) s = .next (s.refuseOrder tag .badField 0))
    ∧ ∀ i, s.items.look n = some i → s.mode = .inService →
        (∀ u k, within 1 250 u = false → exec (.itemDirectoryEdit tag n u k) s = .next (s.refuseOrder tag .badField 0))
        ∧ (cls ≠ i.sizeClass → exec (.itemDirectoryEdit tag n t cls) s = .next (s.refuseOrder tag .locked 0))
        ∧ (i.state ≠ .shelved →
            (cls = i.sizeClass → exec (.itemDirectoryEdit tag n t cls) s = .next (s.refuseOrder tag .itemNotShelved 0))
            ∧ exec (.itemDirectoryRemove tag n) s = .next (s.refuseOrder tag .itemNotShelved 0))

/-- R195, R200, R201 and Table 11.9: READ_RECORD, QUERY_STATUS and READ_IDENTITY return the record as it stands, or refuse a
key with no record, and change nothing else. The model's: the table numbers 12 and 13 (log 11, DESIGN CHOICE), BAD_FIELD for a
report kind outside 1..22 (log 23, DEDUCED), and the WING scope's start cause without the halted-before mark (log 43, DESIGN
CHOICE). -/
def Obligations.ReadsReturnRecordsAndChangeNothing : Prop :=
  ∀ (tag key pos : Nat) (k : Bool) (s : State), s.receives tag = true →
    let ans (s : State) (r : Option Result) (c : RefusalCode) : Next :=
      .next (match r with
        | some r => s.acceptOrder tag r
        | none => s.refuseOrder tag c 0)
    let members {α : Type} (t : Table α) (p : α → Bool) : List Nat := (t.filter fun e => p e.2).map (·.1)
    let q := s.setKeyLine k
    exec (.readRecord tag 1 key) s = ans s ((s.aisles.look key).map fun x => .geometry x.geom x.service) .badField
    ∧ exec (.readRecord tag 2 key) s = ans s ((s.aisles.look key).map fun x => .offsets x.retry) .badField
    ∧ exec (.readRecord tag 3 key) s = ans s ((s.stations.look key).map fun x => .station x.loaded) .badStation
    ∧ exec (.readRecord tag 4 key) s = ans s
        ((s.zones.look key).map fun x =>
          .zone x (members s.aisles fun y => decide (y.geom.zone = key))
            (members s.stations fun y => decide (y.loaded.zone = key))
            (members s.concentrators fun y => decide (y.zone = key)) (members s.shutters fun y => decide (y.zone = key)))
        .badField
    ∧ exec (.readRecord tag 5 key) s = ans s ((s.concentrators.look key).map .concentrator) .badField
    ∧ exec (.readRecord tag 6 key) s = ans s ((s.shutters.look key).map fun h => .shutter h (s.boundStation key)) .badField
    ∧ exec (.readRecord tag 7 key) s = ans s ((s.addresses.look key).map .device) .badField
    ∧ exec (.readRecord tag 8 key) s = ans s
        (if within 1 22 key then
          some (.reportClass (if within 17 21 key then .urgent else (s.classes.look key).getD .routine))
        else none) .badField
    ∧ exec (.readRecord tag 9 key) s = ans s (some (.settings s.settings)) .badField
    ∧ exec (.readRecord tag 10 key) s = ans s ((s.bins.look key).map (.bin key)) .unknownBin
    ∧ exec (.readRecord tag 11 key) s = ans s ((s.items.look key).map (.item key)) .unknownItem
    ∧ exec (.readRecord tag 12 key) s = ans s
        ((s.requests.find? fun r => decide (r.tag = key)).map .request) .noSuchRequest
    ∧ exec (.readRecord tag 13 key) s = ans s ((s.stations.look key).map fun x => .returnQueue x.returns) .badStation
    ∧ exec (.readRecord tag 14 key) s = ans s none .badField
    ∧ exec (.queryStatus tag .wing key pos k) s = ans q
        (some (.statusWing s.mode s.faults.state s.startCause s.firePanel k s.faults.haltedLine s.securedLine
          s.requests.length s.link.urgent.length s.link.routine.length s.link.urgentOverrun s.link.routineOverrun))
        .badField
    ∧ exec (.queryStatus tag .aisle key pos k) s = ans q
        ((s.aisles.look key).map fun x => .statusAisle x.service x.crane x.queue.length) .badField
    ∧ exec (.queryStatus tag .queue key pos k) s = ans q
        ((s.aisles.look key).map fun x =>
          .statusQueue x.queue.length (((x.queue.drop pos).take 16).map fun j => (j.tag, j.kind))) .badField
    ∧ exec (.queryStatus tag .station key pos k) s = ans q
        ((s.stations.look key).map fun x =>
          .statusStation
            (x.lane.reverse.map fun p =>
              { place := p, state := match p with
                  | .bin n => s.binState n
                  | .tray _ => none })
            x.inTransit x.overdue.length ((x.overdue.drop pos).take 8) x.returns.length x.hold x.mouthOccupied
            (x.lane.length + x.inTransit.length
              + (s.aisles.map fun e => (e.2.crane.active.toList ++ e.2.crane.staged.toList).countP fun j =>
                  decide (j.kind = .retrieve) && decide (j.station = some key)).sum)) .badField
    ∧ exec (.queryStatus tag .zone key pos k) s = ans q
        ((s.zones.look key).map fun x =>
          .statusZone x.state x.causes x.windowLeft
            ((s.concentrators.filter fun e => decide (e.2.zone = key)).map (·.2.health))
            ((s.shutters.filter fun e => decide (e.2.zone = key)).map fun e => (e.2.state, e.2.wait))) .badField
    ∧ exec (.queryStatus tag .faults key pos k) s = ans q
        (some (.statusFaults s.faults.state s.faults.first s.faults.halting)) .badField
    ∧ exec (.readIdentity tag) s = ans s (some (.identity s.mode s.startCause s.haltedBefore)) .badField

/-! ### Frames, terminal text and the start of a restart -/

/-- R186, R187, R193, R194, R199: a bad frame changes nothing; an ORDER frame of no known kind, without its fields, of no item or
more than 8, or of a table outside the eleven is refused; a field telegram that is not its sender's is dropped, with
FIELD_PROTOCOL. RESTART is accepted in every mode and state, and the restart waits until the replies have been sent. The
model's, DEDUCED: RESTART_TAKES_EFFECT out of turn has no effect (log 25), and the subject of a sender without a record is zone 0
(log 26). -/
def Obligations.UnreadableFramesAndTheRestartOrder : Prop :=
  ∀ (tag k src : Nat) (p : Port) (l : List Byte) (s : State),
    exec (.badFrame p l) s = .next s
    ∧ (s.receives tag = true →
      exec (.restart tag) s = .next ({ s with link := { s.link with restartPending := true } }.acceptOrder tag .empty))
    ∧ ((s.link.restartPending = false ∨ s.link.replies ≠ []) → exec .restartTakesEffect s = .next s)
    ∧ (s.link.restartPending = true → s.link.replies = [] → s.link.waiting = [] →
        exec .restartTakesEffect s = .next
          ({ (s.restart .restartOrder) with link := { (s.restart .restartOrder).link with waiting := [] } }))
    ∧ (s.portOpen = true →
        exec (.unknownOrder tag (.kind k)) s =
          .next (s.refuseOrder tag (if within 1 20 k then .malformed else .unknownOrder) 0)
        ∧ (tag ≠ 0 → within 1 11 k = false →
            exec (.unknownOrder tag (.table k)) s =
              .next (s.refuseOrder tag (if s.isHalted then .halted else .badField) 0))
        ∧ ∀ st items, items.length = 0 ∨ 8 < items.length →
            exec (.requestItem tag st items) s = .next (s.refuseOrder tag .malformed 0))
    ∧ (s.addresses.look src = none → exec (.unadmittedFieldTelegram src k) s = .next s)
    ∧ ∀ d, s.addresses.look src = some d → s.mode = .inService →
        exec (.unadmittedFieldTelegram src k) s = .next
          (s.post { kind := .fieldProtocol, order := none, code := some (.number k)
                    subject := match d.role with
                      | .crane => .aisle d.index
                      | .station => .station d.index
                      | .shutter => .zone (((s.shutters.look d.index).map (·.zone)).getD 0)
                      | .concentrator => .zone (((s.concentrators.look d.index).map (·.zone)).getD 0) })

/-- R103: terminal text passes both ways while the station's zone is NORMAL or ALERT, and is dropped otherwise, in
COMMISSIONING, and for a station without a record; PASS_UP joins the routine queue or sets its overrun pending mark (R190).
Nothing else changes. -/
def Obligations.TerminalTextPassesInOpenZones : Prop :=
  ∀ (st src : Nat) (l : List Byte) (s : State),
    (s.mode = .commissioning → exec (.passDown st l) s = .next s ∧ exec (.terminalKey src l) s = .next s)
    ∧ (s.stations.look st = none → exec (.passDown st l) s = .next s)
    ∧ ∀ x z, s.mode = .inService → s.stations.look st = some x → s.zones.look x.loaded.zone = some z →
      ((z.state = .normal ∨ z.state = .alert) →
        exec (.passDown st l) s = .next
          { s with link := { s.link with
              field := s.link.field ++ [fieldFrame x.loaded.address (.terminalText l)] } }
        ∧ (s.admits src .station st = true → exec (.terminalKey src l) s = .next
            { s with link :=
                if s.link.routine.length < 64 then { s.link with routine := s.link.routine ++ [.passUp st l] }
                else { s.link with routineOverrun := true } }))
      ∧ ((z.state = .shutdown ∨ z.state = .secured ∨ z.state = .restoring) →
          exec (.passDown st l) s = .next s
          ∧ (s.admits src .station st = true → exec (.terminalKey src l) s = .next s))

/-! ### Restart, close and reopening -/

/-- R20, R36, R83, R104, R107, R157, R176, R185, R199, R200: the reset line, or a RESTART order whose replies have been sent,
converts every working record and keeps the loaded ones. A crane left PARKING in IN_SERVICE has its PARK active, and one left
STOPPED in SHUTDOWN is sent STOP. AISLE_STATE and ZONE_STATE are posted after the queues are emptied. The model's: SECURED is
judged at the restart (log 17, DEDUCED), the causes of a zone kept shut are formed afresh (log 39), the reports stand in the
order of log 22, the commands that wait outside stay (log 31), and so does what was sent (log 9, all four DESIGN CHOICE). That
AISLE_STATE and ZONE_STATE carry no order tag is the model's choice (log 44). -/
def Obligations.RestartConvertsEveryRecord : Prop :=
  ∀ (c : Instr) (cause : StartCause) (s : State), s.tablesLawful = true → s.link.waiting = [] →
    ((c = .resetLineAsserted ∧ cause = .resetLine)
      ∨ (c = .restartTakesEffect ∧ cause = .restartOrder ∧ s.link.restartPending = true ∧ s.link.replies = [])) →
    let sent (t : State) : List Frame := t.link.field.drop s.link.field.length
    let park (k : Nat) : Job :=
      { tag := k, kind := .park, bin := none, source := none, destination := .frontPort, station := none, purpose := none }
    let shut (x : Zone) : Bool :=
      decide (x.state = .shutdown) || decide (x.state = .restoring) || (decide (x.state ≠ .secured) && s.firePanel)
    ∃ t : State, exec c s = .next t ∧
      t.startCause = cause ∧ t.haltedBefore = s.isHalted ∧ t.mode = s.mode ∧ t.addresses = s.addresses
      ∧ t.classes = s.classes ∧ t.settings = s.settings ∧ t.firePanel = s.firePanel ∧ t.keyLine = s.keyLine
      ∧ t.nextRequest = s.nextRequest ∧ t.pending = s.pending ∧ t.requests = []
      ∧ t.faults = { s.faults with state := .clear, first := none, halting := none, haltedLine := false }
      ∧ t.securedLine = securedLevel t.zones
      ∧ t.link.replies = [] ∧ t.link.restartPending = false ∧ t.link.waiting = [] ∧ t.link.sent = s.link.sent
      ∧ ((s.link.urgent ≠ [] ∨ s.link.urgentOverrun = true) → t.link.urgentOverrun = true)
      ∧ ((s.link.routine ≠ [] ∨ s.link.routineOverrun = true) → t.link.routineOverrun = true)
      ∧ t.items = (s.items.mapRecords fun _ i =>
          match i.state with
          | .requested => { i with state := .shelved }
          | .picked => { i with state := .held }
          | .returning => { i with state := .overflow, target := none }
          | .shelved | .lent | .held | .overflow => i)
      ∧ (∀ n b, s.bins.look n = some b →
          t.bins.look n = some
            { b with
              trip := none, next := none, pendingHome := none
              reserved := b.reserved - ((s.items.filter fun e =>
                decide (e.2.state = .returning) && decide (e.2.target = some n)).map fun e => e.2.thickness).sum
              state := match b.state with
                | .called => .stored
                | .onCrane | .inTransit | .inLane | .lockedOut | .homebound => .inDoubt
                | .stored | .missing | .inDoubt => b.state })
      ∧ t.stations = (s.stations.mapRecords fun _ x =>
          { x with lane := [], inTransit := [], overdue := [], returns := [], hold := false })
      ∧ t.concentrators = (s.concentrators.mapRecords fun _ x =>
          { x with health := .unheard, token := none
                   supervision := if s.mode = .inService then some x.period else none })
      ∧ s.link.field ++ sent t = t.link.field
      ∧ (∀ a x, s.aisles.look a = some x →
          (s.mode = .inService ∨ s.zoneState x.geom.zone ≠ some .shutdown) → ∃ y, t.aisles.look a = some y ∧
          y.geom = x.geom ∧ y.retry = x.retry
          ∧ y.service = (if x.service = .draining then .outOfService else x.service)
          ∧ y.crane.position = none ∧ y.crane.staged = none ∧ y.crane.suspension = none ∧ y.crane.stopWait = none
          ∧ y.crane.retryIndex = 0
          ∧ (y.crane.state ≠ .parking ∨ s.mode = .commissioning →
              y.queue = [] ∧ y.crane.active = none ∧ y.crane.phase = none ∧ y.crane.deadline = none)
          ∧ (s.mode = .inService → y.crane.state = .parking → (s.zoneState x.geom.zone).isSome = true →
              ∃ k, y.queue = [] ∧ y.crane.active = some (park k) ∧ y.crane.phase = some .toDest
                ∧ y.crane.deadline = some
                    { left := deadlineFor x.geom
                        (leg x.geom { bay := x.geom.bays, level := x.geom.levels } { bay := 0, level := 1 })
                      running := true }
                ∧ ∀ d, s.craneAddress a = some d → fieldFrame d (.park k) ∈ sent t)
          ∧ (s.mode = .inService → x.service = .inService → (s.zones.look x.geom.zone).any shut = true →
              ∀ d, s.craneAddress a = some d → fieldFrame d .stop ∈ sent t)
          ∧ y.crane.state =
              if x.service ≠ .inService then (if x.crane.state = .faulted then .faulted else .outOfService)
              else if s.mode = .commissioning then .parking
              else match s.zoneState x.geom.zone with
                | some .shutdown | some .secured | some .restoring => .stopped
                | some .normal | some .alert => if s.firePanel then .stopped else .parking
                | none => .parking)
      ∧ (s.mode = .inService → ∀ z x, s.zones.look z = some x →
          t.zones.look z = some
            (if (x.state = .normal ∨ x.state = .alert) ∧ s.firePanel = false then
              { x with state := .alert, causes := t.causesOf z true, windowLeft := some x.window }
            else
              { x with
                state := if x.state = .secured ∨ t.securedCondition z = true then .secured else .shutdown
                causes := t.causesOf z true, windowLeft := none }))
      ∧ (s.mode = .inService → ∀ n h x, s.shutters.look n = some h → s.zones.look h.zone = some x →
          let g := { h with wait := none, state := if h.state = .waitingMouth then .opened else h.state }
          t.shutters.look n = some
            (if x.state = .shutdown ∨ x.state = .restoring ∨ (x.state ≠ .secured ∧ s.firePanel = true) then
              g.shut (s.mouthOccupiedAt n) s.settings.shutter
            else g))
      ∧ (s.mode = .commissioning → ∀ z x, s.zones.look z = some x → (x.state = .normal ∨ x.state = .alert) →
          t.zones.look z = some x)
      ∧ (s.mode = .inService → ∀ st x, s.stations.look st = some x → (s.zones.look x.loaded.zone).any shut = true →
          fieldFrame x.loaded.address .hold ∈ sent t ∧ fieldFrame x.loaded.address .retract ∈ sent t)
      ∧ ((s.mode = .inService ∨ ∀ z x, s.zones.look z = some x → x.state = .normal ∨ x.state = .alert) →
          let drained := s.aisles.select fun x => decide (x.service = .draining)
          let changed := if s.mode = .inService then s.zones.filterMap fun e =>
              if shut e.2 then (if e.2.state = .shutdown then none else some (zoneReport .shutdown e.1))
              else if e.2.state = .normal then some (zoneReport .alert e.1) else none
            else []
          let secured := s.zones.filterMap fun e =>
            if e.2.state ≠ .secured ∧ t.zoneState e.1 = some .secured then some (zoneReport .secured e.1) else none
          let w := ({ s with link := { s.link with
              urgent := [], routine := [], urgentOverrun := s.link.urgentOverrun || !s.link.urgent.isEmpty
              routineOverrun := s.link.routineOverrun || !s.link.routine.isEmpty } } : State).posted
            ((drained.map fun a =>
              { kind := .aisleState, subject := .aisle a, order := none, code := some (.service .outOfService) })
              ++ changed ++ secured)
          t.link.urgent = w.link.urgent ∧ t.link.urgentOverrun = w.link.urgentOverrun
            ∧ t.link.routine = w.link.routine ∧ t.link.routineOverrun = w.link.routineOverrun)

/-- The six checks of R197, in their order: the close is accepted where all hold, and is otherwise refused CHECK_FAILED. -/
def Obligations.CloseMakesSixChecks : Prop :=
  ∀ (tag : Nat) (s : State), s.receives tag = true → s.isHalted = false → s.mode = .commissioning →
    s.tablesLawful = true →
    let one := (∀ n b, s.bins.look n = some b → s.slotInBounds b.home = true
      ∧ ∀ m d, s.bins.look m = some d → d.home = b.home → m = n)
    let two := (∀ a x, s.aisles.look a = some x → (s.zones.look x.geom.zone).isSome = true)
      ∧ (∀ a x, s.stations.look a = some x → (s.zones.look x.loaded.zone).isSome = true
          ∧ ∀ k, x.loaded.shutter = some k → ∃ h, s.shutters.look k = some h ∧ h.zone = x.loaded.zone)
      ∧ (∀ a x, s.concentrators.look a = some x → (s.zones.look x.zone).isSome = true)
      ∧ ∀ a x, s.shutters.look a = some x → (s.zones.look x.zone).isSome = true
    let three := (∀ a x, s.stations.look a = some x → x.loaded.linked ≠ [])
    let four := (∀ z x, s.zones.look z = some x → ∃ n d, s.concentrators.look n = some d ∧ d.zone = z)
    let five := (∀ ad d, s.addresses.look ad = some d →
        (d.role = .crane → (s.aisles.look d.index).isSome = true)
        ∧ (d.role = .station → (s.stations.look d.index).isSome = true)
        ∧ (d.role = .shutter → (s.shutters.look d.index).isSome = true)
        ∧ (d.role = .concentrator → (s.concentrators.look d.index).isSome = true))
      ∧ (∀ a x, s.stations.look a = some x → s.addresses.look x.loaded.address = some { role := .station, index := a })
      ∧ (∀ a x, s.concentrators.look a = some x → s.addresses.look x.address = some { role := .concentrator, index := a })
      ∧ (∀ a x, s.shutters.look a = some x → s.addresses.look x.address = some { role := .shutter, index := a })
      ∧ ∀ a x, s.aisles.look a = some x → ∃ ad, s.addresses.look ad = some { role := .crane, index := a }
    let six := (∀ n b, s.bins.look n = some b → b.fill + b.reserved ≤ b.capacity)
    let refused (k : Nat) := exec (.closeCommissioning tag) s = .next (s.refuseOrder tag .checkFailed k)
    (¬one → refused 1) ∧ (one → ¬two → refused 2) ∧ (one → two → ¬three → refused 3)
      ∧ (one → two → three → ¬four → refused 4) ∧ (one → two → three → four → ¬five → refused 5)
      ∧ (one → two → three → four → five → ¬six → refused 6)
      ∧ (one → two → three → four → five → six →
          ∃ t : State, exec (.closeCommissioning tag) s = .next (t.acceptOrder tag .empty) ∧ t.mode = .inService)

/-- R60, R156, R197: an accepted close sets IN_SERVICE; every concentrator begins UNHEARD with its supervision armed, every zone
in ALERT with START (in SHUTDOWN where the fire panel mark is ASSERTED), every crane of an IN_SERVICE aisle PARKING with its
PARK active (or STOPPED, with STOP sent). ZONE_STATE is posted for each zone, and again for each that is at once SECURED (R167);
no other report is. In IN_SERVICE the order is accepted with no effect. The secured line stands as the zones have it before,
which every step keeps (R168). That the reports stand in ascending zone, those of SECURED last, is the model's choice (log 22).
That ZONE_STATE carries no order tag is the model's choice (log 44). -/
def Obligations.CloseSetsUpTheWing : Prop :=
  ∀ (tag : Nat) (s : State), s.receives tag = true → s.isHalted = false → s.tablesLawful = true →
    s.securedLawful = true →
    let park (k : Nat) : Job :=
      { tag := k, kind := .park, bin := none, source := none, destination := .frontPort, station := none, purpose := none }
    (s.mode = .inService → exec (.closeCommissioning tag) s = .next (s.acceptOrder tag .empty))
    ∧ (s.mode = .commissioning → s.failingCheck = none →
      ∃ t : State, exec (.closeCommissioning tag) s = .next (t.acceptOrder tag .empty)
        ∧ t = { s with mode := .inService, zones := t.zones, concentrators := t.concentrators, aisles := t.aisles
                       stations := t.stations, shutters := t.shutters, nextJob := t.nextJob
                       securedLine := securedLevel t.zones
                       link := { s.link with urgent := t.link.urgent, urgentOverrun := t.link.urgentOverrun
                                             field := t.link.field } }
        ∧ t.concentrators = (s.concentrators.mapRecords fun _ x =>
            { x with health := .unheard, token := none, supervision := some x.period })
        ∧ (∀ z x, s.zones.look z = some x →
            t.zones.look z = some
              { x with
                causes := t.causesOf z true
                windowLeft := if s.firePanel then none else some x.window
                state := if !s.firePanel then .alert else if t.securedCondition z then .secured else .shutdown })
        ∧ (∀ a x, s.aisles.look a = some x → ∃ y, t.aisles.look a = some y ∧ y.geom = x.geom ∧ y.service = x.service
            ∧ y.retry = x.retry
            ∧ (x.service = .inService → y.crane.position = none
                ∧ y.crane.state = (if s.firePanel then .stopped else .parking)
                ∧ (s.firePanel = false → ∃ j : Job, j.kind = .park ∧ y.holds j = true)
                ∧ (s.firePanel = false → x.crane.active = none → x.crane.staged = none →
                    (∀ j ∈ x.queue, j.kind ≠ .park) →
                    ∃ k, y.queue = x.queue ∧ y.crane.active = some (park k) ∧ y.crane.phase = some .toDest
                      ∧ y.crane.retryIndex = 0
                      ∧ y.crane.deadline = some
                          { left := deadlineFor x.geom
                              (leg x.geom { bay := x.geom.bays, level := x.geom.levels } { bay := 0, level := 1 })
                            running := true }
                      ∧ ∀ d, s.craneAddress a = some d → fieldFrame d (.park k) ∈ t.link.field.drop s.link.field.length)
                ∧ (s.firePanel = true → ∀ d, s.craneAddress a = some d →
                    fieldFrame d .stop ∈ t.link.field.drop s.link.field.length))
            ∧ ((x.crane.state = .outOfService ∨ x.crane.state = .faulted) → x.service = .outOfService →
                y.crane.state = x.crane.state))
        ∧ t.stations = (s.stations.mapRecords fun _ x =>
            if s.firePanel then
              { x with inTransit := x.inTransit.map fun e => { e with deadline := { e.deadline with running := false } } }
            else x)
        ∧ t.shutters = (s.shutters.mapRecords fun n h =>
            if s.firePanel then h.shut (s.mouthOccupiedAt n) s.settings.shutter else h)
        ∧ (t.link.urgent, t.link.urgentOverrun)
            = let zones := s.zones.map (·.1)
              let w := s.posted (zones.map (zoneReport (if s.firePanel then .shutdown else .alert))
                ++ if s.firePanel then (zones.filter t.securedCondition).map (zoneReport .secured) else [])
              (w.link.urgent, w.link.urgentOverrun))

/-- R155, R198: REOPEN_COMMISSIONING needs the key and an idle wing; it sets COMMISSIONING, brings every zone to NORMAL with no
cause, disarms the windows and supervisions, and empties overdue lists and holds. In COMMISSIONING it has no effect. The
model's: the cause sets are empty although detector maps are kept (log 19, DEDUCED), and the ZONE_STATE reports stand in
ascending zone (log 22, DESIGN CHOICE). That ZONE_STATE carries no order tag is the model's choice (log 44). -/
def Obligations.ReopenReturnsToCommissioning : Prop :=
  ∀ (tag : Nat) (key : Bool) (s : State), s.receives tag = true → s.isHalted = false → s.tablesLawful = true →
    s.securedLawful = true →
    let q := s.setKeyLine key
    let left := s.zones.select fun x => decide (x.state = .alert)
    let busy := (∃ a x, s.aisles.look a = some x ∧ x.jobs ≠ []) ∨ s.requests ≠ []
      ∨ (∃ st x, s.stations.look st = some x ∧ (x.returns ≠ [] ∨ x.lane ≠ [] ∨ x.inTransit ≠ []))
      ∨ (∃ n b, s.bins.look n = some b
          ∧ b.state ∈ [BinState.onCrane, .inTransit, .inLane, .lockedOut, .homebound])
      ∨ ∃ z x, s.zones.look z = some x ∧ x.state ≠ .normal ∧ x.state ≠ .alert
    (s.mode = .commissioning → exec (.reopenCommissioning tag key) s = .next (q.acceptOrder tag .empty))
    ∧ (s.mode = .inService → key = false →
        exec (.reopenCommissioning tag key) s = .next (q.refuseOrder tag .locked 0))
    ∧ (s.mode = .inService → key = true → busy →
        exec (.reopenCommissioning tag key) s = .next (q.refuseOrder tag .wingBusy 0))
    ∧ (s.mode = .inService → key = true → ¬busy →
        exec (.reopenCommissioning tag key) s = .next
          ({ q with
             mode := .commissioning
             zones := s.zones.mapRecords fun _ x =>
               { x with state := .normal, windowLeft := none
                        causes := { prealarm := false, trouble := false, silent := false, token := false, start := false } }
             concentrators := s.concentrators.mapRecords fun _ x =>
               { x with health := .unheard, token := none, supervision := none }
             stations := s.stations.mapRecords fun _ x => { x with overdue := [], hold := false }
             link := (s.posted (left.map (zoneReport .normal))).link
           }.acceptOrder tag .empty))

/-! ### Zone conditions and suspension records -/

/-- R167, R168, R171, R172, R151: a zone in SHUTDOWN becomes SECURED when every shutter of it is CLOSED and every crane of its
aisles STOPPED, FAULTED or OUT_OF_SERVICE; a RESTORING one becomes NORMAL (ALERT, with a cause) when every shutter is OPEN and
no crane PARKING, STOPPING or STOPPED: its stations get RESUME, and PRESENT for a presented bin, their in-transit deadlines run
again, and the suspension records of its aisles are resolved. ZONE_STATE for that ALERT is the last report of the event. The
model's choice (log 22), since these actions need no order among themselves (R172): the stations are resumed in ascending
number, each with its PRESENT, and then the records are resolved in ascending number of their aisles. That ZONE_STATE carries no
order tag is the model's choice (log 44). -/
def Obligations.ZoneConditionsEndShutdownAndRestoration : Prop :=
  ∀ (z : Nat) (x : Zone) (s : State), s.zones.look z = some x → s.tablesLawful = true →
    let shuts (v : ShutterState) := ∀ n h, s.shutters.look n = some h → h.zone = z → h.state = v
    let cranes (l : List CraneState) := ∀ a y, s.aisles.look a = some y → y.geom.zone = z → y.crane.state ∈ l
    (x.state = .shutdown →
      (shuts .closed ∧ cranes [.stopped, .faulted, .outOfService] →
        s.judgeZone z =
          { s.post (zoneReport .secured z) with
            zones := s.zones.adjust z fun x => { x with state := .secured }
            securedLine := securedLevel (s.zones.adjust z fun x => { x with state := .secured }) })
      ∧ (¬(shuts .closed ∧ cranes [.stopped, .faulted, .outOfService]) → s.judgeZone z = s))
    ∧ (x.state = .restoring →
      (¬(shuts .opened ∧ cranes [.idle, .busy, .faulted, .outOfService]) → s.judgeZone z = s)
      ∧ (shuts .opened ∧ cranes [.idle, .busy, .faulted, .outOfService] →
          let zones := s.zones.adjust z fun x =>
            if x.causes.isEmpty then { x with state := .normal }
            else { x with state := .alert, windowLeft := some x.window }
          let told := s.stations.flatMap fun e =>
            if e.2.loaded.zone = z then
              fieldFrame e.2.loaded.address .resume ::
                match s.presentedBin e.1 with
                | some n => [fieldFrame e.2.loaded.address (s.presentTelegram e.1 n)]
                | none => []
            else []
          let normal : State :=
            { s with
              zones := zones, securedLine := securedLevel zones
              stations := s.stations.mapRecords fun _ y =>
                if y.loaded.zone = z then
                  { y with inTransit := y.inTransit.map fun t => { t with deadline := { t.deadline with running := true } } }
                else y
              link := { (s.post (zoneReport .normal z)).link with field := s.link.field ++ told } }
          let resolved := ((s.aisles.filter fun e => decide (e.2.geom.zone = z)).map (·.1)).foldl State.resolveRecord normal
          s.judgeZone z = (if x.causes.isEmpty then resolved else resolved.post (zoneReport .alert z))
          ∧ (s.judgeZone z).zones = zones
          ∧ (s.judgeZone z).stations.map (fun e => (e.1, e.2.inTransit)) = normal.stations.map (fun e => (e.1, e.2.inTransit))
          ∧ ((∀ a y, s.aisles.look a = some y → y.geom.zone = z → y.crane.suspension = none) → resolved = normal)))
    ∧ ((x.state = .normal ∨ x.state = .alert ∨ x.state = .secured) → s.judgeZone z = s)

/-- R4, R78, R79, R81, R174, Table 9.4: with no bin on the forks an AUDIT, or a recoverable job stopped in TO_SOURCE, goes back
to its queue; another job is dropped and its home slot audited. A DRAINING aisle then ends its service. A bin on the forks that
is not the job's ends the crane's service. A record that resumes, or has no park label, stays. A load that no job accounts for
is judged and reported, and ends the service of crane and aisle. The model's: the code of UNEXPECTED_BIN is absent (log 12), and
a job joins its queue although its bin stands in a lane (log 20, both DEDUCED); a park label of 16,384 or more is resolved as
that of another bin (log 38, DESIGN CHOICE). That AISLE_STATE and UNEXPECTED_BIN carry no order tag is the model's choice (log
44). -/
def Obligations.SuspensionRecordsResolveByParkLabel : Prop :=
  (∀ (a : Nat) (s : State), (∀ x, s.aisles.look a = some x → x.crane.suspension = none) → s.resolveRecord a = s)
  ∧ (∀ (a : Nat) (x : Aisle) (r : Suspension) (s : State), s.aisles.look a = some x → x.crane.suspension = some r →
      s.tablesLawful = true →
      let drained (u : State) : State :=
        if x.service = .draining ∧ x.crane.active = none then
          { u with aisles := u.aisles.adjust a fun x =>
              { x with service := .outOfService, crane := { x.crane with state := .outOfService } } }.post
            { kind := .aisleState, subject := .aisle a, order := none, code := some (.service .outOfService) }
        else u
      let gone (x : Aisle) : Aisle := { x with crane := { x.crane with suspension := none } }
      ((r.parkLabel = none ∨ r.resumes = true) → s.resolveRecord a = s)
      ∧ (r.parkLabel = some .none → (r.job.kind = .audit ∨ (r.recoverable = true ∧ r.phaseAtStop = .toSource)) →
          s.resolveRecord a =
            drained { s with aisles := s.aisles.adjust a fun x => { gone x with queue := rejoinQueue x.queue r.job } })
      ∧ (r.parkLabel = some .none → r.job.kind ≠ .audit → (r.recoverable = false ∨ r.phaseAtStop ≠ .toSource) →
          ∀ n b, r.job.bin = some n → s.bins.look n = some b →
          let u := ({ s with aisles := s.aisles.adjust a gone }).dropJob r.job
          s.resolveRecord a = drained
            { u with
              aisles := u.aisles.adjust a fun y =>
                { y with queue := y.queue ++ [{ tag := u.jobTag, kind := .audit, bin := some n
                                                source := some (.slot b.home), destination := .slot b.home
                                                station := none, purpose := none }] }
              nextJob := tagAfter u.jobTag })
      ∧ (∀ n, r.parkLabel = some (.label n) → r.resumes = false →
          s.resolveRecord a =
            (let u := { s with aisles := s.aisles.adjust a gone }
             (if r.job.kind = .audit then u.returnJob a r.job else u.dropJob r.job).unaccountedLoad a n)))
  ∧ ∀ (a n : Nat) (x : Aisle) (s : State), s.aisles.look a = some x →
      let u := if s.binState n = some .stored ∨ s.binState n = some .missing then s.enterLoss n .inDoubt none else s
      let v := u.post { kind := .unexpectedBin, subject := .bin n, order := none, code := none }
      let w := { v with
        aisles := v.aisles.adjust a fun x =>
          { x with service := .outOfService, crane := { x.crane with state := .outOfService, stopWait := none } } }
      s.unaccountedLoad a n =
        if x.service = .outOfService then w
        else w.post { kind := .aisleState, subject := .aisle a, order := none, code := some (.service .outOfService) }

/-! ### Lending -/

/-- R105, R108 to R112: an item that passes R109 becomes REQUESTED and its request takes the next tag; by the bin's trip the
request joins it (PRESENTED at once, with REQUEST_READY, under the presented bin), a new RETRIEVE calls the bin, or the bin
gets its next station, with REQUEST_DELAYED. -/
def Obligations.RequestItemTakesAShelvedItem : Prop :=
  ∀ (tag st item n : Nat) (i : Item) (b : Bin) (x : Station) (s : State), s.receivesWork tag = true →
    within 1 4294967295 item = true → s.items.look item = some i → i.state = .shelved → i.home = some n →
    s.bins.look n = some b → within 1 4 st = true → s.stations.look st = some x → x.loaded.lending = true →
    b.home.aisle ∈ x.loaded.linked → b.state ≠ .missing → b.state ≠ .inDoubt → s.requests.length < 64 →
    let u (v : RequestState) : State :=
      { s with
        items := s.items.adjust item fun i => { i with state := .requested }
        nextRequest := tagAfter s.requestTag
        requests := s.requests ++
          [{ tag := s.requestTag, order := tag, item := item, station := st, state := v, window := none }] }
    let yes : Result := .outcomes [(none, s.requestTag)]
    let told (k : ReportKind) : Report :=
      { kind := k, subject := .item item, order := some tag, code := some (.number st) }
    (b.trip = some st → s.presentedBin st = some n →
      exec (.requestItem tag st [item]) s =
        .next ((((u .presented).post (told .requestReady)).offerPresent st).acceptOrder tag yes))
    ∧ (b.trip = some st → s.presentedBin st ≠ some n →
        exec (.requestItem tag st [item]) s =
          .next ((u (if s.laneOf n = some st then .atStation else .awaitingBin)).acceptOrder tag yes))
    ∧ (b.trip ≠ some st → b.state = .stored →
        (∀ y, s.aisles.look b.home.aisle = some y → y.queue.length < 32) →
        let called : State :=
          { u .awaitingBin with
            bins := s.bins.adjust n fun b => { b with state := .called, trip := some st }
            aisles := s.aisles.adjust b.home.aisle fun y =>
              { y with queue := y.queue ++
                [{ tag := s.jobTag, kind := .retrieve, bin := some n, source := some (.slot b.home)
                   destination := .frontPort, station := some st, purpose := some .request }] }
            nextJob := tagAfter s.jobTag }
        exec (.requestItem tag st [item]) s = .next (called.lookAll.acceptOrder tag yes)
        ∧ (s.steady = true → Dispatched called called.lookAll))
    ∧ (b.trip ≠ some st → b.state ≠ .stored → (b.next = none ∨ b.next = some st) →
        exec (.requestItem tag st [item]) s = .next
          (({ u .awaitingBin with bins := s.bins.adjust n fun b => { b with next := some st } }.post
            (told .requestDelayed)).acceptOrder tag yes))
    ∧ (b.trip ≠ some st → b.state ≠ .stored → (∃ o, b.next = some o ∧ o ≠ st) →
        exec (.requestItem tag st [item]) s = .next (s.acceptOrder tag (.outcomes [(some .binBusy, 0)])))

/-- R108, R109: the items of one order are judged in turn, each on the records as the items before it have left them, and
each gets its own outcome; an item that fails a check changes nothing. -/
def Obligations.RequestItemsAreJudgedInTurn : Prop :=
  ∀ (tag st item : Nat) (rest : List Nat) (s : State), s.receivesWork tag = true → within 1 7 rest.length = true →
    ∃ (u v : State) (r : Option RefusalCode × Nat) (l : List (Option RefusalCode × Nat)),
      exec (.requestItem tag st [item]) s = .next (u.acceptOrder tag (.outcomes [r]))
      ∧ exec (.requestItem tag st rest) u = .next (v.acceptOrder tag (.outcomes l))
      ∧ exec (.requestItem tag st (item :: rest)) s = .next (v.acceptOrder tag (.outcomes (r :: l)))
      ∧ l.length = rest.length
      ∧ (r.1 ≠ none → u = s ∧ r.2 = 0)
      ∧ (s.items.look item = none → r.1 = some .unknownItem)
      ∧ (∀ i, s.items.look item = some i → within 1 4294967295 item = true →
          (i.state ≠ .shelved → r.1 = some .itemNotShelved)
          ∧ (i.state = .shelved →
            (s.stations.look st = none ∨ within 1 4 st = false → r.1 = some .badStation)
            ∧ ∀ x, s.stations.look st = some x → within 1 4 st = true →
              (x.loaded.lending = false → r.1 = some .badStation)
              ∧ ∀ n b, x.loaded.lending = true → i.home = some n → s.bins.look n = some b →
                (b.home.aisle ∉ x.loaded.linked → r.1 = some .notReachable)
                ∧ (b.home.aisle ∈ x.loaded.linked →
                  (b.state = .missing → r.1 = some .binMissing)
                  ∧ (b.state = .inDoubt → r.1 = some .binInDoubt)
                  ∧ (b.state ≠ .missing → b.state ≠ .inDoubt → 64 ≤ s.requests.length → r.1 = some .listFull)
                  ∧ (b.state = .stored → s.requests.length < 64 → b.trip ≠ some st →
                      ∀ y, s.aisles.look b.home.aisle = some y → 32 ≤ y.queue.length → r.1 = some .queueFull))))

/-- R115 to R117: a confirmed loan makes the item LENT and frees its room in the home bin; a cancelled one, or an expired
window, makes it HELD with its room kept; each ends the request. The expiry alone posts LOAN_EXPIRED. The model's, DEDUCED: its
code is absent (log 12), and an expiry of a window that has not run out has no effect (log 3). -/
def Obligations.LoanDecisionsEndTheRequest : Prop :=
  ∀ (tag item n : Nat) (i : Item) (r : Request) (s : State), s.items.look item = some i →
    within 1 4294967295 item = true → i.home = some n →
    let ended (v : ItemState) : State :=
      { s with
        items := s.items.adjust item fun i => { i with state := v }
        requests := s.requests.filter fun q => !decide (q.item = item) }
    (s.receivesWork tag = true → r ∈ s.requests → r.item = item → within 1 65535 r.tag = true → i.state = .picked →
      exec (.confirmLoan tag item r.tag) s = .next
        ({ ended .lent with
           bins := s.bins.adjust n fun b => { b with reserved := b.reserved - i.thickness } }.acceptOrder tag .empty)
      ∧ exec (.cancelLoan tag item r.tag) s = .next ((ended .held).acceptOrder tag .empty))
    ∧ (s.receivesWork tag = true → within 1 65535 r.tag = true → (i.state = .held ∨ i.state = .lent) →
        exec (.confirmLoan tag item r.tag) s = .next (s.refuseOrder tag .tooLate 0)
        ∧ exec (.cancelLoan tag item r.tag) s = .next (s.refuseOrder tag .tooLate 0))
    ∧ (s.mode = .inService → (s.requests.find? fun q => decide (q.tag = r.tag)) = some r → r.item = item →
        ((∀ w, r.window = some w → 1 < w) → exec (.confirmWindowExpiry r.tag) s = .next s)
        ∧ ∀ w, r.window = some w → w ≤ 1 → exec (.confirmWindowExpiry r.tag) s = .next
            ((ended .held).post
              { kind := .loanExpired, subject := .item item, order := some r.order, code := none }))

/-- R118, R119, R58, R64: a withdrawn request leaves the list and its item becomes SHELVED, with PRESENT again where it was
PRESENTED. Where the bin need not come any more, its queued RETRIEVE is removed, or its staged one dropped with UNSTAGE, and
the bin is STORED again, or is called on to its next station where a request or return entry of that station stands on it; otherwise
its next station, where it is this one, is cleared. That a bin which is not CALLED keeps its state when its RETRIEVE is removed is the
model's (log 20, DEDUCED). -/
def Obligations.WithdrawRequestSettlesTheTrip : Prop :=
  ∀ (tag n : Nat) (i : Item) (r : Request) (s : State), s.receivesWork tag = true → within 1 65535 r.tag = true →
    (s.requests.find? fun q => decide (q.tag = r.tag)) = some r → s.items.look r.item = some i → i.home = some n →
    (r.state = .picked → exec (.withdrawRequest tag r.tag) s = .next (s.refuseOrder tag .alreadyPicked 0))
    ∧ (r.state ≠ .picked →
      let u : State :=
        { s with
          requests := s.requests.filter fun q => !decide (q.item = r.item)
          items := s.items.adjust r.item fun i => { i with state := .shelved } }
      let v := if r.state = .presented then u.offerPresent r.station else u
      let stands (o : Nat) (q : Request) : Prop :=
        q.state ≠ .picked ∧ q.station = o ∧ ∃ i, v.items.look q.item = some i ∧ i.home = some n
      let awaits (o : Nat) : Prop := ∃ y, v.stations.look o = some y ∧ ∃ e ∈ y.returns, e.target = n
      let served (j : Job) : Prop := j.bin = some n ∧ j.kind = .retrieve ∧ j.station = some r.station
      let call (w : State) (b : Bin) (o : Nat) (p : Purpose) : State :=
        { w with
          bins := s.bins.adjust n fun b => { b with state := .called, trip := some o, next := none }
          aisles := w.aisles.adjust b.home.aisle fun x =>
            { x with queue := x.queue ++
              [{ tag := w.jobTag, kind := .retrieve, bin := some n, source := some (.slot b.home), destination := .frontPort
                 station := some o, purpose := some p }] }
          nextJob := tagAfter w.jobTag }
      let home (w : State) : State :=
        { w with bins := s.bins.adjust n fun b => { b with state := .stored, trip := none, next := none } }
      let done (w : State) : Prop :=
        ∃ t : State, exec (.withdrawRequest tag r.tag) s = .next (t.acceptOrder tag .empty) ∧ Settled w t
      let back (w : State) (b : Bin) : Prop :=
        (b.state ≠ .called → done w)
        ∧ (b.state = .called →
          (b.next = none → done (home w))
          ∧ ∀ o, b.next = some o →
            ((∃ q ∈ v.requests, stands o q) → done (call w b o .request))
            ∧ ((¬∃ q ∈ v.requests, stands o q) → awaits o → done (call w b o .ret))
            ∧ ((¬∃ q ∈ v.requests, stands o q) → ¬awaits o → done (home w)))
      (v.stillNeeded n r.station = true ↔
        (∃ q ∈ v.requests, stands r.station q) ∨ awaits r.station
          ∨ ∃ e ∈ v.aisles, ∃ j ∈ e.2.jobs, served j ∧ j.purpose = some .call)
      ∧ (∀ a, v.queuedFor n r.station = some a → ∃ x, (a, x) ∈ v.aisles ∧ ∃ j ∈ x.queue, served j)
      ∧ (v.queuedFor n r.station = none → ∀ e ∈ v.aisles, ∀ j ∈ e.2.queue, ¬served j)
      ∧ (∀ a, v.stagedFor n r.station = some a → ∃ x, (a, x) ∈ v.aisles ∧ ∃ j, x.crane.staged = some j ∧ served j)
      ∧ (v.stagedFor n r.station = none → ∀ e ∈ v.aisles, ∀ j, e.2.crane.staged = some j → ¬served j)
      ∧ (v.stillNeeded n r.station = true →
        exec (.withdrawRequest tag r.tag) s = .next (v.acceptOrder tag .empty))
      ∧ (∀ a b, v.stillNeeded n r.station = false → v.queuedFor n r.station = some a → s.bins.look n = some b →
          back { v with aisles := v.aisles.adjust a fun x =>
            { x with queue := x.queue.filter fun j =>
              !(decide (j.bin = some n) && decide (j.kind = .retrieve) && decide (j.station = some r.station)) } } b)
      ∧ (∀ a b x j, v.stillNeeded n r.station = false → v.queuedFor n r.station = none →
          v.stagedFor n r.station = some a → s.bins.look n = some b → s.aisles.look a = some x → x.crane.staged = some j →
          back
            { v with
              aisles := v.aisles.adjust a fun x => { x with crane := { x.crane with staged := none } }
              link := v.link.sendTo (s.craneAddress a) (.unstage j.tag) } b)
      ∧ (v.stillNeeded n r.station = false → v.queuedFor n r.station = none → v.stagedFor n r.station = none →
          exec (.withdrawRequest tag r.tag) s = .next
            ({ v with bins := v.bins.adjust n fun b =>
                if b.next = some r.station then { b with next := none } else b }.acceptOrder tag .empty)))

/-! ### Orders on bins -/

/-- R8, R16, R17, R55, R56, R100: CALL_BIN, MOVE_BIN and AUDIT_BIN of a STORED bin make it CALLED and add their job at the
tail of its aisle's queue; a CALL of a bin on its way to the station marks the RETRIEVE; an AUDIT of a MISSING or IN_DOUBT
bin leaves its state. -/
def Obligations.BinOrdersQueueOneJob : Prop :=
  ∀ (tag n : Nat) (b : Bin) (s : State), s.receivesWork tag = true → n ≤ 16383 → s.bins.look n = some b →
    let joined (c : Instr) (u : State) (j : Job) : Prop :=
      ∃ t : State, exec c s = .next (t.acceptOrder tag .empty)
        ∧ Settled { u with
            aisles := s.aisles.adjust b.home.aisle fun y => { y with queue := y.queue ++ [j] }
            nextJob := tagAfter s.jobTag } t
    let room := ∀ y, s.aisles.look b.home.aisle = some y → y.queue.length < 32
    (∀ st x, within 1 4 st = true → s.stations.look st = some x →
      (b.trip = some st → b.state ≠ .missing → b.state ≠ .inDoubt →
        let mark (j : Job) : Job :=
          if j.bin = some n ∧ j.kind = .retrieve ∧ j.station = some st then { j with purpose := some .call } else j
        let u : State :=
          { s with
            aisles := s.aisles.mapRecords fun _ y =>
              { y with
                queue := y.queue.map mark
                crane := { y.crane with
                  active := y.crane.active.map mark, staged := y.crane.staged.map mark
                  suspension := y.crane.suspension.map fun r => { r with job := mark r.job } } } }
        exec (.callBin tag n st) s = .next (u.acceptOrder tag .empty))
      ∧ (b.trip ≠ some st → b.state = .stored → b.home.aisle ∈ x.loaded.linked → room →
          joined (.callBin tag n st)
            { s with bins := s.bins.adjust n fun b => { b with state := .called, trip := some st } }
            { tag := s.jobTag, kind := .retrieve, bin := some n, source := some (.slot b.home)
              destination := .frontPort, station := some st, purpose := some .call })
      ∧ (b.trip ≠ some st → b.state = .stored → b.home.aisle ∉ x.loaded.linked →
          exec (.callBin tag n st) s = .next (s.refuseOrder tag .notReachable 0)))
    ∧ (∀ f v, slotOf f = some v → b.state = .stored → v.aisle = b.home.aisle → s.slotInBounds v = true → room →
        (s.slotTaken v = false →
          joined (.moveBin tag n f)
            { s with bins := s.bins.adjust n fun b => { b with state := .called, pendingHome := some v } }
            { tag := s.jobTag, kind := .transfer, bin := some n, source := some (.slot b.home)
              destination := .slot v, station := none, purpose := none })
        ∧ (s.slotTaken v = true → exec (.moveBin tag n f) s = .next (s.refuseOrder tag .slotTaken 0)))
    ∧ ((b.state = .stored ∨ b.state = .missing ∨ b.state = .inDoubt) → s.named n = false → s.inLane n = false → room →
        joined (.auditBin tag n)
          (if b.state = .stored then { s with bins := s.bins.adjust n fun b => { b with state := .called } } else s)
          { tag := s.jobTag, kind := .audit, bin := some n, source := some (.slot b.home)
            destination := .slot b.home, station := none, purpose := none })

/-- R18, R86, R87, R89, R112, R122: the bin that becomes the presented bin of a station is reported, the requests that stand on
it for the station become PRESENTED, each with REQUEST_READY, and PRESENT lists the items to pick, then those to shelve, where
the station's zone is NORMAL or ALERT. A taken RELEASE_BIN makes the bin IN_LANE in its place; as the top of its lane it is
presented. That PRESENT lists at most 15 items is the model's (log 18, DEDUCED). That BIN_PRESENTED carries no order tag is the
model's choice (log 44). -/
def Obligations.PresentationAndReleaseOfABin : Prop :=
  (∀ (st n : Nat) (x : Station) (rest : List Place) (s : State), s.stations.look st = some x →
      x.lane = .bin n :: rest → s.binState n = some .inLane →
      let on (r : Request) : Bool :=
        !decide (r.state = .picked) && decide (r.station = st) && decide ((s.items.look r.item).bind (·.home) = some n)
      let news := (s.requests.filter fun r => on r && !decide (r.state = .presented)).map fun r : Request =>
        ({ kind := .requestReady, subject := .item r.item, order := some r.order, code := some (.number st) } : Report)
      let shown : Report := { kind := .binPresented, subject := .bin n, order := none, code := some (.number st) }
      let pick := (s.requests.filter on).map (·.item)
      let shelve := (x.returns.filter fun e => decide (e.target = n)).map (·.item)
      let u := s.posted (shown :: news)
      let v := { u with requests := s.requests.map fun r => if on r then { r with state := .presented } else r }
      s.presentTop st =
        if s.stationOpen st then
          { v with link := { v.link with
              field := v.link.field ++
                [fieldFrame x.loaded.address (.present n pick.length shelve.length ((pick ++ shelve).take 15))] } }
        else v)
  ∧ (∀ (st : Nat) (x : Station) (s : State), s.stations.look st = some x →
      (∀ n, s.presentedBin st = some n ↔ (∃ rest, x.lane = .bin n :: rest) ∧ s.binState n = some .inLane)
      ∧ (s.presentedBin st = none → s.presentTop st = s ∧ s.offerPresent st = s)
      ∧ ∀ n, s.presentedBin st = some n →
          let pick := (s.requests.filter fun r =>
            decide (r.state = .presented) && decide (r.station = st)
              && decide ((s.items.look r.item).bind (·.home) = some n)).map (·.item)
          let shelve := (x.returns.filter fun e => decide (e.target = n)).map (·.item)
          s.presentTelegram st n = .present n pick.length shelve.length ((pick ++ shelve).take 15)
          ∧ s.offerPresent st =
              if s.stationOpen st then
                { s with link := { s.link with
                    field := s.link.field ++ [fieldFrame x.loaded.address (s.presentTelegram st n)] } }
              else s)
  ∧ ∀ (tag n : Nat) (b : Bin) (s : State), s.receivesWork tag = true → s.bins.look n = some b → s.named n = false →
      let u : State :=
        { s with
          bins := s.bins.adjust n fun b => { b with state := .inLane }
          stations := if b.state = .inDoubt then
              s.stations.mapRecords fun _ (x : Station) => { x with overdue := x.overdue.filter (· != n) }
            else s.stations }
      ((b.state = .lockedOut ∨ b.state = .inDoubt) → ∀ st, s.laneOf n = some st →
        exec (.releaseBin tag n) s =
          .next ((if u.presentedBin st = some n then u.presentTop st else u).acceptOrder tag .empty))
      ∧ (b.state = .missing → exec (.releaseBin tag n) s = .next (s.refuseOrder tag .binMissing 0))
      ∧ (b.state = .inDoubt → s.laneOf n = none → exec (.releaseBin tag n) s = .next (s.refuseOrder tag .binInDoubt 0))
      ∧ (b.state ≠ .lockedOut → b.state ≠ .inDoubt → b.state ≠ .missing →
          exec (.releaseBin tag n) s = .next (s.refuseOrder tag .binBusy 0))

/-! ### Orders on aisles and zones -/

/-- R4, R80, R81, R82: AISLE_OUT ends the service of an aisle whose crane holds no job and no record, and drains another;
AISLE_IN brings an OUT_OF_SERVICE aisle back, its crane PARKING with a PARK, or STOPPED with STOP sent in a zone that is
SHUTDOWN or SECURED. That AISLE_STATE carries no order tag is the model's choice (log 44). -/
def Obligations.AisleOrdersChangeTheService : Prop :=
  ∀ (tag a : Nat) (x : Aisle) (s : State), s.receivesWork tag = true → within 1 6 a = true →
    s.aisles.look a = some x →
    let told (v : Service) : Report :=
      { kind := .aisleState, subject := .aisle a, order := none, code := some (.service v) }
    let done (c : Instr) (u : State) : Prop := ∃ t : State, exec c s = .next (t.acceptOrder tag .empty) ∧ Settled u t
    (x.service = .inService → x.crane.active = none → x.crane.suspension = none →
      let u : State :=
        { s with
          aisles := s.aisles.adjust a fun x =>
            { x with
              service := .outOfService, queue := x.queue.filter fun j => !decide (j.kind = .park)
              crane := { x.crane with state := .outOfService, stopWait := none } } }
      done (.aisleOut tag a) (u.post (told .outOfService)))
    ∧ (x.service = .inService → (x.crane.active ≠ none ∨ x.crane.suspension ≠ none) →
        done (.aisleOut tag a)
          ({ s with aisles := s.aisles.adjust a fun x => { x with service := .draining } }.post (told .draining)))
    ∧ (x.service ≠ .inService → exec (.aisleOut tag a) s = .next (s.acceptOrder tag .empty))
    ∧ (x.service ≠ .outOfService → exec (.aisleIn tag a) s = .next (s.refuseOrder tag .wingBusy 0))
    ∧ (x.service = .outOfService →
        let back (v : CraneState) (q : List Job) : State :=
          { s with
            aisles := s.aisles.adjust a fun x =>
              { x with service := .inService, queue := x.queue ++ q, crane := { x.crane with state := v, position := none } } }
        ((s.zoneState x.geom.zone = some .shutdown ∨ s.zoneState x.geom.zone = some .secured) →
          done (.aisleIn tag a) (((back .stopped []).post (told .inService)).sendCrane a .stop))
        ∧ (s.zoneState x.geom.zone ≠ some .shutdown → s.zoneState x.geom.zone ≠ some .secured →
            done (.aisleIn tag a)
              ({ back .parking
                  [{ tag := s.jobTag, kind := .park, bin := none, source := none, destination := .frontPort
                     station := none, purpose := none }] with
                 nextJob := tagAfter s.jobTag }.post (told .inService))))

/-- R146, R147, R152, R153, R154, R159, R160, R164, R167: an ALARM, a second detector's PREALARM and SHUT_ZONE take their zone
from NORMAL, ALERT or RESTORING to SHUTDOWN, with the entry actions on its stations, cranes and shutters; the fire panel line
takes every zone there. A zone in SHUTDOWN or SECURED keeps its state. The model's: a zone in NORMAL passes straight to SHUTDOWN
(log 32, DEDUCED), the line asserted again is reported again (log 5, DEDUCED), and the reports stand in ascending zone (log 22,
DESIGN CHOICE). That ZONE_STATE carries no order tag is the model's choice (log 44). -/
def Obligations.FireShutsTheZone : Prop :=
  ∀ (s : State), s.tablesLawful = true → s.securedLawful = true →
    let opens (z : Nat) : List Nat := [z].filter fun z =>
      decide (s.zoneState z = some .normal) || decide (s.zoneState z = some .alert)
        || decide (s.zoneState z = some .restoring)
    let heard (n d z : Nat) (v : Condition) : State :=
      let w := { s with concentrators := s.concentrators.adjust n fun c => { c with detectors := c.detectors.put d v } }
      { w with zones := s.zones.adjust z fun x => { x with causes := w.causesOf z x.causes.start } }
    let shuts (w t : State) (l : List Nat) : Prop :=
      (∃ u, Entered w u l ∧ Settled u t) ∧ (s.steady = true → Shut w t l)
    (∀ src n d c, s.admits src .concentrator n = true → s.concentrators.look n = some c → within 1 32 d = true →
      (∃ t, exec (.alarm src d) s = .next t ∧ shuts (heard n d c.zone .alarm) t (opens c.zone))
      ∧ ((c.detectors.look d = none ∨ c.detectors.look d = some .trouble) →
          (∃ m e k, s.concentrators.look m = some e ∧ e.zone = c.zone ∧ (k, Condition.pre) ∈ e.detectors
            ∧ (m, k) ≠ (n, d)) →
          ∃ t, exec (.prealarm src d) s = .next t ∧ shuts (heard n d c.zone .pre) t (opens c.zone)))
    ∧ (∀ tag z x, s.receivesWork tag = true → within 1 8 z = true → s.zones.look z = some x →
        (opens z = [] → exec (.shutZone tag z) s = .next (s.acceptOrder tag .empty))
        ∧ (opens z ≠ [] → ∃ t : State, exec (.shutZone tag z) s = .next (t.acceptOrder tag .empty) ∧ shuts s t [z]))
    ∧ (s.mode = .inService →
        (∃ t, exec .firePanelAsserted s = .next t ∧
          shuts ({ s with firePanel := true }.post
              { kind := .firePanel, subject := .wing, order := none, code := some (.firePanel true) })
            t (s.zones.numbers.filter fun z => !(opens z).isEmpty))
        ∧ exec .firePanelNegated s = .next
            ({ s with firePanel := false }.post
              { kind := .firePanel, subject := .wing, order := none, code := some (.firePanel false) }))
    ∧ (s.mode = .commissioning →
        exec .firePanelAsserted s = .next { s with firePanel := true }
        ∧ exec .firePanelNegated s = .next { s with firePanel := false })

/-- R169, R170: RESTORE_ZONE takes a SECURED zone, or with the force mark and the key a zone in SHUTDOWN, to RESTORING: CLOSED
and CLOSING shutters open, a waiting one is OPEN, OPEN is sent again to a JAMMED one, and every STOPPED crane is PARKING with a
PARK. Without force and key, a standing detector or the fire panel mark refuses it. The ascending order of the OPEN telegrams is
the model's choice (log 22). That ZONE_STATE carries no order tag is the model's choice (log 44). -/
def Obligations.RestoreZoneBeginsRestoration : Prop :=
  ∀ (tag z : Nat) (force key : Bool) (x : Zone) (s : State), s.receivesWork tag = true → within 1 8 z = true →
    s.zones.look z = some x → s.tablesLawful = true →
    let forced := force && key
    let fire := s.firePanel = true ∨ ∃ n c, s.concentrators.look n = some c ∧ c.zone = z ∧ c.detectors ≠ []
    (x.state ≠ .secured → ¬(x.state = .shutdown ∧ forced = true) →
      exec (.restoreZone tag z force key) s = .next ((s.setKeyLine key).refuseOrder tag .notSecured 0))
    ∧ (x.state = .secured → forced = false → fire →
        exec (.restoreZone tag z force key) s = .next ((s.setKeyLine key).refuseOrder tag .firePersists 0))
    ∧ ((x.state = .secured ∨ x.state = .shutdown) → forced = true ∨ (x.state = .secured ∧ ¬fire) →
        ∃ u t : State, exec (.restoreZone tag z force key) s = .next (t.acceptOrder tag .empty) ∧ Settled u t
          ∧ u = { s with
                  keyLine := key, nextJob := u.nextJob, aisles := u.aisles
                  zones := s.zones.adjust z fun x => { x with state := .restoring }
                  securedLine := securedLevel (s.zones.adjust z fun x => { x with state := .restoring })
                  shutters := s.shutters.mapRecords fun _ h =>
                    if h.zone = z then
                      match h.state with
                      | .closed | .closing => { h with state := .opening }
                      | .waitingMouth => { h with state := .opened, wait := none }
                      | .jammed | .opened | .opening => h
                    else h
                  link := { (s.post (zoneReport .restoring z)).link with
                    field := s.link.field ++ s.shutters.filterMap fun e =>
                      if e.2.zone = z ∧ (e.2.state = .closed ∨ e.2.state = .closing ∨ e.2.state = .jammed) then
                        some (fieldFrame e.2.address .openShutter)
                      else none } }
          ∧ ∀ a y, s.aisles.look a = some y →
              if y.geom.zone = z ∧ y.crane.state = .stopped then
                ∃ k, u.aisles.look a = some
                  { y with
                    crane := { y.crane with state := .parking }
                    queue := y.queue ++ [{ tag := k, kind := .park, bin := none, source := none
                                           destination := .frontPort, station := none, purpose := none }] }
              else u.aisles.look a = some y)

/-! ### Faults -/

/-- R179, with the entry actions of R181: a major fault is recorded as the first fault; a second one is recorded as the
halting fault and halts the wing, with STOP to every crane that is BUSY, IDLE or PARKING; in HALTED it is only reported.
R180: ACK_FAULT makes its four checks in their order, and with the tag of the first fault removes its record. The model's choice
(log 22): the STOPs go out in ascending aisle, and FAULT is posted before HALTED. -/
def Obligations.FaultsMoveFromClearToHalted : Prop :=
  ∀ (f : Raised) (s : State), s.tablesLawful = true →
    let tag := s.faults.nextTag
    let r : FaultRecord :=
      { tag := tag, kind := f.kind, jobTag := f.jobTag, bin := f.bin, detail := f.detail, recoverable := f.recoverable
        subject := match f.subject with
          | .item n | .bin n | .station n | .zone n | .aisle n | .faultTag n => n
          | .wing => 0 }
    let after := if tag ≥ 255 then 1 else tag + 1
    let told (k : ReportKind) (v : Subject) : Report :=
      { kind := k, subject := v, order := none, code := some (.faultKind f.kind) }
    (s.faults.state = .clear →
      s.raise f =
        { s with faults := { s.faults with state := .pending, first := some r, nextTag := after } }.post
          (told .fault (.faultTag tag)))
    ∧ (s.faults.state = .pending →
        s.raise f =
          { s with
            faults := { s.faults with state := .halted, halting := some r, nextTag := after, haltedLine := true }
            aisles := s.aisles.mapRecords fun _ x => x.halted s.settings.stop
            link := { (s.posted [told .fault (.faultTag tag), told .halted (.faultTag tag)]).link with
              field := s.link.field ++ s.aisles.filterMap fun e =>
                if e.2.crane.state = .busy ∨ e.2.crane.state = .idle ∨ e.2.crane.state = .parking then
                  (s.craneAddress e.1).map fun d => fieldFrame d .stop
                else none } })
    ∧ (s.faults.state = .halted → s.raise f = s.post (told .fault f.subject))
    ∧ ∀ o k, s.receives o = true →
        (s.faults.state = .halted → exec (.ackFault o k) s = .next (s.refuseOrder o .halted 0))
        ∧ (s.faults.state ≠ .halted → within 1 255 k = false →
          exec (.ackFault o k) s = .next (s.refuseOrder o .badField 0))
        ∧ (s.faults.state = .clear → within 1 255 k = true →
          exec (.ackFault o k) s = .next (s.refuseOrder o .noFault 0))
        ∧ ∀ q, s.faults.state = .pending → within 1 255 k = true → s.faults.first = some q →
          exec (.ackFault o k) s = .next
            (if q.tag = k then { s with faults := { s.faults with state := .clear, first := none } }.acceptOrder o .empty
            else s.refuseOrder o .tagMismatch 0)

/-! ### Crane telegrams -/

/-- R66, R68, R182: a PHASE sets the crane's position, clamped to the aisle; with an active job in a crane that is not STOPPED
an allowed phase that is not earlier is recorded, and TO_DEST and PLACING put the job's bin ON_CRANE; any other phase raises
FIELD_PROTOCOL. That its code is absent is the model's (log 12, DEDUCED). -/
def Obligations.PhaseMovesTheCraneAndItsBin : Prop :=
  ∀ (src a bay level : Nat) (p : Phase) (x : Aisle) (s : State), s.admits src .crane a = true →
    s.aisles.look a = some x →
    let q : Point :=
      { bay := min bay x.geom.bays, level := if x.geom.levels < level then x.geom.levels else max level 1 }
    let u (f : Crane → Crane) : State :=
      { s with aisles := s.aisles.adjust a fun x => { x with crane := { f x.crane with position := some q } } }
    ((x.crane.active = none ∨ x.crane.state = .stopped) → exec (.phase src p bay level) s = .next (u id))
    ∧ ∀ j, x.crane.active = some j → x.crane.state ≠ .stopped →
      let carries := j.kind = .retrieve ∨ j.kind = .store ∨ j.kind = .transfer
      let allowed := (carries ∨ (j.kind = .audit ∧ (p = .toSource ∨ p = .picking)) ∨ (j.kind = .park ∧ p = .toDest))
        ∧ ∀ o, x.crane.phase = some o → phaseRank o ≤ phaseRank p
      let moved := u fun c => { c with phase := some p }
      (¬allowed → exec (.phase src p bay level) s = .next
        ((u id).post { kind := .fieldProtocol, subject := .aisle a, order := none, code := none }))
      ∧ (allowed → (¬carries ∨ p = .toSource ∨ p = .picking) → exec (.phase src p bay level) s = .next moved)
      ∧ ∀ n b, allowed → carries → (p = .toDest ∨ p = .placing) → j.bin = some n → s.bins.look n = some b →
          exec (.phase src p bay level) s = .next
            (if (b.state = .called ∧ j.kind ≠ .store) ∨ (b.state = .homebound ∧ j.kind = .store) then
              { moved with bins := s.bins.adjust n fun b => { b with state := .onCrane } }
            else moved)

/-- R46, R65, R67, R68, R72, R73, R89, R92, R182: DONE brings a RETRIEVE's bin into transit with the deadline that is left, a
STORE's bin home and a TRANSFER's bin to its new home; AUDIT_RESULT finds the bin STORED or MISSING. A bin that stands in a lane
keeps its state. Then the job ends at its destination. From a crane that is FAULTED or OUT_OF_SERVICE both are dropped; out of
turn (no active job, one of another kind, or a crane that is neither BUSY nor STOPPING) they are dropped with FIELD_PROTOCOL.
The model's: BIN_STORED and UNEXPECTED_BIN have no code, FIELD_PROTOCOL for a frozen job that of R68 (log 12, DEDUCED), the
pending home of a bin in a lane becomes its home (log 16, DEDUCED), and a follow-on call takes its tag before the job ends (log
36, DESIGN CHOICE). That BIN_STORED and UNEXPECTED_BIN carry no order tag is the model's choice (log 44). -/
def Obligations.CraneResultsSettleTheBin : Prop :=
  (∀ (src a n : Nat) (x : Aisle) (j : Job) (b : Bin) (s : State), s.admits src .crane a = true →
    s.aisles.look a = some x → (x.crane.state = .busy ∨ x.crane.state = .stopping) → x.crane.active = some j →
    j.bin = some n → s.bins.look n = some b →
    let ended (c : Instr) (u : State) : Prop :=
      ∃ t, exec c s = .next t ∧ Settled (u.endJob a j.destination.point) t
    let home (f : Bin → Bin) : State :=
      { s with
        bins := s.bins.adjust n fun b => { f b with state := .stored }
        stations := if b.state = .inDoubt then
            s.stations.mapRecords fun _ x => { x with overdue := x.overdue.filter (· != n) }
          else s.stations }
    let stored (f : Bin → Bin) : State :=
      ((home f).post { kind := .binStored, subject := .bin n, order := none, code := none }).followOn n
    let moved (b : Bin) : Bin := { b with home := b.pendingHome.getD b.home, pendingHome := none }
    (∀ st, j.kind = .retrieve → j.station = some st → s.inLane n = false → (b.state = .called ∨ b.state = .onCrane) →
      ended (.done src)
        { s with
          bins := s.bins.adjust n fun b => { b with state := .inTransit, trip := some st }
          stations := s.stations.adjust st fun y =>
            { y with inTransit := y.inTransit ++
              [{ bin := n, deadline := { left := (x.crane.deadline.map (·.left)).getD 1, running := s.stationOpen st } }] } })
    ∧ (j.kind = .store → s.inLane n = false → (b.state = .homebound ∨ b.state = .onCrane) →
        ended (.done src) (stored id))
    ∧ (j.kind = .transfer → s.inLane n = false → (b.state = .called ∨ b.state = .onCrane) →
        ended (.done src) (stored moved))
    ∧ ((b.state = .inLane ∨ b.state = .lockedOut ∨ b.state = .inDoubt) → s.inLane n = true →
        ((j.kind = .retrieve ∧ j.station ≠ none) ∨ j.kind = .store → ended (.done src) s)
        ∧ (j.kind = .transfer → ended (.done src) { s with bins := s.bins.adjust n moved })
        ∧ (j.kind = .audit → ended (.auditResult src (.label n)) s ∧ ended (.auditResult src .none) s))
    ∧ (j.kind = .audit → s.inLane n = false →
        ended (.auditResult src (.label n)) (stored id)
        ∧ ended (.auditResult src .none) (s.enterLoss n .missing none)
        ∧ ∀ m, m ≠ n →
          let u := s.enterLoss n .missing none
          let v := if u.binState m = some .stored ∨ u.binState m = some .missing then u.enterLoss m .inDoubt none else u
          ended (.auditResult src (.label m))
            (v.post { kind := .unexpectedBin, subject := .bin m, order := none, code := none })))
  ∧ ∀ (src a : Nat) (r : Reading) (x : Aisle) (s : State), s.admits src .crane a = true → s.aisles.look a = some x →
    let dropped (c : Instr) : Prop := exec c s = .next s
    let outOfTurn (c : Instr) (k : Nat) : Prop := exec c s = .next
      (s.post { kind := .fieldProtocol, subject := .aisle a, order := none, code := some (.number k) })
    let works := x.crane.state = .busy ∨ x.crane.state = .stopping
    ((x.crane.state = .faulted ∨ x.crane.state = .outOfService) → dropped (.done src) ∧ dropped (.auditResult src r))
    ∧ (x.crane.state ≠ .faulted → x.crane.state ≠ .outOfService →
        ((¬works ∨ ∀ j, x.crane.active = some j → j.kind = .audit ∨ j.kind = .park) → outOfTurn (.done src) 2)
        ∧ ((¬works ∨ ∀ j, x.crane.active = some j → j.kind ≠ .audit) → outOfTurn (.auditResult src r) 4))

/-- R9, R49, R65, R81, R111: the end of a BUSY crane's job promotes its staged job, with JOB sent and its deadline armed from
the point where the crane stands; without one the crane is IDLE, or a DRAINING aisle ends its service; a STOPPING crane stays
so. A bin that becomes STORED is called to its next station when a request or a return entry of that station stands on it. That
AISLE_STATE carries no order tag is the model's choice (log 44). -/
def Obligations.JobEndPromotesOrIdlesTheCrane : Prop :=
  ∀ (a : Nat) (p : Point) (x : Aisle) (s : State), s.aisles.look a = some x →
    let ended (f : Crane → Crane) : State :=
      { s with
        aisles := s.aisles.adjust a fun x =>
          { x with
            crane :=
              f { x.crane with active := none, phase := none, deadline := none, retryIndex := 0, position := some p } } }
    (x.crane.state ≠ .busy → s.endJob a p = ended id)
    ∧ (∀ j, x.crane.state = .busy → x.crane.staged = some j →
        s.endJob a p = (ended fun c =>
          { c with
            phase := some .toSource, active := some j, staged := none
            deadline := some { left := deadlineFor x.geom (estimate x.geom (s.conveyorOf j) j p), running := true } }).sendCrane a
          (.job j.tag j.kind j.source j.destination (0, 0)))
    ∧ (x.crane.state = .busy → x.crane.staged = none → x.service ≠ .draining →
        s.endJob a p = ended fun c => { c with state := .idle })
    ∧ (x.crane.state = .busy → x.crane.staged = none → x.service = .draining →
        let u := ended fun c => { c with state := .outOfService }
        s.endJob a p =
          { u with aisles := u.aisles.adjust a fun x => { x with service := .outOfService } }.post
            { kind := .aisleState, subject := .aisle a, order := none, code := some (.service .outOfService) })
    ∧ ∀ n b, s.bins.look n = some b →
      let on (r : Request) (st : Nat) : Prop :=
        r ∈ s.requests ∧ r.state ≠ .picked ∧ r.station = st ∧ (s.items.look r.item).bind (·.home) = some n
      let called (st : Nat) (w : Purpose) : State :=
        { s with
          bins := s.bins.adjust n fun b => { b with next := none, state := .called, trip := some st }
          aisles := s.aisles.adjust b.home.aisle fun y =>
            { y with queue := y.queue ++
              [{ tag := s.jobTag, kind := .retrieve, bin := some n, source := some (.slot b.home)
                 destination := .frontPort, station := some st, purpose := some w }] }
          nextJob := tagAfter s.jobTag }
      (b.next = none → s.followOn n = s)
      ∧ ∀ st, b.next = some st →
        ((∃ r, on r st) → s.followOn n = called st .request)
        ∧ ((¬∃ r, on r st) → s.awaitedAt n st = true → s.followOn n = called st .ret)
        ∧ ((¬∃ r, on r st) → s.awaitedAt n st = false →
            s.followOn n = { s with bins := s.bins.adjust n fun b => { b with next := none } })

/-- R45, R68, R70, R71, R182: a PICK_FAILED before the pick is answered by RETRY with the next pair of the retry list, which extends
the deadline by 2 K, so that an expiry taken after it has no effect; past the list the job is abandoned, and its bin is MISSING
(IN_DOUBT for a STORE). Out of turn (without an active job of those kinds, after the pick, or from a crane that is neither BUSY nor
STOPPING) it is dropped, with FIELD_PROTOCOL; a crane that is STOPPING, FAULTED or OUT_OF_SERVICE drops it without. The model's,
DEDUCED: the pending home of a bin in a lane is cleared (log 16), and the code of FIELD_PROTOCOL for a frozen job is that of R68
(log 12). -/
def Obligations.PickFailureRetriesThenAbandons : Prop :=
  ∀ (src a n : Nat) (why : PickReason) (x : Aisle) (j : Job) (b : Bin) (s : State), s.admits src .crane a = true →
    s.aisles.look a = some x →
    ((x.crane.state = .stopping ∨ x.crane.state = .faulted ∨ x.crane.state = .outOfService) →
      exec (.pickFailed src why) s = .next s)
    ∧ ((x.crane.state = .idle ∨ x.crane.state = .parking ∨ x.crane.state = .stopped
          ∨ (x.crane.state = .busy ∧ (x.crane.phase = some .toDest ∨ x.crane.phase = some .placing
              ∨ ∀ k, x.crane.active = some k → k.kind = .audit ∨ k.kind = .park))) →
        exec (.pickFailed src why) s = .next
          (s.post { kind := .fieldProtocol, subject := .aisle a, order := none, code := some (.number 3) }))
    ∧ (x.crane.state = .busy → x.crane.active = some j → (j.kind = .retrieve ∨ j.kind = .store ∨ j.kind = .transfer) →
        x.crane.phase ≠ some .toDest → x.crane.phase ≠ some .placing → j.bin = some n → s.bins.look n = some b →
        (∀ p, x.retry[x.crane.retryIndex]? = some p →
          let u : State :=
            { s with aisles := s.aisles.adjust a fun x =>
              { x with crane := { x.crane with
                phase := some .picking, retryIndex := x.crane.retryIndex + 1
                deadline := x.crane.deadline.map fun d =>
                  { d with left := min (d.left + 2 * x.geom.handling) 65535 } } } }
          exec (.pickFailed src why) s = .next (u.sendCrane a (.retry p))
          ∧ (1 ≤ x.geom.handling → (∀ d, x.crane.deadline = some d → 1 ≤ d.left) →
              exec (.craneDeadlineExpiry a) (u.sendCrane a (.retry p)) = .next (u.sendCrane a (.retry p))))
        ∧ (x.retry[x.crane.retryIndex]? = none →
          let told := s.sendCrane a (.abandon j.tag)
          let left (f : Bin → Bin) : State := { told with bins := s.bins.adjust n f }
          let ended (u : State) : Prop := ∃ t, exec (.pickFailed src why) s = .next t ∧ Settled (u.endJob a j.sourcePoint) t
          (s.inLane n = true → j.kind ≠ .transfer → ended told)
          ∧ (s.inLane n = true → j.kind = .transfer → ended (left fun b => { b with pendingHome := none }))
          ∧ (s.inLane n = false → j.kind = .retrieve →
              ended ((left fun b => { b with trip := none }).enterLoss n .missing (some (.reason why))))
          ∧ (s.inLane n = false → j.kind = .transfer →
              ended ((left fun b => { b with pendingHome := none }).enterLoss n .missing (some (.reason why))))
          ∧ (s.inLane n = false → j.kind = .store → b.state ≠ .inDoubt →
              ended (told.enterLoss n .inDoubt (some (.reason why))))))

/-- R11, R29, R89, R120, R133: a bin that becomes MISSING or IN_DOUBT is reported; its next station is cleared, the requests
that stand on it fail, with REQUEST_FAILED and their items SHELVED, and the return entries that target it are displaced, with
RETURN_DISPLACED, their items in OVERFLOW and their room freed. That the failures are reported before the displacements is the
model's choice (log 22). That BIN_MISSING and BIN_IN_DOUBT carry no order tag is the model's choice (log 44). -/
def Obligations.LossFailsRequestsAndDisplacesReturns : Prop :=
  ∀ (n : Nat) (v : BinState) (code : Option Code) (s : State), (v = .missing ∨ v = .inDoubt) → s.tablesLawful = true →
    let t := s.enterLoss n v code
    let why : RefusalCode := if v = .missing then .binMissing else .binInDoubt
    let lost (r : Request) : Bool :=
      !decide (r.state = .picked) && decide ((s.items.look r.item).bind (·.home) = some n)
    let aimed : List ReturnEntry := s.stations.flatMap fun e => e.2.returns.filter fun q => decide (q.target = n)
    let first : Report :=
      { kind := if v = .missing then .binMissing else .binInDoubt, subject := .bin n, order := none, code := code }
    let fails := (s.requests.filter lost).map fun r : Request =>
      ({ kind := .requestFailed, subject := .item r.item, order := some r.order, code := some (.refusal why) } : Report)
    let displaced := aimed.map fun q : ReturnEntry =>
      ({ kind := .returnDisplaced, subject := .item q.item, order := none, code := some (.refusal why) } : Report)
    t = { s with requests := s.requests.filter fun r => !lost r
                 bins := t.bins, items := t.items, stations := t.stations
                 link := (s.posted (first :: fails ++ displaced)).link }
    ∧ t.stations = (s.stations.mapRecords fun _ x =>
        { x with
          returns := x.returns.filter fun q => !decide (q.target = n)
          overdue := if s.binState n = some .inDoubt ∧ v = .missing then x.overdue.filter (· != n) else x.overdue })
    ∧ t.bins = (s.bins.adjust n fun b =>
        { b with
          state := v, next := none
          reserved := b.reserved - (aimed.map fun q => ((s.items.look q.item).map (·.thickness)).getD 0).sum })
    ∧ t.items = (s.items.mapRecords fun i y =>
        if aimed.any fun q => decide (q.item = i) then { y with state := .overflow, target := none }
        else if s.requests.any fun r => lost r && decide (r.item = i) then { y with state := .shelved }
        else y)

/-- R161, R68, R79, R81, R171: a STOPPING crane that answers STOPPED is STOPPED. In a zone that is SHUTDOWN, SECURED or
RESTORING its job moves into a suspension record, with the later of the two phases, at least TO_DEST for a bin on the forks;
elsewhere it stays frozen. A PARK is dropped. The model's choice (log 35): a DRAINING aisle left without job and record ends its
service, and no PARK is created in a RESTORING zone. That AISLE_STATE carries no order tag is the model's choice (log 44). -/
def Obligations.StoppedCraneSuspendsItsJob : Prop :=
  ∀ (src a : Nat) (p : Phase) (load forks : Bool) (x : Aisle) (s : State), s.admits src .crane a = true →
    s.aisles.look a = some x →
    let cleared (c : Crane) : Crane := { c with active := none, phase := none, deadline := none, retryIndex := 0 }
    ((x.crane.state = .faulted ∨ x.crane.state = .outOfService ∨ x.crane.state = .stopped) →
      exec (.stopped src p load forks) s = .next s)
    ∧ ((x.crane.state = .idle ∨ x.crane.state = .parking ∨ x.crane.state = .busy) →
        exec (.stopped src p load forks) s = .next
          (s.post { kind := .fieldProtocol, subject := .aisle a, order := none, code := some (.number 5) }))
    ∧ (x.crane.state = .stopping →
        ∃ (y : Crane) (t : State),
          (x.crane.active = none → y = x.crane)
          ∧ (∀ j, x.crane.active = some j → j.kind = .park → y = cleared x.crane)
          ∧ (∀ j, x.crane.active = some j → j.kind ≠ .park → s.zoneClosed x.geom.zone = false →
              y = { x.crane with deadline := x.crane.deadline.map fun d => { d with running := false } })
          ∧ (∀ j, x.crane.active = some j → j.kind ≠ .park → s.zoneClosed x.geom.zone = true →
              ∃ q, phaseRank q = max (max (phaseRank (x.crane.phase.getD p)) (phaseRank p))
                  (if load = true ∧ j.kind ≠ .audit then phaseRank .toDest else 0)
                ∧ y = { cleared x.crane with
                    suspension := some
                      { job := j, phaseAtStop := q, load := load, forks := forks, recoverable := !forks
                        pausedLeft := (x.crane.deadline.map (·.left)).getD 1, parkLabel := none } })
          ∧ exec (.stopped src p load forks) s = .next t
          ∧ let u : State :=
              { s with aisles := s.aisles.adjust a fun x =>
                { x with crane := { y with state := .stopped, stopWait := none } } }
            Settled
              (if x.service = .draining ∧ y.active = none ∧ y.suspension = none then u.takeOut a
              else if s.zoneState x.geom.zone = some .restoring then u.createPark a
              else u) t)

/-- R68, R78, R79, R171, R182: PARKED ends a PARK at the front port. A PARKING crane becomes IDLE, with the label in its suspension
record; without a record a label is a load that no job accounts for, and a DRAINING aisle ends its service. A STOPPING crane
stays so, its record without a label. Without an active PARK, and from a crane that is neither PARKING nor STOPPING, PARKED is
dropped, with FIELD_PROTOCOL, and from one that is FAULTED or OUT_OF_SERVICE without. The code of FIELD_PROTOCOL for a frozen job is
that of R68 (log 12, DEDUCED). -/
def Obligations.ParkedCraneWritesItsLabel : Prop :=
  ∀ (src a : Nat) (r : Reading) (x : Aisle) (s : State), s.admits src .crane a = true → s.aisles.look a = some x →
    let u (f : Crane → Crane) : State :=
      { s with
        aisles := s.aisles.adjust a fun x =>
          { x with
            crane :=
              f { x.crane with active := none, phase := none, deadline := none, retryIndex := 0
                               position := some { bay := 0, level := 1 } } } }
    let done (v : State) : Prop := ∃ t, exec (.parked src r) s = .next t ∧ Settled v t
    let idle := u fun c => { c with state := .idle }
    ((x.crane.state = .faulted ∨ x.crane.state = .outOfService) → exec (.parked src r) s = .next s)
    ∧ ((x.crane.state = .idle ∨ x.crane.state = .busy ∨ x.crane.state = .stopped
          ∨ ((x.crane.state = .parking ∨ x.crane.state = .stopping)
              ∧ ∀ j, x.crane.active = some j → j.kind ≠ .park)) →
        exec (.parked src r) s = .next
          (s.post { kind := .fieldProtocol, subject := .aisle a, order := none, code := some (.number 6) }))
    ∧ (∀ j, x.crane.active = some j → j.kind = .park →
        (x.crane.state = .parking →
          (∀ q, x.crane.suspension = some q →
            done (u fun c => { c with state := .idle, suspension := some { q with parkLabel := some r } }))
          ∧ (∀ n, x.crane.suspension = none → r = .label n → done (idle.unaccountedLoad a n))
          ∧ (x.crane.suspension = none → r = .none →
              done (if x.service = .draining then idle.takeOut a else idle)))
        ∧ (x.crane.state = .stopping →
          (∀ q, x.crane.suspension = some q → done (u fun c => { c with suspension := some { q with parkLabel := none } }))
          ∧ (∀ n, x.crane.suspension = none → r = .label n → done ((u id).unaccountedLoad a n))
          ∧ (x.crane.suspension = none → r = .none → done (u id))))

/-- R74 to R76, R162, R177, Table 4.7, Table 10.1: a deadline that runs out, a CRANE_FAULT and a stop wait that runs out lose
the crane: STOP is sent, the crane is FAULTED and its aisle OUT_OF_SERVICE, the staged job goes back, a queued PARK is removed,
and the active job and the job of a suspension record go back to their queue or lose their bin; then the major fault is raised.
A CRANE_FAULT of a crane that is OUT_OF_SERVICE makes it FAULTED. The model's, DEDUCED: a timer that has not run out has no
expiry (log 3), CRANE_OVERDUE settles the record too (log 13), BIN_IN_DOUBT has no code (log 12), a pending home in a lane is
cleared (log 16), a job goes back although its bin stands in a lane (log 20), a bin in doubt enters nothing (log 21), and the
crane out of service is sent nothing (log 29). That AISLE_STATE carries no order tag is the model's choice (log 44). -/
def Obligations.LostCraneEndsTheAislesService : Prop :=
  ∀ (c : Instr) (k : FaultKind) (a : Nat) (x : Aisle) (s : State), s.aisles.look a = some x → s.mode = .inService →
    s.tablesLawful = true →
    (∀ src, s.admits src .crane a = true → x.crane.state = .faulted → exec (.craneFault src) s = .next s)
    ∧ ((∀ d, x.crane.deadline = some d → d.running = false ∨ 1 < d.left) → exec (.craneDeadlineExpiry a) s = .next s)
    ∧ (((∀ w, x.crane.stopWait = some w → 1 < w) ∨ x.crane.state ≠ .stopping) → exec (.stopWaitExpiry a) s = .next s)
    ∧ (∀ src, s.admits src .crane a = true → x.crane.state = .outOfService →
        ∃ t, exec (.craneFault src) s = .next t ∧ Settled
          ({ s with aisles := s.aisles.adjust a fun x => { x with crane := { x.crane with state := .faulted } } }.raise
            { kind := .craneFault, subject := .aisle a, jobTag := none, bin := none, detail := none, recoverable := true }) t)
    ∧ (x.crane.state ≠ .faulted → x.crane.state ≠ .outOfService →
      ((k = .craneFault ∧ ∃ src, c = .craneFault src ∧ s.admits src .crane a = true)
        ∨ (k = .craneOverdue ∧ c = .craneDeadlineExpiry a
            ∧ (∃ d, x.crane.deadline = some d ∧ d.running = true ∧ d.left ≤ 1)
            ∧ (x.crane.state = .busy ∨ x.crane.state = .parking ∨ x.crane.state = .stopping))
        ∨ (k = .craneNoStop ∧ c = .stopWaitExpiry a ∧ x.crane.state = .stopping
            ∧ ∃ w, x.crane.stopWait = some w ∧ w ≤ 1)) →
      let out (q : List Job) : State :=
        { s with
          aisles := s.aisles.adjust a fun x =>
            { x with
              service := .outOfService, queue := q.filter fun j => !decide (j.kind = .park)
              crane := { state := .faulted, phase := none, position := none, active := none, staged := none
                         retryIndex := 0, deadline := none, stopWait := none, suspension := none } }
          link := s.link.sendTo (s.craneAddress a) .stop }
      let named := x.crane.active.or (x.crane.suspension.map (·.job))
      let lost (u : State) (whole : Bool) : Prop :=
        let v := if x.service = .outOfService then u else
          u.post { kind := .aisleState, subject := .aisle a, order := none, code := some (.service .outOfService) }
        ∃ t, exec c s = .next t ∧ Settled
          (v.raise
            { kind := k, subject := .aisle a, jobTag := named.map (·.tag), bin := named.bind (·.bin), detail := none
              recoverable := whole }) t
      let q := x.unstaged.queue
      let settled (j : Job) (back : Prop) : Prop :=
        (back → lost (out (rejoinQueue q j)) true)
        ∧ ∀ n b, ¬back → j.bin = some n → s.bins.look n = some b →
          let home (b : Bin) : Bin := if j.kind = .transfer then { b with pendingHome := none } else b
          let trip (b : Bin) : Bin := if j.kind = .retrieve then { b with trip := none } else home b
          (s.inLane n = true → lost { out q with bins := s.bins.adjust n home } true)
          ∧ (s.inLane n = false → b.state = .inDoubt → lost { out q with bins := s.bins.adjust n trip } true)
          ∧ (s.inLane n = false → b.state ≠ .inDoubt →
              lost ({ out q with bins := s.bins.adjust n trip }.enterLoss n .inDoubt none) false)
      (x.crane.active = none → x.crane.suspension = none → lost (out q) true)
      ∧ (∀ j, x.crane.active = some j → x.crane.suspension = none →
          (j.kind = .park → j.bin = none → lost (out q) true)
          ∧ (j.kind ≠ .park → settled j (j.kind = .audit ∨ x.crane.phase = some .toSource)))
      ∧ ∀ r, x.crane.suspension = some r → (∀ j, x.crane.active = some j → j.kind = .park ∧ j.bin = none) →
          r.job.kind ≠ .park →
          settled r.job (r.job.kind = .audit ∨ (r.phaseAtStop = .toSource ∧ r.forks = false)))

/-! ### Arrivals and scans -/

/-- R86 to R95, R101, R113: BIN_ARRIVED ends a lane hold. An expected bin leaves the in-transit list, is IN_LANE at the top and
is presented; an overdue one is late; an unexpected one is IN_DOUBT, taken first out of its own place in the lane, which
presents the place laid bare; a label that the Bin Map does not hold is a foreign tray. A late or unexpected bin first leaves
the other lanes and in-transit lists and the queued and staged jobs. The place before is covered. In a full lane nothing is
pushed, the lane is held, and STATION_FAULT is raised. The model's, DEDUCED: BIN_IN_DOUBT has no code (log 12). That
LATE_ARRIVAL and UNEXPECTED_BIN carry no order tag is the model's choice (log 44). -/
def Obligations.ArrivalsJoinTheLane : Prop :=
  (∀ (st n : Nat) (s : State), s.tablesLawful = true →
    ((∀ m y, m ≠ st → s.stations.look m = some y → Place.bin n ∉ y.lane) →
      s.takeFromElsewhere n st =
        { s with
          stations := s.stations.mapRecords fun m y =>
            if m = st then y else { y with inTransit := y.inTransit.filter fun e => !decide (e.bin = n) }
          aisles := s.aisles.mapRecords fun _ y =>
            { y with
              queue := y.queue.filter fun j => !decide (j.bin = some n)
              crane := { y.crane with staged := y.crane.staged.filter fun j => !decide (j.bin = some n) } }
          bins :=
            if s.aisles.any fun e => (e.2.queue ++ e.2.crane.staged.toList).any fun j =>
                decide (j.bin = some n) && decide (j.kind = .transfer) then
              s.bins.adjust n fun b => { b with pendingHome := none }
            else s.bins
          link := { s.link with
            field := s.link.field ++ s.aisles.filterMap fun e =>
              (e.2.crane.staged.filter fun j => decide (j.bin = some n)).bind fun j =>
                (s.craneAddress e.1).map fun d => fieldFrame d (.unstage j.tag) } })
    ∧ ∀ o y, o ≠ st → s.stations.look o = some y → Place.bin n ∈ y.lane →
        (∀ m z, m ≠ st → m ≠ o → s.stations.look m = some z → Place.bin n ∉ z.lane) →
        let u : State :=
          { s with
            stations := s.stations.adjust o fun y => { y with lane := y.lane.filter fun p => !decide (p = .bin n) }
            requests := s.requests.map fun r =>
              if s.presentedBin o = some n ∧ r.state = .presented ∧ s.standsFor n o r = true then
                { r with state := .atStation }
              else r }
        s.takeFromElsewhere n st =
          (if y.lane.head? = some (.bin n) then u.presentTop o else u).takeFromElsewhere n st)
  ∧ ∀ (src st n : Nat) (x : Station) (s : State), s.admits src .station st = true → s.stations.look st = some x →
    let expected := ∃ e ∈ x.inTransit, e.bin = n
    let others := x.lane.filter fun p => !decide (p = .bin n)
    let covered (u : State) : List Request := u.requests.map fun r =>
      if r.state = .presented ∧ ∃ m, u.presentedBin st = some m ∧ u.standsFor m st r = true then
        { r with state := .atStation }
      else r
    let open_ : State := { s with stations := s.stations.adjust st fun y => { y with hold := false } }
    let own : State :=
      let u : State :=
        { s with
          stations := s.stations.adjust st fun y => { y with hold := false, lane := others }
          requests := if s.presentedBin st = some n then covered s else s.requests }
      if x.lane.head? = some (.bin n) then u.presentTop st else u
    let home (t : Table Station) : Table Station :=
      t.mapRecords fun _ y => { y with overdue := y.overdue.filter (· != n) }
    let pushed (u : State) (p : Place) : Table Station :=
      u.stations.adjust st fun y => { y with lane := p :: y.lane }
    let taken (t : Table Station) : Table Station :=
      t.adjust st fun y => { y with inTransit := y.inTransit.filter fun e => !decide (e.bin = n) }
    let done (u : State) : Prop := ∃ t, exec (.binArrived src n) s = .next t ∧ Settled u t
    let told (k : ReportKind) : Report :=
      { kind := k, subject := .bin n, order := none, code := some (.number st) }
    let fault (whole : Bool) : Raised :=
      { kind := .stationFault, subject := .station st, jobTag := none, bin := some n, detail := none, recoverable := whole }
    let held (u : State) : State := { u with stations := u.stations.adjust st fun y => { y with hold := true } }
    let away (u : State) : State :=
      { u with
        stations := home (taken u.stations), bins := u.bins.adjust n fun b => { b with trip := none } }.enterDoubt n
    (x.lane.length < x.loaded.depth →
      (expected → done
        ({ open_ with
           stations := home (taken (pushed open_ (.bin n))), requests := covered s
           bins := s.bins.adjust n fun b => { b with state := .inLane } }.presentTop st))
      ∧ (¬expected → n ∈ x.overdue →
          let u := open_.takeFromElsewhere n st
          done
            (({ u with
                stations := home (pushed u (.bin n)), requests := covered u
                bins := u.bins.adjust n fun b => { b with state := .inLane, trip := some st } }.post
              (told .lateArrival)).presentTop st))
      ∧ (¬expected → n ∉ x.overdue → s.bins.look n = none → done
          ({ open_ with stations := pushed open_ (.tray n), requests := covered s }.post (told .unexpectedBin))))
    ∧ (others.length < x.loaded.depth → ¬expected → n ∉ x.overdue → (s.bins.look n).isSome = true →
        let u := own.takeFromElsewhere n st
        done
          (({ u with
              stations := home (pushed u (.bin n)), requests := covered u
              bins := u.bins.adjust n fun b => { b with trip := some st } }.enterDoubt n).post (told .unexpectedBin)))
    ∧ (∀ b, s.bins.look n = some b →
        (x.loaded.depth ≤ x.lane.length → (expected ∨ n ∈ x.overdue) → done
          (((held (away (open_.takeFromElsewhere n st))).withdrawAll).raise (fault (decide (b.state = .inDoubt)))))
        ∧ (x.loaded.depth ≤ others.length → ¬expected → n ∉ x.overdue → done
          (((held (away (own.takeFromElsewhere n st))).withdrawAll).raise (fault (decide (b.state = .inDoubt))))))
    ∧ (x.loaded.depth ≤ x.lane.length → s.bins.look n = none → done (((held s).withdrawAll).raise (fault true)))

/-- R25, R28, R96, R101, R114, R132: a scan ends a lane hold. ITEM_OUT_SCAN of an item requested for the station, at its
presented bin, makes the item PICKED with its confirm window armed; ITEM_IN_SCAN of an item that is returning to the
presented bin shelves it there. A scan in HALTED, in a closed zone, or at a station without the role is refused, and so is one of an
item that is not in the Item Directory, of an item that is not requested here or whose return entry stands at another station, of a
bin that is LOCKED_OUT in the lane, and of one that is not the presented bin. -/
def Obligations.ItemScansMoveTheItem : Prop :=
  ∀ (src st item n : Nat) (x : Station) (s : State), s.admits src .station st = true → s.stations.look st = some x →
    let open_ : State := { s with stations := s.stations.adjust st fun y => { y with hold := false } }
    let done (c : Instr) (u : State) : Prop :=
      ∃ t, exec c s = .next t ∧ (if x.hold then Settled u t else t = u)
    let refused (c : Instr) (why : ScanCode) : Prop :=
      done c { open_ with link := { s.link with
        field := s.link.field ++ [fieldFrame x.loaded.address (.scanRefused why)] } }
    let ready := s.isHalted = false ∧ s.zoneClosed x.loaded.zone = false
    let out := Instr.itemOutScan src item
    let back := Instr.itemInScan src item
    let locked := Place.bin n ∈ x.lane ∧ s.binState n = some .lockedOut
    (∀ c, (c = out ∨ c = back ∨ c = .returnScan src item) →
      (s.isHalted = true → refused c .halted)
      ∧ (s.isHalted = false → s.zoneClosed x.loaded.zone = true → refused c .zoneClosed)
      ∧ (ready → (c = out ∧ x.loaded.lending = false) ∨ (c ≠ out ∧ x.loaded.returns = false) → refused c .role))
    ∧ (ready → s.items.look item = none →
        (x.loaded.lending = true → refused out .notRequested) ∧ (x.loaded.returns = true → refused back .wrongBin))
    ∧ ∀ i, ready → s.items.look item = some i →
      (x.loaded.lending = true →
        (i.state ≠ .requested → refused out .notRequested)
        ∧ ((∀ q ∈ s.requests, q.item = item → q.station ≠ st) → refused out .notRequested)
        ∧ ∀ r, i.state = .requested → i.home = some n →
          (s.requests.find? fun q => decide (q.item = item) && decide (q.station = st)) = some r →
          (locked → refused out .binLocked)
          ∧ (¬locked → s.presentedBin st ≠ some n → refused out .notPresented)
          ∧ (s.presentedBin st = some n →
              let u : State :=
                { open_ with
                  items := s.items.adjust item fun i => { i with state := .picked }
                  bins := s.bins.adjust n fun b =>
                    { b with fill := b.fill - i.thickness, reserved := b.reserved + i.thickness, count := b.count - 1 }
                  requests := s.requests.map fun q =>
                    if q.tag = r.tag then { q with state := .picked, window := some s.settings.confirm } else q }
              done out (u.post { kind := .itemPicked, subject := .item item, order := some r.order
                                 code := some (.number st) })))
      ∧ (x.loaded.returns = true →
        (i.state ≠ .returning → refused back .wrongBin)
        ∧ ((∀ e ∈ x.returns, e.item ≠ item) → refused back .wrongBin)
        ∧ (i.state = .returning → i.target = some n → (∃ e ∈ x.returns, e.item = item) →
          (locked → refused back .binLocked)
          ∧ (¬locked → s.presentedBin st ≠ some n → refused back .wrongBin)
          ∧ (s.presentedBin st = some n →
              done back
                ({ s with
                   stations := s.stations.adjust st fun y =>
                     { y with hold := false, returns := y.returns.filter fun e => !decide (e.item = item) }
                   items := s.items.adjust item fun i => { i with state := .shelved, home := some n, target := none }
                   bins := s.bins.adjust n fun b =>
                     { b with reserved := b.reserved - i.thickness, fill := b.fill + i.thickness, count := b.count + 1 } }.post
                  { kind := .returnShelved, subject := .item item, order := none, code := some (.number n) }))))

/-- R26, R27, R123 to R130: RETURN_SCAN takes an item that is out. A HELD item whose home bin is usable returns to it, with no
new reservation; another item, its room freed first where it is HELD, goes to the target that selection gives, or into
OVERFLOW. A new entry waits for its target, which is brought by its route. A scan of an item that is not in the Item Directory, of
one that is not out or already returning, at a full return queue, and of one whose usable home bin is called elsewhere is refused. -/
def Obligations.ReturnScanFindsATarget : Prop :=
  ∀ (src st item : Nat) (x : Station) (s : State), s.admits src .station st = true → s.stations.look st = some x →
    s.isHalted = false → s.zoneClosed x.loaded.zone = false → x.loaded.returns = true →
    let c := Instr.returnScan src item
    let open_ : State := { s with stations := s.stations.adjust st fun y => { y with hold := false } }
    let done (u : State) : Prop := ∃ t, exec c s = .next t ∧ (if x.hold then Settled u t else t = u)
    let refused (why : ScanCode) : Prop :=
      done { open_ with link := { s.link with
        field := s.link.field ++ [fieldFrame x.loaded.address (.scanRefused why)] } }
    let free (b : Bin) : Prop := b.state ≠ .missing ∧ b.state ≠ .inDoubt ∧ b.state ≠ .lockedOut
      ∧ (b.trip = some st ∨ b.home.aisle ∈ x.loaded.linked)
    let usable (i : Item) := ∃ n b, i.state = .held ∧ i.home = some n ∧ s.bins.look n = some b ∧ free b
    let taken (w : State) (n rise : Nat) : Prop :=
      let u : State :=
        { w with
          items := s.items.adjust item fun i => { i with state := .returning, target := some n }
          bins := w.bins.adjust n fun b => { b with reserved := b.reserved + rise }
          stations := s.stations.adjust st fun y =>
            { y with hold := false, returns := y.returns ++ [{ item := item, target := n }] } }
      let v := u.post { kind := .returnAccepted, subject := .item item, order := none, code := some (.number n) }
      ∀ b, s.bins.look n = some b →
        (b.trip = some st → done (if s.presentedBin st = some n then v.offerPresent st else v))
        ∧ (b.trip ≠ some st → b.state = .stored →
            ∃ t, exec c s = .next t ∧ Settled
              { v with
                bins := v.bins.adjust n fun b => { b with state := .called, trip := some st }
                aisles := s.aisles.adjust b.home.aisle fun y =>
                  { y with queue := y.queue ++
                    [{ tag := s.jobTag, kind := .retrieve, bin := some n, source := some (.slot b.home)
                       destination := .frontPort, station := some st, purpose := some .ret }] }
                nextJob := tagAfter s.jobTag } t)
        ∧ (b.trip ≠ some st → b.state ≠ .stored →
            done { v with bins := v.bins.adjust n fun b => { b with next := some (b.next.getD st) } })
    (s.items.look item = none → refused .notOut)
    ∧ ∀ i, s.items.look item = some i →
      (i.state = .returning → refused .alreadyReturning)
      ∧ ((i.state = .shelved ∨ i.state = .requested ∨ i.state = .picked) → refused .notOut)
      ∧ ((i.state = .held ∨ i.state = .lent ∨ i.state = .overflow) →
          (8 ≤ x.returns.length → refused .returnQueueFull)
          ∧ (x.returns.length < 8 →
            (∀ n b, i.state = .held → i.home = some n → s.bins.look n = some b → free b →
              (b.trip ≠ some st → b.state ≠ .stored → b.next ≠ none → b.next ≠ some st → refused .binBusy)
              ∧ ((b.trip = some st ∨ b.state = .stored ∨ b.next = none ∨ b.next = some st) → taken s n 0))
            ∧ (¬usable i →
                let w : State := { s with bins := match i.state, i.home with
                  | .held, some n => s.bins.adjust n fun b => { b with reserved := b.reserved - i.thickness }
                  | _, _ => s.bins }
                (∀ n, w.chooseTarget st i.thickness i.sizeClass i.home = some n → taken w n i.thickness)
                ∧ (w.chooseTarget st i.thickness i.sizeClass i.home = none →
                    done ({ w with
                            stations := s.stations.adjust st fun y => { y with hold := false }
                            items := s.items.adjust item fun i => { i with state := .overflow, target := none } }.post
                      { kind := .returnOverflow, subject := .item item, order := none, code := some (.number st) })))))

/-- R97 to R99, R101, R121, R134: BIN_DONE for the presented bin pops it, makes it HOMEBOUND and adds its STORE after the last
STORE of its aisle's queue; what stands on it for the station is called again, or fails where its next station is another.
A tray leaves by its label, judged by no job (log 37, the model's choice). Then the place below is presented. Any other label, a
tray below the top and a top bin that is IN_DOUBT are refused. -/
def Obligations.BinDoneSendsTheBinHome : Prop :=
  ∀ (src st n : Nat) (x : Station) (s : State), s.admits src .station st = true → s.stations.look st = some x →
    let c := Instr.binDone src n
    let popped : Table Station := s.stations.adjust st fun y => { y with hold := false, lane := y.lane.tail }
    let shown (u : State) : Prop := ∃ t, exec c s = .next t ∧ Settled (u.presentTop st) t
    let refused (why : ScanCode) : Prop :=
      ∃ t, exec c s = .next t ∧
        let u := { s with
          stations := s.stations.adjust st fun y => { y with hold := false }
          link := { s.link with
            field := s.link.field ++ [fieldFrame x.loaded.address (.scanRefused why)] } }
        if x.hold then Settled u t else t = u
    (s.zoneClosed x.loaded.zone = true → refused .zoneClosed)
    ∧ (s.zoneClosed x.loaded.zone = false →
      (x.lane.head? = some (.tray n) → shown { s with stations := popped })
      ∧ (Place.bin n ∉ x.lane → Place.tray n ∉ x.lane → refused .wrongBin)
      ∧ (x.lane.head? ≠ some (.tray n) → x.lane.head? ≠ some (.bin n) → Place.bin n ∈ x.lane →
          refused (if s.binState n = some .lockedOut then .binLocked else .notPresented))
      ∧ (x.lane.head? ≠ some (.tray n) → Place.bin n ∉ x.lane → Place.tray n ∈ x.lane → refused .notPresented)
      ∧ (x.lane.head? = some (.bin n) →
        (s.binState n = some .lockedOut → refused .binLocked)
        ∧ (s.binState n ≠ some .lockedOut → s.binState n ≠ some .inLane → refused .notPresented)
        ∧ (s.binState n = some .inLane → s.named n = true → refused .binBusy)
        ∧ ∀ b, s.bins.look n = some b → b.state = .inLane → s.named n = false →
          let on (r : Request) : Bool :=
            !decide (r.state = .picked) && decide (r.station = st) && decide ((s.items.look r.item).bind (·.home) = some n)
          let store : Job :=
            { tag := s.jobTag, kind := .store, bin := some n, source := some .frontPort, destination := .slot b.home
              station := some st, purpose := none }
          let sent (u : State) : State :=
            { u with
              bins := u.bins.adjust n fun b => { b with state := .homebound, trip := none }
              aisles := s.aisles.adjust b.home.aisle fun y =>
                { y with queue :=
                    y.queue.takeWhile (fun j => decide (j.kind = .store)) ++ store
                      :: y.queue.dropWhile (fun j => decide (j.kind = .store)) }
              nextJob := tagAfter s.jobTag }
          let left := s.requests.any on || x.returns.any fun e => decide (e.target = n)
          let again := (s.requests.filter on).map fun r : Request =>
            ({ kind := .requestDelayed, subject := .item r.item, order := some r.order, code := some (.number st) } : Report)
          let u : State := { s with stations := popped }
          (left = false → shown (sent u))
          ∧ (left = true → (b.next = none ∨ b.next = some st) →
              shown (sent
                { u.posted again with
                  requests := s.requests.map fun r => if on r then { r with state := .awaitingBin } else r
                  bins := s.bins.adjust n fun b => { b with next := some st } }))
          ∧ ∀ o, left = true → b.next = some o → o ≠ st →
              shown (sent ((u.failRequests on .binBusy).displaceAt n .binBusy st))))

/-! ### Station faults, conveyors and shutters -/

/-- R44, R89, R101, R177, R184: STATION_FAULT holds the lane and raises a recoverable fault; a bin whose in-transit deadline
runs out leaves the list for the overdue list, IN_DOUBT, with a fault that is not recoverable. A paused one does not expire. The
model's, DEDUCED: an expiry of a deadline that has not run out has no effect (log 3), nor one of a bin without an entry (log 30),
and a bin already in doubt enters nothing (log 21). -/
def Obligations.StationFaultAndConveyorOverdue : Prop :=
  ∀ (src st n : Nat) (x : Station) (s : State), s.stations.look st = some x →
    let fault (k : FaultKind) (bin : Option Nat) (whole : Bool) : Raised :=
      { kind := k, subject := .station st, jobTag := none, bin := bin, detail := none, recoverable := whole }
    (s.admits src .station st = true →
      ∃ t, exec (.stationFault src) s = .next t ∧ Settled
        ({ s with stations := s.stations.adjust st fun y => { y with hold := true } }.withdrawAll.raise
          (fault .stationFault none true)) t)
    ∧ (s.mode = .inService → (∀ e ∈ x.inTransit, e.bin = n → e.deadline.running = false ∨ 1 < e.deadline.left) →
        exec (.inTransitDeadlineExpiry st n) s = .next s)
    ∧ (s.mode = .inService → (∃ e ∈ x.inTransit, e.bin = n ∧ e.deadline.running = true ∧ e.deadline.left ≤ 1) →
        let u :=
          { s with
            stations := s.stations.adjust st fun y =>
              { y with inTransit := y.inTransit.filter fun e => !decide (e.bin = n) }
            bins := s.bins.adjust n fun b => { b with trip := none } }.enterDoubt n
        ∃ t, exec (.inTransitDeadlineExpiry st n) s = .next t ∧ Settled
          ({ u with stations := u.stations.adjust st fun y =>
              { y with overdue := y.overdue.filter (· < n) ++ n :: y.overdue.filter (n < ·) } }.raise
            (fault .conveyorOverdue (some n) false)) t)

/-- R102, R164 to R166, Table 9.3: the mouth is as it was last told, and a shutter that waits for it closes when it clears, or
with the force mark when its wait runs out, the presented bin behind it LOCKED_OUT. CLOSED in a RESTORING zone and OPENED in a
closed one are answered by the other movement; JAMMED takes a SECURED zone back to SHUTDOWN and raises a fault. That an expiry
of a wait that has not run out has no effect is the model's (log 3, DEDUCED). That ZONE_STATE carries no order tag is the
model's choice (log 44). -/
def Obligations.ShuttersFollowTheirZone : Prop :=
  ∀ (src k : Nat) (h : Shutter) (s : State), s.shutters.look k = some h →
    let set (v : ShutterState) : State :=
      { s with shutters := s.shutters.adjust k fun h => { h with state := v, wait := none } }
    let told (u : State) (m : FieldTelegram) : State :=
      { u with link := { u.link with field := s.link.field ++ [fieldFrame h.address m] } }
    let done (c : Instr) (u : State) : Prop := ∃ t, exec c s = .next t ∧ Settled u t
    let fault : Raised :=
      { kind := .shutterJammed, subject := .zone h.zone, jobTag := none, bin := none, detail := some k, recoverable := true }
    (∀ st x, s.admits src .station st = true → s.stations.look st = some x →
      let mouth (u : State) (b : Bool) : State :=
        { u with stations := s.stations.adjust st fun y => { y with mouthOccupied := b } }
      exec (.mouthOccupied src) s = .next (mouth s true)
      ∧ (x.loaded.shutter = none → exec (.mouthClear src) s = .next (mouth s false))
      ∧ (x.loaded.shutter = some k → exec (.mouthClear src) s = .next
          (mouth (if h.state = .waitingMouth then told (set .closing) (.closeShutter false) else s) false)))
    ∧ (s.mode = .inService → (h.state ≠ .waitingMouth ∨ ∀ w, h.wait = some w → 1 < w) →
        exec (.shutterWaitExpiry k) s = .next s)
    ∧ (s.mode = .inService → h.state = .waitingMouth → (∃ w, h.wait = some w ∧ w ≤ 1) →
        let u := told (set .closing) (.closeShutter true)
        (∀ n st b, s.boundStation k = some st → s.presentedBin st = some n → s.bins.look n = some b →
          exec (.shutterWaitExpiry k) s = .next
            { u with
              requests := s.requests.map fun r =>
                if r.state = .presented ∧ s.standsFor n st r = true then { r with state := .atStation } else r
              bins := s.bins.adjust n fun b => { b with state := .lockedOut } })
        ∧ ((∀ st, s.boundStation k = some st → s.presentedBin st = none) →
            exec (.shutterWaitExpiry k) s = .next u))
    ∧ (s.admits src .shutter k = true → ∀ z, s.zones.look h.zone = some z →
        (z.state = .restoring → done (.closed src) (told (set .opening) .openShutter))
        ∧ (z.state ≠ .restoring → done (.closed src) (set .closed))
        ∧ (z.state ≠ .shutdown → z.state ≠ .secured → done (.opened src) (set .opened))
        ∧ (z.state = .shutdown →
            done (.opened src)
              (if s.mouthOccupiedAt k then
                { s with shutters := s.shutters.adjust k fun h =>
                  { h with state := .waitingMouth, wait := some s.settings.shutter } }
              else told (set .closing) (.closeShutter false)))
        ∧ (z.state = .secured →
            let reshut (u : State) : State :=
              { u with
                zones := s.zones.adjust h.zone fun x => { x with state := .shutdown }
                securedLine := securedLevel (s.zones.adjust h.zone fun x => { x with state := .shutdown }) }.post
              (zoneReport .shutdown h.zone)
            done (.opened src)
              (if s.mouthOccupiedAt k then
                reshut { s with shutters := s.shutters.adjust k fun h =>
                  { h with state := .waitingMouth, wait := some s.settings.shutter } }
              else told (reshut (set .closing)) (.closeShutter false))
            ∧ (h.state ≠ .jammed → done (.jammed src) ((reshut (set .jammed)).raise fault)))
        ∧ (h.state = .jammed → exec (.jammed src) s = .next s)
        ∧ (h.state ≠ .jammed → z.state ≠ .secured → done (.jammed src) ((set .jammed).raise fault)))

/-! ### Fire detection -/

/-- R142 to R145, R147, R148, R150, R151: a beat in sequence makes its concentrator HEALTHY, one out of sequence TOKEN_FAULT, a
missing one SILENT, each change with SUPERVISION; PREALARM, CLEAR and TROUBLE set the detector's entry. The zone's cause set is
re-formed, and a zone in NORMAL with a cause becomes ALERT. A window that ends in a clear, healthy zone brings it to NORMAL, and
is armed again otherwise. The model's: an expiry of a timer that has not run out has no effect (log 3), and FIELD_PROTOCOL has
no code (log 12, both DEDUCED); SUPERVISION is posted before ZONE_STATE (log 42, DESIGN CHOICE). That ZONE_STATE carries no
order tag is the model's choice (log 44). -/
def Obligations.CausesBringTheZoneToAlert : Prop :=
  ∀ (src n d : Nat) (c : Concentrator) (z : Zone) (s : State), s.concentrators.look n = some c →
    s.zones.look c.zone = some z → s.securedLawful = true → s.mode = .inService →
    let heard (f : Concentrator → Concentrator) : State :=
      { s with concentrators := s.concentrators.adjust n f }
    let entry (v : Option Condition) : State := heard fun c =>
      { c with detectors := match v with
          | some v => c.detectors.put d v
          | none => c.detectors.remove d }
    let told (v : Health) (u : State) : State :=
      if c.health = v then u
      else u.post { kind := .supervision, subject := .zone c.zone, order := none, code := some (.number n) }
    let reforms (i : Instr) (u : State) : Prop := ∃ t, exec i s = .next t ∧ Reformed u t c.zone
    (s.admits src .concentrator n = true →
      (let v : Health := if c.token = none ∨ c.token = some ((d + 255) % 256) then .healthy else .tokenFault
       d ≤ 255 → (∀ k, c.token = some k → k ≤ 255) →
       reforms (.beat src d)
         (told v (heard fun c => { c with health := v, token := some d, supervision := some c.period })))
      ∧ (within 1 32 d = true →
        ((c.detectors.look d = some .pre ∨ c.detectors.look d = some .alarm) → exec (.prealarm src d) s = .next s)
        ∧ ((c.detectors.look d = none ∨ c.detectors.look d = some .trouble) →
            (¬∃ m e k, (m, e) ∈ s.concentrators ∧ e.zone = c.zone ∧ (k, Condition.pre) ∈ e.detectors ∧ (m, k) ≠ (n, d)) →
            s.tablesLawful = true → reforms (.prealarm src d) (entry (some .pre)))
        ∧ (c.detectors.look d = none → exec (.clear src d) s = .next s)
        ∧ (c.detectors.look d ≠ none → reforms (.clear src d) (entry none))
        ∧ (c.detectors.look d = some .alarm → exec (.trouble src d) s = .next s)
        ∧ (c.detectors.look d ≠ some .alarm → reforms (.trouble src d) (entry (some .trouble))))
      ∧ (within 1 32 d = false → ∀ i, (i = .prealarm src d ∨ i = .alarm src d ∨ i = .clear src d ∨ i = .trouble src d) →
          exec i s = .next
            (s.post { kind := .fieldProtocol, subject := .zone c.zone, order := none, code := none })))
    ∧ ((∀ w, c.supervision = some w → 1 < w) → exec (.supervisionExpiry n) s = .next s)
    ∧ ((∃ w, c.supervision = some w ∧ w ≤ 1) →
        reforms (.supervisionExpiry n) (told .silent (heard fun c => { c with health := .silent, supervision := none })))
    ∧ ((z.state ≠ .alert ∨ ∀ w, z.windowLeft = some w → 1 < w) → exec (.alertWindowExpiry c.zone) s = .next s)
    ∧ (z.state = .alert → (∃ w, z.windowLeft = some w ∧ w ≤ 1) → s.tablesLawful = true →
        (let well := z.causes.isEmpty = true
           ∧ ∀ m e, s.concentrators.look m = some e → e.zone = c.zone → e.health = .healthy
         (well → ∃ t, exec (.alertWindowExpiry c.zone) s = .next t ∧ Settled
            ({ s with zones := s.zones.adjust c.zone fun x => { x with state := .normal, windowLeft := none } }.post
              (zoneReport .normal c.zone)) t)
         ∧ (¬well → exec (.alertWindowExpiry c.zone) s = .next
             { s with zones := s.zones.adjust c.zone fun x => { x with windowLeft := some x.window } })))
    ∧ ∀ b, let w := s.causesOf c.zone b
      let some_ (p : Concentrator → Prop) : Prop := ∃ m e, (m, e) ∈ s.concentrators ∧ e.zone = c.zone ∧ p e
      (w.prealarm = true ↔ some_ fun e => ∃ k v, (k, v) ∈ e.detectors ∧ (v = .pre ∨ v = .alarm))
      ∧ (w.trouble = true ↔ some_ fun e => ∃ k, (k, Condition.trouble) ∈ e.detectors)
      ∧ (w.silent = true ↔ some_ fun e => e.health = .silent)
      ∧ (w.token = true ↔ some_ fun e => e.health = .tokenFault)
      ∧ (w.start = true ↔ b = true ∧ some_ fun e => e.token = none)
end

