-- ==== Sys2Proof/Laws/State.lean ====
section
/-! SUPPORT. What each named update of the state leaves in every field: one lemma per field per update. -/
namespace Sys2Proof.Machine

/-! ### One field written -/

@[simp] theorem State.setMode_mode (s : State) (v : Mode) : (s.setMode v).mode = v := rfl
@[simp] theorem State.setMode_startCause (s : State) (v : Mode) : (s.setMode v).startCause = s.startCause := rfl
@[simp] theorem State.setMode_haltedBefore (s : State) (v : Mode) : (s.setMode v).haltedBefore = s.haltedBefore := rfl
@[simp] theorem State.setMode_aisles (s : State) (v : Mode) : (s.setMode v).aisles = s.aisles := rfl
@[simp] theorem State.setMode_stations (s : State) (v : Mode) : (s.setMode v).stations = s.stations := rfl
@[simp] theorem State.setMode_zones (s : State) (v : Mode) : (s.setMode v).zones = s.zones := rfl
@[simp] theorem State.setMode_concentrators (s : State) (v : Mode) : (s.setMode v).concentrators = s.concentrators := rfl
@[simp] theorem State.setMode_shutters (s : State) (v : Mode) : (s.setMode v).shutters = s.shutters := rfl
@[simp] theorem State.setMode_addresses (s : State) (v : Mode) : (s.setMode v).addresses = s.addresses := rfl
@[simp] theorem State.setMode_classes (s : State) (v : Mode) : (s.setMode v).classes = s.classes := rfl
@[simp] theorem State.setMode_settings (s : State) (v : Mode) : (s.setMode v).settings = s.settings := rfl
@[simp] theorem State.setMode_bins (s : State) (v : Mode) : (s.setMode v).bins = s.bins := rfl
@[simp] theorem State.setMode_items (s : State) (v : Mode) : (s.setMode v).items = s.items := rfl
@[simp] theorem State.setMode_requests (s : State) (v : Mode) : (s.setMode v).requests = s.requests := rfl
@[simp] theorem State.setMode_nextRequest (s : State) (v : Mode) : (s.setMode v).nextRequest = s.nextRequest := rfl
@[simp] theorem State.setMode_nextJob (s : State) (v : Mode) : (s.setMode v).nextJob = s.nextJob := rfl
@[simp] theorem State.setMode_faults (s : State) (v : Mode) : (s.setMode v).faults = s.faults := rfl
@[simp] theorem State.setMode_firePanel (s : State) (v : Mode) : (s.setMode v).firePanel = s.firePanel := rfl
@[simp] theorem State.setMode_keyLine (s : State) (v : Mode) : (s.setMode v).keyLine = s.keyLine := rfl
@[simp] theorem State.setMode_securedLine (s : State) (v : Mode) : (s.setMode v).securedLine = s.securedLine := rfl
@[simp] theorem State.setMode_link (s : State) (v : Mode) : (s.setMode v).link = s.link := rfl
@[simp] theorem State.setMode_pending (s : State) (v : Mode) : (s.setMode v).pending = s.pending := rfl
@[simp] theorem State.setStartCause_mode (s : State) (v : StartCause) : (s.setStartCause v).mode = s.mode := rfl
@[simp] theorem State.setStartCause_startCause (s : State) (v : StartCause) : (s.setStartCause v).startCause = v := rfl
@[simp] theorem State.setStartCause_haltedBefore (s : State) (v : StartCause) : (s.setStartCause v).haltedBefore = s.haltedBefore := rfl
@[simp] theorem State.setStartCause_aisles (s : State) (v : StartCause) : (s.setStartCause v).aisles = s.aisles := rfl
@[simp] theorem State.setStartCause_stations (s : State) (v : StartCause) : (s.setStartCause v).stations = s.stations := rfl
@[simp] theorem State.setStartCause_zones (s : State) (v : StartCause) : (s.setStartCause v).zones = s.zones := rfl
@[simp] theorem State.setStartCause_concentrators (s : State) (v : StartCause) : (s.setStartCause v).concentrators = s.concentrators := rfl
@[simp] theorem State.setStartCause_shutters (s : State) (v : StartCause) : (s.setStartCause v).shutters = s.shutters := rfl
@[simp] theorem State.setStartCause_addresses (s : State) (v : StartCause) : (s.setStartCause v).addresses = s.addresses := rfl
@[simp] theorem State.setStartCause_classes (s : State) (v : StartCause) : (s.setStartCause v).classes = s.classes := rfl
@[simp] theorem State.setStartCause_settings (s : State) (v : StartCause) : (s.setStartCause v).settings = s.settings := rfl
@[simp] theorem State.setStartCause_bins (s : State) (v : StartCause) : (s.setStartCause v).bins = s.bins := rfl
@[simp] theorem State.setStartCause_items (s : State) (v : StartCause) : (s.setStartCause v).items = s.items := rfl
@[simp] theorem State.setStartCause_requests (s : State) (v : StartCause) : (s.setStartCause v).requests = s.requests := rfl
@[simp] theorem State.setStartCause_nextRequest (s : State) (v : StartCause) : (s.setStartCause v).nextRequest = s.nextRequest := rfl
@[simp] theorem State.setStartCause_nextJob (s : State) (v : StartCause) : (s.setStartCause v).nextJob = s.nextJob := rfl
@[simp] theorem State.setStartCause_faults (s : State) (v : StartCause) : (s.setStartCause v).faults = s.faults := rfl
@[simp] theorem State.setStartCause_firePanel (s : State) (v : StartCause) : (s.setStartCause v).firePanel = s.firePanel := rfl
@[simp] theorem State.setStartCause_keyLine (s : State) (v : StartCause) : (s.setStartCause v).keyLine = s.keyLine := rfl
@[simp] theorem State.setStartCause_securedLine (s : State) (v : StartCause) : (s.setStartCause v).securedLine = s.securedLine := rfl
@[simp] theorem State.setStartCause_link (s : State) (v : StartCause) : (s.setStartCause v).link = s.link := rfl
@[simp] theorem State.setStartCause_pending (s : State) (v : StartCause) : (s.setStartCause v).pending = s.pending := rfl
@[simp] theorem State.setHaltedBefore_mode (s : State) (v : Bool) : (s.setHaltedBefore v).mode = s.mode := rfl
@[simp] theorem State.setHaltedBefore_startCause (s : State) (v : Bool) : (s.setHaltedBefore v).startCause = s.startCause := rfl
@[simp] theorem State.setHaltedBefore_haltedBefore (s : State) (v : Bool) : (s.setHaltedBefore v).haltedBefore = v := rfl
@[simp] theorem State.setHaltedBefore_aisles (s : State) (v : Bool) : (s.setHaltedBefore v).aisles = s.aisles := rfl
@[simp] theorem State.setHaltedBefore_stations (s : State) (v : Bool) : (s.setHaltedBefore v).stations = s.stations := rfl
@[simp] theorem State.setHaltedBefore_zones (s : State) (v : Bool) : (s.setHaltedBefore v).zones = s.zones := rfl
@[simp] theorem State.setHaltedBefore_concentrators (s : State) (v : Bool) : (s.setHaltedBefore v).concentrators = s.concentrators := rfl
@[simp] theorem State.setHaltedBefore_shutters (s : State) (v : Bool) : (s.setHaltedBefore v).shutters = s.shutters := rfl
@[simp] theorem State.setHaltedBefore_addresses (s : State) (v : Bool) : (s.setHaltedBefore v).addresses = s.addresses := rfl
@[simp] theorem State.setHaltedBefore_classes (s : State) (v : Bool) : (s.setHaltedBefore v).classes = s.classes := rfl
@[simp] theorem State.setHaltedBefore_settings (s : State) (v : Bool) : (s.setHaltedBefore v).settings = s.settings := rfl
@[simp] theorem State.setHaltedBefore_bins (s : State) (v : Bool) : (s.setHaltedBefore v).bins = s.bins := rfl
@[simp] theorem State.setHaltedBefore_items (s : State) (v : Bool) : (s.setHaltedBefore v).items = s.items := rfl
@[simp] theorem State.setHaltedBefore_requests (s : State) (v : Bool) : (s.setHaltedBefore v).requests = s.requests := rfl
@[simp] theorem State.setHaltedBefore_nextRequest (s : State) (v : Bool) : (s.setHaltedBefore v).nextRequest = s.nextRequest := rfl
@[simp] theorem State.setHaltedBefore_nextJob (s : State) (v : Bool) : (s.setHaltedBefore v).nextJob = s.nextJob := rfl
@[simp] theorem State.setHaltedBefore_faults (s : State) (v : Bool) : (s.setHaltedBefore v).faults = s.faults := rfl
@[simp] theorem State.setHaltedBefore_firePanel (s : State) (v : Bool) : (s.setHaltedBefore v).firePanel = s.firePanel := rfl
@[simp] theorem State.setHaltedBefore_keyLine (s : State) (v : Bool) : (s.setHaltedBefore v).keyLine = s.keyLine := rfl
@[simp] theorem State.setHaltedBefore_securedLine (s : State) (v : Bool) : (s.setHaltedBefore v).securedLine = s.securedLine := rfl
@[simp] theorem State.setHaltedBefore_link (s : State) (v : Bool) : (s.setHaltedBefore v).link = s.link := rfl
@[simp] theorem State.setHaltedBefore_pending (s : State) (v : Bool) : (s.setHaltedBefore v).pending = s.pending := rfl
@[simp] theorem State.setAisles_mode (s : State) (v : Table Aisle) : (s.setAisles v).mode = s.mode := rfl
@[simp] theorem State.setAisles_startCause (s : State) (v : Table Aisle) : (s.setAisles v).startCause = s.startCause := rfl
@[simp] theorem State.setAisles_haltedBefore (s : State) (v : Table Aisle) : (s.setAisles v).haltedBefore = s.haltedBefore := rfl
@[simp] theorem State.setAisles_aisles (s : State) (v : Table Aisle) : (s.setAisles v).aisles = v := rfl
@[simp] theorem State.setAisles_stations (s : State) (v : Table Aisle) : (s.setAisles v).stations = s.stations := rfl
@[simp] theorem State.setAisles_zones (s : State) (v : Table Aisle) : (s.setAisles v).zones = s.zones := rfl
@[simp] theorem State.setAisles_concentrators (s : State) (v : Table Aisle) : (s.setAisles v).concentrators = s.concentrators := rfl
@[simp] theorem State.setAisles_shutters (s : State) (v : Table Aisle) : (s.setAisles v).shutters = s.shutters := rfl
@[simp] theorem State.setAisles_addresses (s : State) (v : Table Aisle) : (s.setAisles v).addresses = s.addresses := rfl
@[simp] theorem State.setAisles_classes (s : State) (v : Table Aisle) : (s.setAisles v).classes = s.classes := rfl
@[simp] theorem State.setAisles_settings (s : State) (v : Table Aisle) : (s.setAisles v).settings = s.settings := rfl
@[simp] theorem State.setAisles_bins (s : State) (v : Table Aisle) : (s.setAisles v).bins = s.bins := rfl
@[simp] theorem State.setAisles_items (s : State) (v : Table Aisle) : (s.setAisles v).items = s.items := rfl
@[simp] theorem State.setAisles_requests (s : State) (v : Table Aisle) : (s.setAisles v).requests = s.requests := rfl
@[simp] theorem State.setAisles_nextRequest (s : State) (v : Table Aisle) : (s.setAisles v).nextRequest = s.nextRequest := rfl
@[simp] theorem State.setAisles_nextJob (s : State) (v : Table Aisle) : (s.setAisles v).nextJob = s.nextJob := rfl
@[simp] theorem State.setAisles_faults (s : State) (v : Table Aisle) : (s.setAisles v).faults = s.faults := rfl
@[simp] theorem State.setAisles_firePanel (s : State) (v : Table Aisle) : (s.setAisles v).firePanel = s.firePanel := rfl
@[simp] theorem State.setAisles_keyLine (s : State) (v : Table Aisle) : (s.setAisles v).keyLine = s.keyLine := rfl
@[simp] theorem State.setAisles_securedLine (s : State) (v : Table Aisle) : (s.setAisles v).securedLine = s.securedLine := rfl
@[simp] theorem State.setAisles_link (s : State) (v : Table Aisle) : (s.setAisles v).link = s.link := rfl
@[simp] theorem State.setAisles_pending (s : State) (v : Table Aisle) : (s.setAisles v).pending = s.pending := rfl
@[simp] theorem State.setStations_mode (s : State) (v : Table Station) : (s.setStations v).mode = s.mode := rfl
@[simp] theorem State.setStations_startCause (s : State) (v : Table Station) : (s.setStations v).startCause = s.startCause := rfl
@[simp] theorem State.setStations_haltedBefore (s : State) (v : Table Station) : (s.setStations v).haltedBefore = s.haltedBefore := rfl
@[simp] theorem State.setStations_aisles (s : State) (v : Table Station) : (s.setStations v).aisles = s.aisles := rfl
@[simp] theorem State.setStations_stations (s : State) (v : Table Station) : (s.setStations v).stations = v := rfl
@[simp] theorem State.setStations_zones (s : State) (v : Table Station) : (s.setStations v).zones = s.zones := rfl
@[simp] theorem State.setStations_concentrators (s : State) (v : Table Station) : (s.setStations v).concentrators = s.concentrators := rfl
@[simp] theorem State.setStations_shutters (s : State) (v : Table Station) : (s.setStations v).shutters = s.shutters := rfl
@[simp] theorem State.setStations_addresses (s : State) (v : Table Station) : (s.setStations v).addresses = s.addresses := rfl
@[simp] theorem State.setStations_classes (s : State) (v : Table Station) : (s.setStations v).classes = s.classes := rfl
@[simp] theorem State.setStations_settings (s : State) (v : Table Station) : (s.setStations v).settings = s.settings := rfl
@[simp] theorem State.setStations_bins (s : State) (v : Table Station) : (s.setStations v).bins = s.bins := rfl
@[simp] theorem State.setStations_items (s : State) (v : Table Station) : (s.setStations v).items = s.items := rfl
@[simp] theorem State.setStations_requests (s : State) (v : Table Station) : (s.setStations v).requests = s.requests := rfl
@[simp] theorem State.setStations_nextRequest (s : State) (v : Table Station) : (s.setStations v).nextRequest = s.nextRequest := rfl
@[simp] theorem State.setStations_nextJob (s : State) (v : Table Station) : (s.setStations v).nextJob = s.nextJob := rfl
@[simp] theorem State.setStations_faults (s : State) (v : Table Station) : (s.setStations v).faults = s.faults := rfl
@[simp] theorem State.setStations_firePanel (s : State) (v : Table Station) : (s.setStations v).firePanel = s.firePanel := rfl
@[simp] theorem State.setStations_keyLine (s : State) (v : Table Station) : (s.setStations v).keyLine = s.keyLine := rfl
@[simp] theorem State.setStations_securedLine (s : State) (v : Table Station) : (s.setStations v).securedLine = s.securedLine := rfl
@[simp] theorem State.setStations_link (s : State) (v : Table Station) : (s.setStations v).link = s.link := rfl
@[simp] theorem State.setStations_pending (s : State) (v : Table Station) : (s.setStations v).pending = s.pending := rfl
@[simp] theorem State.setZones_mode (s : State) (v : Table Zone) : (s.setZones v).mode = s.mode := rfl
@[simp] theorem State.setZones_startCause (s : State) (v : Table Zone) : (s.setZones v).startCause = s.startCause := rfl
@[simp] theorem State.setZones_haltedBefore (s : State) (v : Table Zone) : (s.setZones v).haltedBefore = s.haltedBefore := rfl
@[simp] theorem State.setZones_aisles (s : State) (v : Table Zone) : (s.setZones v).aisles = s.aisles := rfl
@[simp] theorem State.setZones_stations (s : State) (v : Table Zone) : (s.setZones v).stations = s.stations := rfl
@[simp] theorem State.setZones_zones (s : State) (v : Table Zone) : (s.setZones v).zones = v := rfl
@[simp] theorem State.setZones_concentrators (s : State) (v : Table Zone) : (s.setZones v).concentrators = s.concentrators := rfl
@[simp] theorem State.setZones_shutters (s : State) (v : Table Zone) : (s.setZones v).shutters = s.shutters := rfl
@[simp] theorem State.setZones_addresses (s : State) (v : Table Zone) : (s.setZones v).addresses = s.addresses := rfl
@[simp] theorem State.setZones_classes (s : State) (v : Table Zone) : (s.setZones v).classes = s.classes := rfl
@[simp] theorem State.setZones_settings (s : State) (v : Table Zone) : (s.setZones v).settings = s.settings := rfl
@[simp] theorem State.setZones_bins (s : State) (v : Table Zone) : (s.setZones v).bins = s.bins := rfl
@[simp] theorem State.setZones_items (s : State) (v : Table Zone) : (s.setZones v).items = s.items := rfl
@[simp] theorem State.setZones_requests (s : State) (v : Table Zone) : (s.setZones v).requests = s.requests := rfl
@[simp] theorem State.setZones_nextRequest (s : State) (v : Table Zone) : (s.setZones v).nextRequest = s.nextRequest := rfl
@[simp] theorem State.setZones_nextJob (s : State) (v : Table Zone) : (s.setZones v).nextJob = s.nextJob := rfl
@[simp] theorem State.setZones_faults (s : State) (v : Table Zone) : (s.setZones v).faults = s.faults := rfl
@[simp] theorem State.setZones_firePanel (s : State) (v : Table Zone) : (s.setZones v).firePanel = s.firePanel := rfl
@[simp] theorem State.setZones_keyLine (s : State) (v : Table Zone) : (s.setZones v).keyLine = s.keyLine := rfl
@[simp] theorem State.setZones_securedLine (s : State) (v : Table Zone) : (s.setZones v).securedLine = s.securedLine := rfl
@[simp] theorem State.setZones_link (s : State) (v : Table Zone) : (s.setZones v).link = s.link := rfl
@[simp] theorem State.setZones_pending (s : State) (v : Table Zone) : (s.setZones v).pending = s.pending := rfl
@[simp] theorem State.setConcentrators_mode (s : State) (v : Table Concentrator) : (s.setConcentrators v).mode = s.mode := rfl
@[simp] theorem State.setConcentrators_startCause (s : State) (v : Table Concentrator) : (s.setConcentrators v).startCause = s.startCause := rfl
@[simp] theorem State.setConcentrators_haltedBefore (s : State) (v : Table Concentrator) : (s.setConcentrators v).haltedBefore = s.haltedBefore := rfl
@[simp] theorem State.setConcentrators_aisles (s : State) (v : Table Concentrator) : (s.setConcentrators v).aisles = s.aisles := rfl
@[simp] theorem State.setConcentrators_stations (s : State) (v : Table Concentrator) : (s.setConcentrators v).stations = s.stations := rfl
@[simp] theorem State.setConcentrators_zones (s : State) (v : Table Concentrator) : (s.setConcentrators v).zones = s.zones := rfl
@[simp] theorem State.setConcentrators_concentrators (s : State) (v : Table Concentrator) : (s.setConcentrators v).concentrators = v := rfl
@[simp] theorem State.setConcentrators_shutters (s : State) (v : Table Concentrator) : (s.setConcentrators v).shutters = s.shutters := rfl
@[simp] theorem State.setConcentrators_addresses (s : State) (v : Table Concentrator) : (s.setConcentrators v).addresses = s.addresses := rfl
@[simp] theorem State.setConcentrators_classes (s : State) (v : Table Concentrator) : (s.setConcentrators v).classes = s.classes := rfl
@[simp] theorem State.setConcentrators_settings (s : State) (v : Table Concentrator) : (s.setConcentrators v).settings = s.settings := rfl
@[simp] theorem State.setConcentrators_bins (s : State) (v : Table Concentrator) : (s.setConcentrators v).bins = s.bins := rfl
@[simp] theorem State.setConcentrators_items (s : State) (v : Table Concentrator) : (s.setConcentrators v).items = s.items := rfl
@[simp] theorem State.setConcentrators_requests (s : State) (v : Table Concentrator) : (s.setConcentrators v).requests = s.requests := rfl
@[simp] theorem State.setConcentrators_nextRequest (s : State) (v : Table Concentrator) : (s.setConcentrators v).nextRequest = s.nextRequest := rfl
@[simp] theorem State.setConcentrators_nextJob (s : State) (v : Table Concentrator) : (s.setConcentrators v).nextJob = s.nextJob := rfl
@[simp] theorem State.setConcentrators_faults (s : State) (v : Table Concentrator) : (s.setConcentrators v).faults = s.faults := rfl
@[simp] theorem State.setConcentrators_firePanel (s : State) (v : Table Concentrator) : (s.setConcentrators v).firePanel = s.firePanel := rfl
@[simp] theorem State.setConcentrators_keyLine (s : State) (v : Table Concentrator) : (s.setConcentrators v).keyLine = s.keyLine := rfl
@[simp] theorem State.setConcentrators_securedLine (s : State) (v : Table Concentrator) : (s.setConcentrators v).securedLine = s.securedLine := rfl
@[simp] theorem State.setConcentrators_link (s : State) (v : Table Concentrator) : (s.setConcentrators v).link = s.link := rfl
@[simp] theorem State.setConcentrators_pending (s : State) (v : Table Concentrator) : (s.setConcentrators v).pending = s.pending := rfl
@[simp] theorem State.setShutters_mode (s : State) (v : Table Shutter) : (s.setShutters v).mode = s.mode := rfl
@[simp] theorem State.setShutters_startCause (s : State) (v : Table Shutter) : (s.setShutters v).startCause = s.startCause := rfl
@[simp] theorem State.setShutters_haltedBefore (s : State) (v : Table Shutter) : (s.setShutters v).haltedBefore = s.haltedBefore := rfl
@[simp] theorem State.setShutters_aisles (s : State) (v : Table Shutter) : (s.setShutters v).aisles = s.aisles := rfl
@[simp] theorem State.setShutters_stations (s : State) (v : Table Shutter) : (s.setShutters v).stations = s.stations := rfl
@[simp] theorem State.setShutters_zones (s : State) (v : Table Shutter) : (s.setShutters v).zones = s.zones := rfl
@[simp] theorem State.setShutters_concentrators (s : State) (v : Table Shutter) : (s.setShutters v).concentrators = s.concentrators := rfl
@[simp] theorem State.setShutters_shutters (s : State) (v : Table Shutter) : (s.setShutters v).shutters = v := rfl
@[simp] theorem State.setShutters_addresses (s : State) (v : Table Shutter) : (s.setShutters v).addresses = s.addresses := rfl
@[simp] theorem State.setShutters_classes (s : State) (v : Table Shutter) : (s.setShutters v).classes = s.classes := rfl
@[simp] theorem State.setShutters_settings (s : State) (v : Table Shutter) : (s.setShutters v).settings = s.settings := rfl
@[simp] theorem State.setShutters_bins (s : State) (v : Table Shutter) : (s.setShutters v).bins = s.bins := rfl
@[simp] theorem State.setShutters_items (s : State) (v : Table Shutter) : (s.setShutters v).items = s.items := rfl
@[simp] theorem State.setShutters_requests (s : State) (v : Table Shutter) : (s.setShutters v).requests = s.requests := rfl
@[simp] theorem State.setShutters_nextRequest (s : State) (v : Table Shutter) : (s.setShutters v).nextRequest = s.nextRequest := rfl
@[simp] theorem State.setShutters_nextJob (s : State) (v : Table Shutter) : (s.setShutters v).nextJob = s.nextJob := rfl
@[simp] theorem State.setShutters_faults (s : State) (v : Table Shutter) : (s.setShutters v).faults = s.faults := rfl
@[simp] theorem State.setShutters_firePanel (s : State) (v : Table Shutter) : (s.setShutters v).firePanel = s.firePanel := rfl
@[simp] theorem State.setShutters_keyLine (s : State) (v : Table Shutter) : (s.setShutters v).keyLine = s.keyLine := rfl
@[simp] theorem State.setShutters_securedLine (s : State) (v : Table Shutter) : (s.setShutters v).securedLine = s.securedLine := rfl
@[simp] theorem State.setShutters_link (s : State) (v : Table Shutter) : (s.setShutters v).link = s.link := rfl
@[simp] theorem State.setShutters_pending (s : State) (v : Table Shutter) : (s.setShutters v).pending = s.pending := rfl
@[simp] theorem State.setAddresses_mode (s : State) (v : Table Device) : (s.setAddresses v).mode = s.mode := rfl
@[simp] theorem State.setAddresses_startCause (s : State) (v : Table Device) : (s.setAddresses v).startCause = s.startCause := rfl
@[simp] theorem State.setAddresses_haltedBefore (s : State) (v : Table Device) : (s.setAddresses v).haltedBefore = s.haltedBefore := rfl
@[simp] theorem State.setAddresses_aisles (s : State) (v : Table Device) : (s.setAddresses v).aisles = s.aisles := rfl
@[simp] theorem State.setAddresses_stations (s : State) (v : Table Device) : (s.setAddresses v).stations = s.stations := rfl
@[simp] theorem State.setAddresses_zones (s : State) (v : Table Device) : (s.setAddresses v).zones = s.zones := rfl
@[simp] theorem State.setAddresses_concentrators (s : State) (v : Table Device) : (s.setAddresses v).concentrators = s.concentrators := rfl
@[simp] theorem State.setAddresses_shutters (s : State) (v : Table Device) : (s.setAddresses v).shutters = s.shutters := rfl
@[simp] theorem State.setAddresses_addresses (s : State) (v : Table Device) : (s.setAddresses v).addresses = v := rfl
@[simp] theorem State.setAddresses_classes (s : State) (v : Table Device) : (s.setAddresses v).classes = s.classes := rfl
@[simp] theorem State.setAddresses_settings (s : State) (v : Table Device) : (s.setAddresses v).settings = s.settings := rfl
@[simp] theorem State.setAddresses_bins (s : State) (v : Table Device) : (s.setAddresses v).bins = s.bins := rfl
@[simp] theorem State.setAddresses_items (s : State) (v : Table Device) : (s.setAddresses v).items = s.items := rfl
@[simp] theorem State.setAddresses_requests (s : State) (v : Table Device) : (s.setAddresses v).requests = s.requests := rfl
@[simp] theorem State.setAddresses_nextRequest (s : State) (v : Table Device) : (s.setAddresses v).nextRequest = s.nextRequest := rfl
@[simp] theorem State.setAddresses_nextJob (s : State) (v : Table Device) : (s.setAddresses v).nextJob = s.nextJob := rfl
@[simp] theorem State.setAddresses_faults (s : State) (v : Table Device) : (s.setAddresses v).faults = s.faults := rfl
@[simp] theorem State.setAddresses_firePanel (s : State) (v : Table Device) : (s.setAddresses v).firePanel = s.firePanel := rfl
@[simp] theorem State.setAddresses_keyLine (s : State) (v : Table Device) : (s.setAddresses v).keyLine = s.keyLine := rfl
@[simp] theorem State.setAddresses_securedLine (s : State) (v : Table Device) : (s.setAddresses v).securedLine = s.securedLine := rfl
@[simp] theorem State.setAddresses_link (s : State) (v : Table Device) : (s.setAddresses v).link = s.link := rfl
@[simp] theorem State.setAddresses_pending (s : State) (v : Table Device) : (s.setAddresses v).pending = s.pending := rfl
@[simp] theorem State.setClasses_mode (s : State) (v : Table ReportClass) : (s.setClasses v).mode = s.mode := rfl
@[simp] theorem State.setClasses_startCause (s : State) (v : Table ReportClass) : (s.setClasses v).startCause = s.startCause := rfl
@[simp] theorem State.setClasses_haltedBefore (s : State) (v : Table ReportClass) : (s.setClasses v).haltedBefore = s.haltedBefore := rfl
@[simp] theorem State.setClasses_aisles (s : State) (v : Table ReportClass) : (s.setClasses v).aisles = s.aisles := rfl
@[simp] theorem State.setClasses_stations (s : State) (v : Table ReportClass) : (s.setClasses v).stations = s.stations := rfl
@[simp] theorem State.setClasses_zones (s : State) (v : Table ReportClass) : (s.setClasses v).zones = s.zones := rfl
@[simp] theorem State.setClasses_concentrators (s : State) (v : Table ReportClass) : (s.setClasses v).concentrators = s.concentrators := rfl
@[simp] theorem State.setClasses_shutters (s : State) (v : Table ReportClass) : (s.setClasses v).shutters = s.shutters := rfl
@[simp] theorem State.setClasses_addresses (s : State) (v : Table ReportClass) : (s.setClasses v).addresses = s.addresses := rfl
@[simp] theorem State.setClasses_classes (s : State) (v : Table ReportClass) : (s.setClasses v).classes = v := rfl
@[simp] theorem State.setClasses_settings (s : State) (v : Table ReportClass) : (s.setClasses v).settings = s.settings := rfl
@[simp] theorem State.setClasses_bins (s : State) (v : Table ReportClass) : (s.setClasses v).bins = s.bins := rfl
@[simp] theorem State.setClasses_items (s : State) (v : Table ReportClass) : (s.setClasses v).items = s.items := rfl
@[simp] theorem State.setClasses_requests (s : State) (v : Table ReportClass) : (s.setClasses v).requests = s.requests := rfl
@[simp] theorem State.setClasses_nextRequest (s : State) (v : Table ReportClass) : (s.setClasses v).nextRequest = s.nextRequest := rfl
@[simp] theorem State.setClasses_nextJob (s : State) (v : Table ReportClass) : (s.setClasses v).nextJob = s.nextJob := rfl
@[simp] theorem State.setClasses_faults (s : State) (v : Table ReportClass) : (s.setClasses v).faults = s.faults := rfl
@[simp] theorem State.setClasses_firePanel (s : State) (v : Table ReportClass) : (s.setClasses v).firePanel = s.firePanel := rfl
@[simp] theorem State.setClasses_keyLine (s : State) (v : Table ReportClass) : (s.setClasses v).keyLine = s.keyLine := rfl
@[simp] theorem State.setClasses_securedLine (s : State) (v : Table ReportClass) : (s.setClasses v).securedLine = s.securedLine := rfl
@[simp] theorem State.setClasses_link (s : State) (v : Table ReportClass) : (s.setClasses v).link = s.link := rfl
@[simp] theorem State.setClasses_pending (s : State) (v : Table ReportClass) : (s.setClasses v).pending = s.pending := rfl
@[simp] theorem State.setSettings_mode (s : State) (v : Settings) : (s.setSettings v).mode = s.mode := rfl
@[simp] theorem State.setSettings_startCause (s : State) (v : Settings) : (s.setSettings v).startCause = s.startCause := rfl
@[simp] theorem State.setSettings_haltedBefore (s : State) (v : Settings) : (s.setSettings v).haltedBefore = s.haltedBefore := rfl
@[simp] theorem State.setSettings_aisles (s : State) (v : Settings) : (s.setSettings v).aisles = s.aisles := rfl
@[simp] theorem State.setSettings_stations (s : State) (v : Settings) : (s.setSettings v).stations = s.stations := rfl
@[simp] theorem State.setSettings_zones (s : State) (v : Settings) : (s.setSettings v).zones = s.zones := rfl
@[simp] theorem State.setSettings_concentrators (s : State) (v : Settings) : (s.setSettings v).concentrators = s.concentrators := rfl
@[simp] theorem State.setSettings_shutters (s : State) (v : Settings) : (s.setSettings v).shutters = s.shutters := rfl
@[simp] theorem State.setSettings_addresses (s : State) (v : Settings) : (s.setSettings v).addresses = s.addresses := rfl
@[simp] theorem State.setSettings_classes (s : State) (v : Settings) : (s.setSettings v).classes = s.classes := rfl
@[simp] theorem State.setSettings_settings (s : State) (v : Settings) : (s.setSettings v).settings = v := rfl
@[simp] theorem State.setSettings_bins (s : State) (v : Settings) : (s.setSettings v).bins = s.bins := rfl
@[simp] theorem State.setSettings_items (s : State) (v : Settings) : (s.setSettings v).items = s.items := rfl
@[simp] theorem State.setSettings_requests (s : State) (v : Settings) : (s.setSettings v).requests = s.requests := rfl
@[simp] theorem State.setSettings_nextRequest (s : State) (v : Settings) : (s.setSettings v).nextRequest = s.nextRequest := rfl
@[simp] theorem State.setSettings_nextJob (s : State) (v : Settings) : (s.setSettings v).nextJob = s.nextJob := rfl
@[simp] theorem State.setSettings_faults (s : State) (v : Settings) : (s.setSettings v).faults = s.faults := rfl
@[simp] theorem State.setSettings_firePanel (s : State) (v : Settings) : (s.setSettings v).firePanel = s.firePanel := rfl
@[simp] theorem State.setSettings_keyLine (s : State) (v : Settings) : (s.setSettings v).keyLine = s.keyLine := rfl
@[simp] theorem State.setSettings_securedLine (s : State) (v : Settings) : (s.setSettings v).securedLine = s.securedLine := rfl
@[simp] theorem State.setSettings_link (s : State) (v : Settings) : (s.setSettings v).link = s.link := rfl
@[simp] theorem State.setSettings_pending (s : State) (v : Settings) : (s.setSettings v).pending = s.pending := rfl
@[simp] theorem State.setBins_mode (s : State) (v : Table Bin) : (s.setBins v).mode = s.mode := rfl
@[simp] theorem State.setBins_startCause (s : State) (v : Table Bin) : (s.setBins v).startCause = s.startCause := rfl
@[simp] theorem State.setBins_haltedBefore (s : State) (v : Table Bin) : (s.setBins v).haltedBefore = s.haltedBefore := rfl
@[simp] theorem State.setBins_aisles (s : State) (v : Table Bin) : (s.setBins v).aisles = s.aisles := rfl
@[simp] theorem State.setBins_stations (s : State) (v : Table Bin) : (s.setBins v).stations = s.stations := rfl
@[simp] theorem State.setBins_zones (s : State) (v : Table Bin) : (s.setBins v).zones = s.zones := rfl
@[simp] theorem State.setBins_concentrators (s : State) (v : Table Bin) : (s.setBins v).concentrators = s.concentrators := rfl
@[simp] theorem State.setBins_shutters (s : State) (v : Table Bin) : (s.setBins v).shutters = s.shutters := rfl
@[simp] theorem State.setBins_addresses (s : State) (v : Table Bin) : (s.setBins v).addresses = s.addresses := rfl
@[simp] theorem State.setBins_classes (s : State) (v : Table Bin) : (s.setBins v).classes = s.classes := rfl
@[simp] theorem State.setBins_settings (s : State) (v : Table Bin) : (s.setBins v).settings = s.settings := rfl
@[simp] theorem State.setBins_bins (s : State) (v : Table Bin) : (s.setBins v).bins = v := rfl
@[simp] theorem State.setBins_items (s : State) (v : Table Bin) : (s.setBins v).items = s.items := rfl
@[simp] theorem State.setBins_requests (s : State) (v : Table Bin) : (s.setBins v).requests = s.requests := rfl
@[simp] theorem State.setBins_nextRequest (s : State) (v : Table Bin) : (s.setBins v).nextRequest = s.nextRequest := rfl
@[simp] theorem State.setBins_nextJob (s : State) (v : Table Bin) : (s.setBins v).nextJob = s.nextJob := rfl
@[simp] theorem State.setBins_faults (s : State) (v : Table Bin) : (s.setBins v).faults = s.faults := rfl
@[simp] theorem State.setBins_firePanel (s : State) (v : Table Bin) : (s.setBins v).firePanel = s.firePanel := rfl
@[simp] theorem State.setBins_keyLine (s : State) (v : Table Bin) : (s.setBins v).keyLine = s.keyLine := rfl
@[simp] theorem State.setBins_securedLine (s : State) (v : Table Bin) : (s.setBins v).securedLine = s.securedLine := rfl
@[simp] theorem State.setBins_link (s : State) (v : Table Bin) : (s.setBins v).link = s.link := rfl
@[simp] theorem State.setBins_pending (s : State) (v : Table Bin) : (s.setBins v).pending = s.pending := rfl
@[simp] theorem State.setItems_mode (s : State) (v : Table Item) : (s.setItems v).mode = s.mode := rfl
@[simp] theorem State.setItems_startCause (s : State) (v : Table Item) : (s.setItems v).startCause = s.startCause := rfl
@[simp] theorem State.setItems_haltedBefore (s : State) (v : Table Item) : (s.setItems v).haltedBefore = s.haltedBefore := rfl
@[simp] theorem State.setItems_aisles (s : State) (v : Table Item) : (s.setItems v).aisles = s.aisles := rfl
@[simp] theorem State.setItems_stations (s : State) (v : Table Item) : (s.setItems v).stations = s.stations := rfl
@[simp] theorem State.setItems_zones (s : State) (v : Table Item) : (s.setItems v).zones = s.zones := rfl
@[simp] theorem State.setItems_concentrators (s : State) (v : Table Item) : (s.setItems v).concentrators = s.concentrators := rfl
@[simp] theorem State.setItems_shutters (s : State) (v : Table Item) : (s.setItems v).shutters = s.shutters := rfl
@[simp] theorem State.setItems_addresses (s : State) (v : Table Item) : (s.setItems v).addresses = s.addresses := rfl
@[simp] theorem State.setItems_classes (s : State) (v : Table Item) : (s.setItems v).classes = s.classes := rfl
@[simp] theorem State.setItems_settings (s : State) (v : Table Item) : (s.setItems v).settings = s.settings := rfl
@[simp] theorem State.setItems_bins (s : State) (v : Table Item) : (s.setItems v).bins = s.bins := rfl
@[simp] theorem State.setItems_items (s : State) (v : Table Item) : (s.setItems v).items = v := rfl
@[simp] theorem State.setItems_requests (s : State) (v : Table Item) : (s.setItems v).requests = s.requests := rfl
@[simp] theorem State.setItems_nextRequest (s : State) (v : Table Item) : (s.setItems v).nextRequest = s.nextRequest := rfl
@[simp] theorem State.setItems_nextJob (s : State) (v : Table Item) : (s.setItems v).nextJob = s.nextJob := rfl
@[simp] theorem State.setItems_faults (s : State) (v : Table Item) : (s.setItems v).faults = s.faults := rfl
@[simp] theorem State.setItems_firePanel (s : State) (v : Table Item) : (s.setItems v).firePanel = s.firePanel := rfl
@[simp] theorem State.setItems_keyLine (s : State) (v : Table Item) : (s.setItems v).keyLine = s.keyLine := rfl
@[simp] theorem State.setItems_securedLine (s : State) (v : Table Item) : (s.setItems v).securedLine = s.securedLine := rfl
@[simp] theorem State.setItems_link (s : State) (v : Table Item) : (s.setItems v).link = s.link := rfl
@[simp] theorem State.setItems_pending (s : State) (v : Table Item) : (s.setItems v).pending = s.pending := rfl
@[simp] theorem State.setRequests_mode (s : State) (v : List Request) : (s.setRequests v).mode = s.mode := rfl
@[simp] theorem State.setRequests_startCause (s : State) (v : List Request) : (s.setRequests v).startCause = s.startCause := rfl
@[simp] theorem State.setRequests_haltedBefore (s : State) (v : List Request) : (s.setRequests v).haltedBefore = s.haltedBefore := rfl
@[simp] theorem State.setRequests_aisles (s : State) (v : List Request) : (s.setRequests v).aisles = s.aisles := rfl
@[simp] theorem State.setRequests_stations (s : State) (v : List Request) : (s.setRequests v).stations = s.stations := rfl
@[simp] theorem State.setRequests_zones (s : State) (v : List Request) : (s.setRequests v).zones = s.zones := rfl
@[simp] theorem State.setRequests_concentrators (s : State) (v : List Request) : (s.setRequests v).concentrators = s.concentrators := rfl
@[simp] theorem State.setRequests_shutters (s : State) (v : List Request) : (s.setRequests v).shutters = s.shutters := rfl
@[simp] theorem State.setRequests_addresses (s : State) (v : List Request) : (s.setRequests v).addresses = s.addresses := rfl
@[simp] theorem State.setRequests_classes (s : State) (v : List Request) : (s.setRequests v).classes = s.classes := rfl
@[simp] theorem State.setRequests_settings (s : State) (v : List Request) : (s.setRequests v).settings = s.settings := rfl
@[simp] theorem State.setRequests_bins (s : State) (v : List Request) : (s.setRequests v).bins = s.bins := rfl
@[simp] theorem State.setRequests_items (s : State) (v : List Request) : (s.setRequests v).items = s.items := rfl
@[simp] theorem State.setRequests_requests (s : State) (v : List Request) : (s.setRequests v).requests = v := rfl
@[simp] theorem State.setRequests_nextRequest (s : State) (v : List Request) : (s.setRequests v).nextRequest = s.nextRequest := rfl
@[simp] theorem State.setRequests_nextJob (s : State) (v : List Request) : (s.setRequests v).nextJob = s.nextJob := rfl
@[simp] theorem State.setRequests_faults (s : State) (v : List Request) : (s.setRequests v).faults = s.faults := rfl
@[simp] theorem State.setRequests_firePanel (s : State) (v : List Request) : (s.setRequests v).firePanel = s.firePanel := rfl
@[simp] theorem State.setRequests_keyLine (s : State) (v : List Request) : (s.setRequests v).keyLine = s.keyLine := rfl
@[simp] theorem State.setRequests_securedLine (s : State) (v : List Request) : (s.setRequests v).securedLine = s.securedLine := rfl
@[simp] theorem State.setRequests_link (s : State) (v : List Request) : (s.setRequests v).link = s.link := rfl
@[simp] theorem State.setRequests_pending (s : State) (v : List Request) : (s.setRequests v).pending = s.pending := rfl
@[simp] theorem State.setNextRequest_mode (s : State) (v : Nat) : (s.setNextRequest v).mode = s.mode := rfl
@[simp] theorem State.setNextRequest_startCause (s : State) (v : Nat) : (s.setNextRequest v).startCause = s.startCause := rfl
@[simp] theorem State.setNextRequest_haltedBefore (s : State) (v : Nat) : (s.setNextRequest v).haltedBefore = s.haltedBefore := rfl
@[simp] theorem State.setNextRequest_aisles (s : State) (v : Nat) : (s.setNextRequest v).aisles = s.aisles := rfl
@[simp] theorem State.setNextRequest_stations (s : State) (v : Nat) : (s.setNextRequest v).stations = s.stations := rfl
@[simp] theorem State.setNextRequest_zones (s : State) (v : Nat) : (s.setNextRequest v).zones = s.zones := rfl
@[simp] theorem State.setNextRequest_concentrators (s : State) (v : Nat) : (s.setNextRequest v).concentrators = s.concentrators := rfl
@[simp] theorem State.setNextRequest_shutters (s : State) (v : Nat) : (s.setNextRequest v).shutters = s.shutters := rfl
@[simp] theorem State.setNextRequest_addresses (s : State) (v : Nat) : (s.setNextRequest v).addresses = s.addresses := rfl
@[simp] theorem State.setNextRequest_classes (s : State) (v : Nat) : (s.setNextRequest v).classes = s.classes := rfl
@[simp] theorem State.setNextRequest_settings (s : State) (v : Nat) : (s.setNextRequest v).settings = s.settings := rfl
@[simp] theorem State.setNextRequest_bins (s : State) (v : Nat) : (s.setNextRequest v).bins = s.bins := rfl
@[simp] theorem State.setNextRequest_items (s : State) (v : Nat) : (s.setNextRequest v).items = s.items := rfl
@[simp] theorem State.setNextRequest_requests (s : State) (v : Nat) : (s.setNextRequest v).requests = s.requests := rfl
@[simp] theorem State.setNextRequest_nextRequest (s : State) (v : Nat) : (s.setNextRequest v).nextRequest = v := rfl
@[simp] theorem State.setNextRequest_nextJob (s : State) (v : Nat) : (s.setNextRequest v).nextJob = s.nextJob := rfl
@[simp] theorem State.setNextRequest_faults (s : State) (v : Nat) : (s.setNextRequest v).faults = s.faults := rfl
@[simp] theorem State.setNextRequest_firePanel (s : State) (v : Nat) : (s.setNextRequest v).firePanel = s.firePanel := rfl
@[simp] theorem State.setNextRequest_keyLine (s : State) (v : Nat) : (s.setNextRequest v).keyLine = s.keyLine := rfl
@[simp] theorem State.setNextRequest_securedLine (s : State) (v : Nat) : (s.setNextRequest v).securedLine = s.securedLine := rfl
@[simp] theorem State.setNextRequest_link (s : State) (v : Nat) : (s.setNextRequest v).link = s.link := rfl
@[simp] theorem State.setNextRequest_pending (s : State) (v : Nat) : (s.setNextRequest v).pending = s.pending := rfl
@[simp] theorem State.setNextJob_mode (s : State) (v : Nat) : (s.setNextJob v).mode = s.mode := rfl
@[simp] theorem State.setNextJob_startCause (s : State) (v : Nat) : (s.setNextJob v).startCause = s.startCause := rfl
@[simp] theorem State.setNextJob_haltedBefore (s : State) (v : Nat) : (s.setNextJob v).haltedBefore = s.haltedBefore := rfl
@[simp] theorem State.setNextJob_aisles (s : State) (v : Nat) : (s.setNextJob v).aisles = s.aisles := rfl
@[simp] theorem State.setNextJob_stations (s : State) (v : Nat) : (s.setNextJob v).stations = s.stations := rfl
@[simp] theorem State.setNextJob_zones (s : State) (v : Nat) : (s.setNextJob v).zones = s.zones := rfl
@[simp] theorem State.setNextJob_concentrators (s : State) (v : Nat) : (s.setNextJob v).concentrators = s.concentrators := rfl
@[simp] theorem State.setNextJob_shutters (s : State) (v : Nat) : (s.setNextJob v).shutters = s.shutters := rfl
@[simp] theorem State.setNextJob_addresses (s : State) (v : Nat) : (s.setNextJob v).addresses = s.addresses := rfl
@[simp] theorem State.setNextJob_classes (s : State) (v : Nat) : (s.setNextJob v).classes = s.classes := rfl
@[simp] theorem State.setNextJob_settings (s : State) (v : Nat) : (s.setNextJob v).settings = s.settings := rfl
@[simp] theorem State.setNextJob_bins (s : State) (v : Nat) : (s.setNextJob v).bins = s.bins := rfl
@[simp] theorem State.setNextJob_items (s : State) (v : Nat) : (s.setNextJob v).items = s.items := rfl
@[simp] theorem State.setNextJob_requests (s : State) (v : Nat) : (s.setNextJob v).requests = s.requests := rfl
@[simp] theorem State.setNextJob_nextRequest (s : State) (v : Nat) : (s.setNextJob v).nextRequest = s.nextRequest := rfl
@[simp] theorem State.setNextJob_nextJob (s : State) (v : Nat) : (s.setNextJob v).nextJob = v := rfl
@[simp] theorem State.setNextJob_faults (s : State) (v : Nat) : (s.setNextJob v).faults = s.faults := rfl
@[simp] theorem State.setNextJob_firePanel (s : State) (v : Nat) : (s.setNextJob v).firePanel = s.firePanel := rfl
@[simp] theorem State.setNextJob_keyLine (s : State) (v : Nat) : (s.setNextJob v).keyLine = s.keyLine := rfl
@[simp] theorem State.setNextJob_securedLine (s : State) (v : Nat) : (s.setNextJob v).securedLine = s.securedLine := rfl
@[simp] theorem State.setNextJob_link (s : State) (v : Nat) : (s.setNextJob v).link = s.link := rfl
@[simp] theorem State.setNextJob_pending (s : State) (v : Nat) : (s.setNextJob v).pending = s.pending := rfl
@[simp] theorem State.setFaults_mode (s : State) (v : FaultUnit) : (s.setFaults v).mode = s.mode := rfl
@[simp] theorem State.setFaults_startCause (s : State) (v : FaultUnit) : (s.setFaults v).startCause = s.startCause := rfl
@[simp] theorem State.setFaults_haltedBefore (s : State) (v : FaultUnit) : (s.setFaults v).haltedBefore = s.haltedBefore := rfl
@[simp] theorem State.setFaults_aisles (s : State) (v : FaultUnit) : (s.setFaults v).aisles = s.aisles := rfl
@[simp] theorem State.setFaults_stations (s : State) (v : FaultUnit) : (s.setFaults v).stations = s.stations := rfl
@[simp] theorem State.setFaults_zones (s : State) (v : FaultUnit) : (s.setFaults v).zones = s.zones := rfl
@[simp] theorem State.setFaults_concentrators (s : State) (v : FaultUnit) : (s.setFaults v).concentrators = s.concentrators := rfl
@[simp] theorem State.setFaults_shutters (s : State) (v : FaultUnit) : (s.setFaults v).shutters = s.shutters := rfl
@[simp] theorem State.setFaults_addresses (s : State) (v : FaultUnit) : (s.setFaults v).addresses = s.addresses := rfl
@[simp] theorem State.setFaults_classes (s : State) (v : FaultUnit) : (s.setFaults v).classes = s.classes := rfl
@[simp] theorem State.setFaults_settings (s : State) (v : FaultUnit) : (s.setFaults v).settings = s.settings := rfl
@[simp] theorem State.setFaults_bins (s : State) (v : FaultUnit) : (s.setFaults v).bins = s.bins := rfl
@[simp] theorem State.setFaults_items (s : State) (v : FaultUnit) : (s.setFaults v).items = s.items := rfl
@[simp] theorem State.setFaults_requests (s : State) (v : FaultUnit) : (s.setFaults v).requests = s.requests := rfl
@[simp] theorem State.setFaults_nextRequest (s : State) (v : FaultUnit) : (s.setFaults v).nextRequest = s.nextRequest := rfl
@[simp] theorem State.setFaults_nextJob (s : State) (v : FaultUnit) : (s.setFaults v).nextJob = s.nextJob := rfl
@[simp] theorem State.setFaults_faults (s : State) (v : FaultUnit) : (s.setFaults v).faults = v := rfl
@[simp] theorem State.setFaults_firePanel (s : State) (v : FaultUnit) : (s.setFaults v).firePanel = s.firePanel := rfl
@[simp] theorem State.setFaults_keyLine (s : State) (v : FaultUnit) : (s.setFaults v).keyLine = s.keyLine := rfl
@[simp] theorem State.setFaults_securedLine (s : State) (v : FaultUnit) : (s.setFaults v).securedLine = s.securedLine := rfl
@[simp] theorem State.setFaults_link (s : State) (v : FaultUnit) : (s.setFaults v).link = s.link := rfl
@[simp] theorem State.setFaults_pending (s : State) (v : FaultUnit) : (s.setFaults v).pending = s.pending := rfl
@[simp] theorem State.setFirePanel_mode (s : State) (v : Bool) : (s.setFirePanel v).mode = s.mode := rfl
@[simp] theorem State.setFirePanel_startCause (s : State) (v : Bool) : (s.setFirePanel v).startCause = s.startCause := rfl
@[simp] theorem State.setFirePanel_haltedBefore (s : State) (v : Bool) : (s.setFirePanel v).haltedBefore = s.haltedBefore := rfl
@[simp] theorem State.setFirePanel_aisles (s : State) (v : Bool) : (s.setFirePanel v).aisles = s.aisles := rfl
@[simp] theorem State.setFirePanel_stations (s : State) (v : Bool) : (s.setFirePanel v).stations = s.stations := rfl
@[simp] theorem State.setFirePanel_zones (s : State) (v : Bool) : (s.setFirePanel v).zones = s.zones := rfl
@[simp] theorem State.setFirePanel_concentrators (s : State) (v : Bool) : (s.setFirePanel v).concentrators = s.concentrators := rfl
@[simp] theorem State.setFirePanel_shutters (s : State) (v : Bool) : (s.setFirePanel v).shutters = s.shutters := rfl
@[simp] theorem State.setFirePanel_addresses (s : State) (v : Bool) : (s.setFirePanel v).addresses = s.addresses := rfl
@[simp] theorem State.setFirePanel_classes (s : State) (v : Bool) : (s.setFirePanel v).classes = s.classes := rfl
@[simp] theorem State.setFirePanel_settings (s : State) (v : Bool) : (s.setFirePanel v).settings = s.settings := rfl
@[simp] theorem State.setFirePanel_bins (s : State) (v : Bool) : (s.setFirePanel v).bins = s.bins := rfl
@[simp] theorem State.setFirePanel_items (s : State) (v : Bool) : (s.setFirePanel v).items = s.items := rfl
@[simp] theorem State.setFirePanel_requests (s : State) (v : Bool) : (s.setFirePanel v).requests = s.requests := rfl
@[simp] theorem State.setFirePanel_nextRequest (s : State) (v : Bool) : (s.setFirePanel v).nextRequest = s.nextRequest := rfl
@[simp] theorem State.setFirePanel_nextJob (s : State) (v : Bool) : (s.setFirePanel v).nextJob = s.nextJob := rfl
@[simp] theorem State.setFirePanel_faults (s : State) (v : Bool) : (s.setFirePanel v).faults = s.faults := rfl
@[simp] theorem State.setFirePanel_firePanel (s : State) (v : Bool) : (s.setFirePanel v).firePanel = v := rfl
@[simp] theorem State.setFirePanel_keyLine (s : State) (v : Bool) : (s.setFirePanel v).keyLine = s.keyLine := rfl
@[simp] theorem State.setFirePanel_securedLine (s : State) (v : Bool) : (s.setFirePanel v).securedLine = s.securedLine := rfl
@[simp] theorem State.setFirePanel_link (s : State) (v : Bool) : (s.setFirePanel v).link = s.link := rfl
@[simp] theorem State.setFirePanel_pending (s : State) (v : Bool) : (s.setFirePanel v).pending = s.pending := rfl
@[simp] theorem State.setKeyLine_mode (s : State) (v : Bool) : (s.setKeyLine v).mode = s.mode := rfl
@[simp] theorem State.setKeyLine_startCause (s : State) (v : Bool) : (s.setKeyLine v).startCause = s.startCause := rfl
@[simp] theorem State.setKeyLine_haltedBefore (s : State) (v : Bool) : (s.setKeyLine v).haltedBefore = s.haltedBefore := rfl
@[simp] theorem State.setKeyLine_aisles (s : State) (v : Bool) : (s.setKeyLine v).aisles = s.aisles := rfl
@[simp] theorem State.setKeyLine_stations (s : State) (v : Bool) : (s.setKeyLine v).stations = s.stations := rfl
@[simp] theorem State.setKeyLine_zones (s : State) (v : Bool) : (s.setKeyLine v).zones = s.zones := rfl
@[simp] theorem State.setKeyLine_concentrators (s : State) (v : Bool) : (s.setKeyLine v).concentrators = s.concentrators := rfl
@[simp] theorem State.setKeyLine_shutters (s : State) (v : Bool) : (s.setKeyLine v).shutters = s.shutters := rfl
@[simp] theorem State.setKeyLine_addresses (s : State) (v : Bool) : (s.setKeyLine v).addresses = s.addresses := rfl
@[simp] theorem State.setKeyLine_classes (s : State) (v : Bool) : (s.setKeyLine v).classes = s.classes := rfl
@[simp] theorem State.setKeyLine_settings (s : State) (v : Bool) : (s.setKeyLine v).settings = s.settings := rfl
@[simp] theorem State.setKeyLine_bins (s : State) (v : Bool) : (s.setKeyLine v).bins = s.bins := rfl
@[simp] theorem State.setKeyLine_items (s : State) (v : Bool) : (s.setKeyLine v).items = s.items := rfl
@[simp] theorem State.setKeyLine_requests (s : State) (v : Bool) : (s.setKeyLine v).requests = s.requests := rfl
@[simp] theorem State.setKeyLine_nextRequest (s : State) (v : Bool) : (s.setKeyLine v).nextRequest = s.nextRequest := rfl
@[simp] theorem State.setKeyLine_nextJob (s : State) (v : Bool) : (s.setKeyLine v).nextJob = s.nextJob := rfl
@[simp] theorem State.setKeyLine_faults (s : State) (v : Bool) : (s.setKeyLine v).faults = s.faults := rfl
@[simp] theorem State.setKeyLine_firePanel (s : State) (v : Bool) : (s.setKeyLine v).firePanel = s.firePanel := rfl
@[simp] theorem State.setKeyLine_keyLine (s : State) (v : Bool) : (s.setKeyLine v).keyLine = v := rfl
@[simp] theorem State.setKeyLine_securedLine (s : State) (v : Bool) : (s.setKeyLine v).securedLine = s.securedLine := rfl
@[simp] theorem State.setKeyLine_link (s : State) (v : Bool) : (s.setKeyLine v).link = s.link := rfl
@[simp] theorem State.setKeyLine_pending (s : State) (v : Bool) : (s.setKeyLine v).pending = s.pending := rfl
@[simp] theorem State.setSecuredLine_mode (s : State) (v : Bool) : (s.setSecuredLine v).mode = s.mode := rfl
@[simp] theorem State.setSecuredLine_startCause (s : State) (v : Bool) : (s.setSecuredLine v).startCause = s.startCause := rfl
@[simp] theorem State.setSecuredLine_haltedBefore (s : State) (v : Bool) : (s.setSecuredLine v).haltedBefore = s.haltedBefore := rfl
@[simp] theorem State.setSecuredLine_aisles (s : State) (v : Bool) : (s.setSecuredLine v).aisles = s.aisles := rfl
@[simp] theorem State.setSecuredLine_stations (s : State) (v : Bool) : (s.setSecuredLine v).stations = s.stations := rfl
@[simp] theorem State.setSecuredLine_zones (s : State) (v : Bool) : (s.setSecuredLine v).zones = s.zones := rfl
@[simp] theorem State.setSecuredLine_concentrators (s : State) (v : Bool) : (s.setSecuredLine v).concentrators = s.concentrators := rfl
@[simp] theorem State.setSecuredLine_shutters (s : State) (v : Bool) : (s.setSecuredLine v).shutters = s.shutters := rfl
@[simp] theorem State.setSecuredLine_addresses (s : State) (v : Bool) : (s.setSecuredLine v).addresses = s.addresses := rfl
@[simp] theorem State.setSecuredLine_classes (s : State) (v : Bool) : (s.setSecuredLine v).classes = s.classes := rfl
@[simp] theorem State.setSecuredLine_settings (s : State) (v : Bool) : (s.setSecuredLine v).settings = s.settings := rfl
@[simp] theorem State.setSecuredLine_bins (s : State) (v : Bool) : (s.setSecuredLine v).bins = s.bins := rfl
@[simp] theorem State.setSecuredLine_items (s : State) (v : Bool) : (s.setSecuredLine v).items = s.items := rfl
@[simp] theorem State.setSecuredLine_requests (s : State) (v : Bool) : (s.setSecuredLine v).requests = s.requests := rfl
@[simp] theorem State.setSecuredLine_nextRequest (s : State) (v : Bool) : (s.setSecuredLine v).nextRequest = s.nextRequest := rfl
@[simp] theorem State.setSecuredLine_nextJob (s : State) (v : Bool) : (s.setSecuredLine v).nextJob = s.nextJob := rfl
@[simp] theorem State.setSecuredLine_faults (s : State) (v : Bool) : (s.setSecuredLine v).faults = s.faults := rfl
@[simp] theorem State.setSecuredLine_firePanel (s : State) (v : Bool) : (s.setSecuredLine v).firePanel = s.firePanel := rfl
@[simp] theorem State.setSecuredLine_keyLine (s : State) (v : Bool) : (s.setSecuredLine v).keyLine = s.keyLine := rfl
@[simp] theorem State.setSecuredLine_securedLine (s : State) (v : Bool) : (s.setSecuredLine v).securedLine = v := rfl
@[simp] theorem State.setSecuredLine_link (s : State) (v : Bool) : (s.setSecuredLine v).link = s.link := rfl
@[simp] theorem State.setSecuredLine_pending (s : State) (v : Bool) : (s.setSecuredLine v).pending = s.pending := rfl
@[simp] theorem State.setLink_mode (s : State) (v : Link) : (s.setLink v).mode = s.mode := rfl
@[simp] theorem State.setLink_startCause (s : State) (v : Link) : (s.setLink v).startCause = s.startCause := rfl
@[simp] theorem State.setLink_haltedBefore (s : State) (v : Link) : (s.setLink v).haltedBefore = s.haltedBefore := rfl
@[simp] theorem State.setLink_aisles (s : State) (v : Link) : (s.setLink v).aisles = s.aisles := rfl
@[simp] theorem State.setLink_stations (s : State) (v : Link) : (s.setLink v).stations = s.stations := rfl
@[simp] theorem State.setLink_zones (s : State) (v : Link) : (s.setLink v).zones = s.zones := rfl
@[simp] theorem State.setLink_concentrators (s : State) (v : Link) : (s.setLink v).concentrators = s.concentrators := rfl
@[simp] theorem State.setLink_shutters (s : State) (v : Link) : (s.setLink v).shutters = s.shutters := rfl
@[simp] theorem State.setLink_addresses (s : State) (v : Link) : (s.setLink v).addresses = s.addresses := rfl
@[simp] theorem State.setLink_classes (s : State) (v : Link) : (s.setLink v).classes = s.classes := rfl
@[simp] theorem State.setLink_settings (s : State) (v : Link) : (s.setLink v).settings = s.settings := rfl
@[simp] theorem State.setLink_bins (s : State) (v : Link) : (s.setLink v).bins = s.bins := rfl
@[simp] theorem State.setLink_items (s : State) (v : Link) : (s.setLink v).items = s.items := rfl
@[simp] theorem State.setLink_requests (s : State) (v : Link) : (s.setLink v).requests = s.requests := rfl
@[simp] theorem State.setLink_nextRequest (s : State) (v : Link) : (s.setLink v).nextRequest = s.nextRequest := rfl
@[simp] theorem State.setLink_nextJob (s : State) (v : Link) : (s.setLink v).nextJob = s.nextJob := rfl
@[simp] theorem State.setLink_faults (s : State) (v : Link) : (s.setLink v).faults = s.faults := rfl
@[simp] theorem State.setLink_firePanel (s : State) (v : Link) : (s.setLink v).firePanel = s.firePanel := rfl
@[simp] theorem State.setLink_keyLine (s : State) (v : Link) : (s.setLink v).keyLine = s.keyLine := rfl
@[simp] theorem State.setLink_securedLine (s : State) (v : Link) : (s.setLink v).securedLine = s.securedLine := rfl
@[simp] theorem State.setLink_link (s : State) (v : Link) : (s.setLink v).link = v := rfl
@[simp] theorem State.setLink_pending (s : State) (v : Link) : (s.setLink v).pending = s.pending := rfl
@[simp] theorem State.setPending_mode (s : State) (v : List Instr) : (s.setPending v).mode = s.mode := rfl
@[simp] theorem State.setPending_startCause (s : State) (v : List Instr) : (s.setPending v).startCause = s.startCause := rfl
@[simp] theorem State.setPending_haltedBefore (s : State) (v : List Instr) : (s.setPending v).haltedBefore = s.haltedBefore := rfl
@[simp] theorem State.setPending_aisles (s : State) (v : List Instr) : (s.setPending v).aisles = s.aisles := rfl
@[simp] theorem State.setPending_stations (s : State) (v : List Instr) : (s.setPending v).stations = s.stations := rfl
@[simp] theorem State.setPending_zones (s : State) (v : List Instr) : (s.setPending v).zones = s.zones := rfl
@[simp] theorem State.setPending_concentrators (s : State) (v : List Instr) : (s.setPending v).concentrators = s.concentrators := rfl
@[simp] theorem State.setPending_shutters (s : State) (v : List Instr) : (s.setPending v).shutters = s.shutters := rfl
@[simp] theorem State.setPending_addresses (s : State) (v : List Instr) : (s.setPending v).addresses = s.addresses := rfl
@[simp] theorem State.setPending_classes (s : State) (v : List Instr) : (s.setPending v).classes = s.classes := rfl
@[simp] theorem State.setPending_settings (s : State) (v : List Instr) : (s.setPending v).settings = s.settings := rfl
@[simp] theorem State.setPending_bins (s : State) (v : List Instr) : (s.setPending v).bins = s.bins := rfl
@[simp] theorem State.setPending_items (s : State) (v : List Instr) : (s.setPending v).items = s.items := rfl
@[simp] theorem State.setPending_requests (s : State) (v : List Instr) : (s.setPending v).requests = s.requests := rfl
@[simp] theorem State.setPending_nextRequest (s : State) (v : List Instr) : (s.setPending v).nextRequest = s.nextRequest := rfl
@[simp] theorem State.setPending_nextJob (s : State) (v : List Instr) : (s.setPending v).nextJob = s.nextJob := rfl
@[simp] theorem State.setPending_faults (s : State) (v : List Instr) : (s.setPending v).faults = s.faults := rfl
@[simp] theorem State.setPending_firePanel (s : State) (v : List Instr) : (s.setPending v).firePanel = s.firePanel := rfl
@[simp] theorem State.setPending_keyLine (s : State) (v : List Instr) : (s.setPending v).keyLine = s.keyLine := rfl
@[simp] theorem State.setPending_securedLine (s : State) (v : List Instr) : (s.setPending v).securedLine = s.securedLine := rfl
@[simp] theorem State.setPending_link (s : State) (v : List Instr) : (s.setPending v).link = s.link := rfl
@[simp] theorem State.setPending_pending (s : State) (v : List Instr) : (s.setPending v).pending = v := rfl

/-! ### One record changed -/

@[simp] theorem State.modAisle_mode (s : State) (n : Nat) (f : Aisle → Aisle) : (s.modAisle n f).mode = s.mode := rfl
@[simp] theorem State.modAisle_startCause (s : State) (n : Nat) (f : Aisle → Aisle) : (s.modAisle n f).startCause = s.startCause := rfl
@[simp] theorem State.modAisle_haltedBefore (s : State) (n : Nat) (f : Aisle → Aisle) : (s.modAisle n f).haltedBefore = s.haltedBefore := rfl
@[simp] theorem State.modAisle_aisles (s : State) (n : Nat) (f : Aisle → Aisle) : (s.modAisle n f).aisles = s.aisles.adjust n f := rfl
@[simp] theorem State.modAisle_stations (s : State) (n : Nat) (f : Aisle → Aisle) : (s.modAisle n f).stations = s.stations := rfl
@[simp] theorem State.modAisle_zones (s : State) (n : Nat) (f : Aisle → Aisle) : (s.modAisle n f).zones = s.zones := rfl
@[simp] theorem State.modAisle_concentrators (s : State) (n : Nat) (f : Aisle → Aisle) : (s.modAisle n f).concentrators = s.concentrators := rfl
@[simp] theorem State.modAisle_shutters (s : State) (n : Nat) (f : Aisle → Aisle) : (s.modAisle n f).shutters = s.shutters := rfl
@[simp] theorem State.modAisle_addresses (s : State) (n : Nat) (f : Aisle → Aisle) : (s.modAisle n f).addresses = s.addresses := rfl
@[simp] theorem State.modAisle_classes (s : State) (n : Nat) (f : Aisle → Aisle) : (s.modAisle n f).classes = s.classes := rfl
@[simp] theorem State.modAisle_settings (s : State) (n : Nat) (f : Aisle → Aisle) : (s.modAisle n f).settings = s.settings := rfl
@[simp] theorem State.modAisle_bins (s : State) (n : Nat) (f : Aisle → Aisle) : (s.modAisle n f).bins = s.bins := rfl
@[simp] theorem State.modAisle_items (s : State) (n : Nat) (f : Aisle → Aisle) : (s.modAisle n f).items = s.items := rfl
@[simp] theorem State.modAisle_requests (s : State) (n : Nat) (f : Aisle → Aisle) : (s.modAisle n f).requests = s.requests := rfl
@[simp] theorem State.modAisle_nextRequest (s : State) (n : Nat) (f : Aisle → Aisle) : (s.modAisle n f).nextRequest = s.nextRequest := rfl
@[simp] theorem State.modAisle_nextJob (s : State) (n : Nat) (f : Aisle → Aisle) : (s.modAisle n f).nextJob = s.nextJob := rfl
@[simp] theorem State.modAisle_faults (s : State) (n : Nat) (f : Aisle → Aisle) : (s.modAisle n f).faults = s.faults := rfl
@[simp] theorem State.modAisle_firePanel (s : State) (n : Nat) (f : Aisle → Aisle) : (s.modAisle n f).firePanel = s.firePanel := rfl
@[simp] theorem State.modAisle_keyLine (s : State) (n : Nat) (f : Aisle → Aisle) : (s.modAisle n f).keyLine = s.keyLine := rfl
@[simp] theorem State.modAisle_securedLine (s : State) (n : Nat) (f : Aisle → Aisle) : (s.modAisle n f).securedLine = s.securedLine := rfl
@[simp] theorem State.modAisle_link (s : State) (n : Nat) (f : Aisle → Aisle) : (s.modAisle n f).link = s.link := rfl
@[simp] theorem State.modAisle_pending (s : State) (n : Nat) (f : Aisle → Aisle) : (s.modAisle n f).pending = s.pending := rfl
@[simp] theorem State.modCrane_mode (s : State) (n : Nat) (f : Crane → Crane) : (s.modCrane n f).mode = s.mode := rfl
@[simp] theorem State.modCrane_startCause (s : State) (n : Nat) (f : Crane → Crane) : (s.modCrane n f).startCause = s.startCause := rfl
@[simp] theorem State.modCrane_haltedBefore (s : State) (n : Nat) (f : Crane → Crane) : (s.modCrane n f).haltedBefore = s.haltedBefore := rfl
@[simp] theorem State.modCrane_aisles (s : State) (n : Nat) (f : Crane → Crane) : (s.modCrane n f).aisles = s.aisles.adjust n fun x => { x with crane := f x.crane } := rfl
@[simp] theorem State.modCrane_stations (s : State) (n : Nat) (f : Crane → Crane) : (s.modCrane n f).stations = s.stations := rfl
@[simp] theorem State.modCrane_zones (s : State) (n : Nat) (f : Crane → Crane) : (s.modCrane n f).zones = s.zones := rfl
@[simp] theorem State.modCrane_concentrators (s : State) (n : Nat) (f : Crane → Crane) : (s.modCrane n f).concentrators = s.concentrators := rfl
@[simp] theorem State.modCrane_shutters (s : State) (n : Nat) (f : Crane → Crane) : (s.modCrane n f).shutters = s.shutters := rfl
@[simp] theorem State.modCrane_addresses (s : State) (n : Nat) (f : Crane → Crane) : (s.modCrane n f).addresses = s.addresses := rfl
@[simp] theorem State.modCrane_classes (s : State) (n : Nat) (f : Crane → Crane) : (s.modCrane n f).classes = s.classes := rfl
@[simp] theorem State.modCrane_settings (s : State) (n : Nat) (f : Crane → Crane) : (s.modCrane n f).settings = s.settings := rfl
@[simp] theorem State.modCrane_bins (s : State) (n : Nat) (f : Crane → Crane) : (s.modCrane n f).bins = s.bins := rfl
@[simp] theorem State.modCrane_items (s : State) (n : Nat) (f : Crane → Crane) : (s.modCrane n f).items = s.items := rfl
@[simp] theorem State.modCrane_requests (s : State) (n : Nat) (f : Crane → Crane) : (s.modCrane n f).requests = s.requests := rfl
@[simp] theorem State.modCrane_nextRequest (s : State) (n : Nat) (f : Crane → Crane) : (s.modCrane n f).nextRequest = s.nextRequest := rfl
@[simp] theorem State.modCrane_nextJob (s : State) (n : Nat) (f : Crane → Crane) : (s.modCrane n f).nextJob = s.nextJob := rfl
@[simp] theorem State.modCrane_faults (s : State) (n : Nat) (f : Crane → Crane) : (s.modCrane n f).faults = s.faults := rfl
@[simp] theorem State.modCrane_firePanel (s : State) (n : Nat) (f : Crane → Crane) : (s.modCrane n f).firePanel = s.firePanel := rfl
@[simp] theorem State.modCrane_keyLine (s : State) (n : Nat) (f : Crane → Crane) : (s.modCrane n f).keyLine = s.keyLine := rfl
@[simp] theorem State.modCrane_securedLine (s : State) (n : Nat) (f : Crane → Crane) : (s.modCrane n f).securedLine = s.securedLine := rfl
@[simp] theorem State.modCrane_link (s : State) (n : Nat) (f : Crane → Crane) : (s.modCrane n f).link = s.link := rfl
@[simp] theorem State.modCrane_pending (s : State) (n : Nat) (f : Crane → Crane) : (s.modCrane n f).pending = s.pending := rfl
@[simp] theorem State.modStation_mode (s : State) (n : Nat) (f : Station → Station) : (s.modStation n f).mode = s.mode := rfl
@[simp] theorem State.modStation_startCause (s : State) (n : Nat) (f : Station → Station) : (s.modStation n f).startCause = s.startCause := rfl
@[simp] theorem State.modStation_haltedBefore (s : State) (n : Nat) (f : Station → Station) : (s.modStation n f).haltedBefore = s.haltedBefore := rfl
@[simp] theorem State.modStation_aisles (s : State) (n : Nat) (f : Station → Station) : (s.modStation n f).aisles = s.aisles := rfl
@[simp] theorem State.modStation_stations (s : State) (n : Nat) (f : Station → Station) : (s.modStation n f).stations = s.stations.adjust n f := rfl
@[simp] theorem State.modStation_zones (s : State) (n : Nat) (f : Station → Station) : (s.modStation n f).zones = s.zones := rfl
@[simp] theorem State.modStation_concentrators (s : State) (n : Nat) (f : Station → Station) : (s.modStation n f).concentrators = s.concentrators := rfl
@[simp] theorem State.modStation_shutters (s : State) (n : Nat) (f : Station → Station) : (s.modStation n f).shutters = s.shutters := rfl
@[simp] theorem State.modStation_addresses (s : State) (n : Nat) (f : Station → Station) : (s.modStation n f).addresses = s.addresses := rfl
@[simp] theorem State.modStation_classes (s : State) (n : Nat) (f : Station → Station) : (s.modStation n f).classes = s.classes := rfl
@[simp] theorem State.modStation_settings (s : State) (n : Nat) (f : Station → Station) : (s.modStation n f).settings = s.settings := rfl
@[simp] theorem State.modStation_bins (s : State) (n : Nat) (f : Station → Station) : (s.modStation n f).bins = s.bins := rfl
@[simp] theorem State.modStation_items (s : State) (n : Nat) (f : Station → Station) : (s.modStation n f).items = s.items := rfl
@[simp] theorem State.modStation_requests (s : State) (n : Nat) (f : Station → Station) : (s.modStation n f).requests = s.requests := rfl
@[simp] theorem State.modStation_nextRequest (s : State) (n : Nat) (f : Station → Station) : (s.modStation n f).nextRequest = s.nextRequest := rfl
@[simp] theorem State.modStation_nextJob (s : State) (n : Nat) (f : Station → Station) : (s.modStation n f).nextJob = s.nextJob := rfl
@[simp] theorem State.modStation_faults (s : State) (n : Nat) (f : Station → Station) : (s.modStation n f).faults = s.faults := rfl
@[simp] theorem State.modStation_firePanel (s : State) (n : Nat) (f : Station → Station) : (s.modStation n f).firePanel = s.firePanel := rfl
@[simp] theorem State.modStation_keyLine (s : State) (n : Nat) (f : Station → Station) : (s.modStation n f).keyLine = s.keyLine := rfl
@[simp] theorem State.modStation_securedLine (s : State) (n : Nat) (f : Station → Station) : (s.modStation n f).securedLine = s.securedLine := rfl
@[simp] theorem State.modStation_link (s : State) (n : Nat) (f : Station → Station) : (s.modStation n f).link = s.link := rfl
@[simp] theorem State.modStation_pending (s : State) (n : Nat) (f : Station → Station) : (s.modStation n f).pending = s.pending := rfl
@[simp] theorem State.modZone_mode (s : State) (n : Nat) (f : Zone → Zone) : (s.modZone n f).mode = s.mode := rfl
@[simp] theorem State.modZone_startCause (s : State) (n : Nat) (f : Zone → Zone) : (s.modZone n f).startCause = s.startCause := rfl
@[simp] theorem State.modZone_haltedBefore (s : State) (n : Nat) (f : Zone → Zone) : (s.modZone n f).haltedBefore = s.haltedBefore := rfl
@[simp] theorem State.modZone_aisles (s : State) (n : Nat) (f : Zone → Zone) : (s.modZone n f).aisles = s.aisles := rfl
@[simp] theorem State.modZone_stations (s : State) (n : Nat) (f : Zone → Zone) : (s.modZone n f).stations = s.stations := rfl
@[simp] theorem State.modZone_zones (s : State) (n : Nat) (f : Zone → Zone) : (s.modZone n f).zones = s.zones.adjust n f := rfl
@[simp] theorem State.modZone_concentrators (s : State) (n : Nat) (f : Zone → Zone) : (s.modZone n f).concentrators = s.concentrators := rfl
@[simp] theorem State.modZone_shutters (s : State) (n : Nat) (f : Zone → Zone) : (s.modZone n f).shutters = s.shutters := rfl
@[simp] theorem State.modZone_addresses (s : State) (n : Nat) (f : Zone → Zone) : (s.modZone n f).addresses = s.addresses := rfl
@[simp] theorem State.modZone_classes (s : State) (n : Nat) (f : Zone → Zone) : (s.modZone n f).classes = s.classes := rfl
@[simp] theorem State.modZone_settings (s : State) (n : Nat) (f : Zone → Zone) : (s.modZone n f).settings = s.settings := rfl
@[simp] theorem State.modZone_bins (s : State) (n : Nat) (f : Zone → Zone) : (s.modZone n f).bins = s.bins := rfl
@[simp] theorem State.modZone_items (s : State) (n : Nat) (f : Zone → Zone) : (s.modZone n f).items = s.items := rfl
@[simp] theorem State.modZone_requests (s : State) (n : Nat) (f : Zone → Zone) : (s.modZone n f).requests = s.requests := rfl
@[simp] theorem State.modZone_nextRequest (s : State) (n : Nat) (f : Zone → Zone) : (s.modZone n f).nextRequest = s.nextRequest := rfl
@[simp] theorem State.modZone_nextJob (s : State) (n : Nat) (f : Zone → Zone) : (s.modZone n f).nextJob = s.nextJob := rfl
@[simp] theorem State.modZone_faults (s : State) (n : Nat) (f : Zone → Zone) : (s.modZone n f).faults = s.faults := rfl
@[simp] theorem State.modZone_firePanel (s : State) (n : Nat) (f : Zone → Zone) : (s.modZone n f).firePanel = s.firePanel := rfl
@[simp] theorem State.modZone_keyLine (s : State) (n : Nat) (f : Zone → Zone) : (s.modZone n f).keyLine = s.keyLine := rfl
@[simp] theorem State.modZone_securedLine (s : State) (n : Nat) (f : Zone → Zone) : (s.modZone n f).securedLine = s.securedLine := rfl
@[simp] theorem State.modZone_link (s : State) (n : Nat) (f : Zone → Zone) : (s.modZone n f).link = s.link := rfl
@[simp] theorem State.modZone_pending (s : State) (n : Nat) (f : Zone → Zone) : (s.modZone n f).pending = s.pending := rfl
@[simp] theorem State.modConcentrator_mode (s : State) (n : Nat) (f : Concentrator → Concentrator) : (s.modConcentrator n f).mode = s.mode := rfl
@[simp] theorem State.modConcentrator_startCause (s : State) (n : Nat) (f : Concentrator → Concentrator) : (s.modConcentrator n f).startCause = s.startCause := rfl
@[simp] theorem State.modConcentrator_haltedBefore (s : State) (n : Nat) (f : Concentrator → Concentrator) : (s.modConcentrator n f).haltedBefore = s.haltedBefore := rfl
@[simp] theorem State.modConcentrator_aisles (s : State) (n : Nat) (f : Concentrator → Concentrator) : (s.modConcentrator n f).aisles = s.aisles := rfl
@[simp] theorem State.modConcentrator_stations (s : State) (n : Nat) (f : Concentrator → Concentrator) : (s.modConcentrator n f).stations = s.stations := rfl
@[simp] theorem State.modConcentrator_zones (s : State) (n : Nat) (f : Concentrator → Concentrator) : (s.modConcentrator n f).zones = s.zones := rfl
@[simp] theorem State.modConcentrator_concentrators (s : State) (n : Nat) (f : Concentrator → Concentrator) : (s.modConcentrator n f).concentrators = s.concentrators.adjust n f := rfl
@[simp] theorem State.modConcentrator_shutters (s : State) (n : Nat) (f : Concentrator → Concentrator) : (s.modConcentrator n f).shutters = s.shutters := rfl
@[simp] theorem State.modConcentrator_addresses (s : State) (n : Nat) (f : Concentrator → Concentrator) : (s.modConcentrator n f).addresses = s.addresses := rfl
@[simp] theorem State.modConcentrator_classes (s : State) (n : Nat) (f : Concentrator → Concentrator) : (s.modConcentrator n f).classes = s.classes := rfl
@[simp] theorem State.modConcentrator_settings (s : State) (n : Nat) (f : Concentrator → Concentrator) : (s.modConcentrator n f).settings = s.settings := rfl
@[simp] theorem State.modConcentrator_bins (s : State) (n : Nat) (f : Concentrator → Concentrator) : (s.modConcentrator n f).bins = s.bins := rfl
@[simp] theorem State.modConcentrator_items (s : State) (n : Nat) (f : Concentrator → Concentrator) : (s.modConcentrator n f).items = s.items := rfl
@[simp] theorem State.modConcentrator_requests (s : State) (n : Nat) (f : Concentrator → Concentrator) : (s.modConcentrator n f).requests = s.requests := rfl
@[simp] theorem State.modConcentrator_nextRequest (s : State) (n : Nat) (f : Concentrator → Concentrator) : (s.modConcentrator n f).nextRequest = s.nextRequest := rfl
@[simp] theorem State.modConcentrator_nextJob (s : State) (n : Nat) (f : Concentrator → Concentrator) : (s.modConcentrator n f).nextJob = s.nextJob := rfl
@[simp] theorem State.modConcentrator_faults (s : State) (n : Nat) (f : Concentrator → Concentrator) : (s.modConcentrator n f).faults = s.faults := rfl
@[simp] theorem State.modConcentrator_firePanel (s : State) (n : Nat) (f : Concentrator → Concentrator) : (s.modConcentrator n f).firePanel = s.firePanel := rfl
@[simp] theorem State.modConcentrator_keyLine (s : State) (n : Nat) (f : Concentrator → Concentrator) : (s.modConcentrator n f).keyLine = s.keyLine := rfl
@[simp] theorem State.modConcentrator_securedLine (s : State) (n : Nat) (f : Concentrator → Concentrator) : (s.modConcentrator n f).securedLine = s.securedLine := rfl
@[simp] theorem State.modConcentrator_link (s : State) (n : Nat) (f : Concentrator → Concentrator) : (s.modConcentrator n f).link = s.link := rfl
@[simp] theorem State.modConcentrator_pending (s : State) (n : Nat) (f : Concentrator → Concentrator) : (s.modConcentrator n f).pending = s.pending := rfl
@[simp] theorem State.modShutter_mode (s : State) (n : Nat) (f : Shutter → Shutter) : (s.modShutter n f).mode = s.mode := rfl
@[simp] theorem State.modShutter_startCause (s : State) (n : Nat) (f : Shutter → Shutter) : (s.modShutter n f).startCause = s.startCause := rfl
@[simp] theorem State.modShutter_haltedBefore (s : State) (n : Nat) (f : Shutter → Shutter) : (s.modShutter n f).haltedBefore = s.haltedBefore := rfl
@[simp] theorem State.modShutter_aisles (s : State) (n : Nat) (f : Shutter → Shutter) : (s.modShutter n f).aisles = s.aisles := rfl
@[simp] theorem State.modShutter_stations (s : State) (n : Nat) (f : Shutter → Shutter) : (s.modShutter n f).stations = s.stations := rfl
@[simp] theorem State.modShutter_zones (s : State) (n : Nat) (f : Shutter → Shutter) : (s.modShutter n f).zones = s.zones := rfl
@[simp] theorem State.modShutter_concentrators (s : State) (n : Nat) (f : Shutter → Shutter) : (s.modShutter n f).concentrators = s.concentrators := rfl
@[simp] theorem State.modShutter_shutters (s : State) (n : Nat) (f : Shutter → Shutter) : (s.modShutter n f).shutters = s.shutters.adjust n f := rfl
@[simp] theorem State.modShutter_addresses (s : State) (n : Nat) (f : Shutter → Shutter) : (s.modShutter n f).addresses = s.addresses := rfl
@[simp] theorem State.modShutter_classes (s : State) (n : Nat) (f : Shutter → Shutter) : (s.modShutter n f).classes = s.classes := rfl
@[simp] theorem State.modShutter_settings (s : State) (n : Nat) (f : Shutter → Shutter) : (s.modShutter n f).settings = s.settings := rfl
@[simp] theorem State.modShutter_bins (s : State) (n : Nat) (f : Shutter → Shutter) : (s.modShutter n f).bins = s.bins := rfl
@[simp] theorem State.modShutter_items (s : State) (n : Nat) (f : Shutter → Shutter) : (s.modShutter n f).items = s.items := rfl
@[simp] theorem State.modShutter_requests (s : State) (n : Nat) (f : Shutter → Shutter) : (s.modShutter n f).requests = s.requests := rfl
@[simp] theorem State.modShutter_nextRequest (s : State) (n : Nat) (f : Shutter → Shutter) : (s.modShutter n f).nextRequest = s.nextRequest := rfl
@[simp] theorem State.modShutter_nextJob (s : State) (n : Nat) (f : Shutter → Shutter) : (s.modShutter n f).nextJob = s.nextJob := rfl
@[simp] theorem State.modShutter_faults (s : State) (n : Nat) (f : Shutter → Shutter) : (s.modShutter n f).faults = s.faults := rfl
@[simp] theorem State.modShutter_firePanel (s : State) (n : Nat) (f : Shutter → Shutter) : (s.modShutter n f).firePanel = s.firePanel := rfl
@[simp] theorem State.modShutter_keyLine (s : State) (n : Nat) (f : Shutter → Shutter) : (s.modShutter n f).keyLine = s.keyLine := rfl
@[simp] theorem State.modShutter_securedLine (s : State) (n : Nat) (f : Shutter → Shutter) : (s.modShutter n f).securedLine = s.securedLine := rfl
@[simp] theorem State.modShutter_link (s : State) (n : Nat) (f : Shutter → Shutter) : (s.modShutter n f).link = s.link := rfl
@[simp] theorem State.modShutter_pending (s : State) (n : Nat) (f : Shutter → Shutter) : (s.modShutter n f).pending = s.pending := rfl
@[simp] theorem State.modBin_mode (s : State) (n : Nat) (f : Bin → Bin) : (s.modBin n f).mode = s.mode := rfl
@[simp] theorem State.modBin_startCause (s : State) (n : Nat) (f : Bin → Bin) : (s.modBin n f).startCause = s.startCause := rfl
@[simp] theorem State.modBin_haltedBefore (s : State) (n : Nat) (f : Bin → Bin) : (s.modBin n f).haltedBefore = s.haltedBefore := rfl
@[simp] theorem State.modBin_aisles (s : State) (n : Nat) (f : Bin → Bin) : (s.modBin n f).aisles = s.aisles := rfl
@[simp] theorem State.modBin_stations (s : State) (n : Nat) (f : Bin → Bin) : (s.modBin n f).stations = s.stations := rfl
@[simp] theorem State.modBin_zones (s : State) (n : Nat) (f : Bin → Bin) : (s.modBin n f).zones = s.zones := rfl
@[simp] theorem State.modBin_concentrators (s : State) (n : Nat) (f : Bin → Bin) : (s.modBin n f).concentrators = s.concentrators := rfl
@[simp] theorem State.modBin_shutters (s : State) (n : Nat) (f : Bin → Bin) : (s.modBin n f).shutters = s.shutters := rfl
@[simp] theorem State.modBin_addresses (s : State) (n : Nat) (f : Bin → Bin) : (s.modBin n f).addresses = s.addresses := rfl
@[simp] theorem State.modBin_classes (s : State) (n : Nat) (f : Bin → Bin) : (s.modBin n f).classes = s.classes := rfl
@[simp] theorem State.modBin_settings (s : State) (n : Nat) (f : Bin → Bin) : (s.modBin n f).settings = s.settings := rfl
@[simp] theorem State.modBin_bins (s : State) (n : Nat) (f : Bin → Bin) : (s.modBin n f).bins = s.bins.adjust n f := rfl
@[simp] theorem State.modBin_items (s : State) (n : Nat) (f : Bin → Bin) : (s.modBin n f).items = s.items := rfl
@[simp] theorem State.modBin_requests (s : State) (n : Nat) (f : Bin → Bin) : (s.modBin n f).requests = s.requests := rfl
@[simp] theorem State.modBin_nextRequest (s : State) (n : Nat) (f : Bin → Bin) : (s.modBin n f).nextRequest = s.nextRequest := rfl
@[simp] theorem State.modBin_nextJob (s : State) (n : Nat) (f : Bin → Bin) : (s.modBin n f).nextJob = s.nextJob := rfl
@[simp] theorem State.modBin_faults (s : State) (n : Nat) (f : Bin → Bin) : (s.modBin n f).faults = s.faults := rfl
@[simp] theorem State.modBin_firePanel (s : State) (n : Nat) (f : Bin → Bin) : (s.modBin n f).firePanel = s.firePanel := rfl
@[simp] theorem State.modBin_keyLine (s : State) (n : Nat) (f : Bin → Bin) : (s.modBin n f).keyLine = s.keyLine := rfl
@[simp] theorem State.modBin_securedLine (s : State) (n : Nat) (f : Bin → Bin) : (s.modBin n f).securedLine = s.securedLine := rfl
@[simp] theorem State.modBin_link (s : State) (n : Nat) (f : Bin → Bin) : (s.modBin n f).link = s.link := rfl
@[simp] theorem State.modBin_pending (s : State) (n : Nat) (f : Bin → Bin) : (s.modBin n f).pending = s.pending := rfl
@[simp] theorem State.modItem_mode (s : State) (n : Nat) (f : Item → Item) : (s.modItem n f).mode = s.mode := rfl
@[simp] theorem State.modItem_startCause (s : State) (n : Nat) (f : Item → Item) : (s.modItem n f).startCause = s.startCause := rfl
@[simp] theorem State.modItem_haltedBefore (s : State) (n : Nat) (f : Item → Item) : (s.modItem n f).haltedBefore = s.haltedBefore := rfl
@[simp] theorem State.modItem_aisles (s : State) (n : Nat) (f : Item → Item) : (s.modItem n f).aisles = s.aisles := rfl
@[simp] theorem State.modItem_stations (s : State) (n : Nat) (f : Item → Item) : (s.modItem n f).stations = s.stations := rfl
@[simp] theorem State.modItem_zones (s : State) (n : Nat) (f : Item → Item) : (s.modItem n f).zones = s.zones := rfl
@[simp] theorem State.modItem_concentrators (s : State) (n : Nat) (f : Item → Item) : (s.modItem n f).concentrators = s.concentrators := rfl
@[simp] theorem State.modItem_shutters (s : State) (n : Nat) (f : Item → Item) : (s.modItem n f).shutters = s.shutters := rfl
@[simp] theorem State.modItem_addresses (s : State) (n : Nat) (f : Item → Item) : (s.modItem n f).addresses = s.addresses := rfl
@[simp] theorem State.modItem_classes (s : State) (n : Nat) (f : Item → Item) : (s.modItem n f).classes = s.classes := rfl
@[simp] theorem State.modItem_settings (s : State) (n : Nat) (f : Item → Item) : (s.modItem n f).settings = s.settings := rfl
@[simp] theorem State.modItem_bins (s : State) (n : Nat) (f : Item → Item) : (s.modItem n f).bins = s.bins := rfl
@[simp] theorem State.modItem_items (s : State) (n : Nat) (f : Item → Item) : (s.modItem n f).items = s.items.adjust n f := rfl
@[simp] theorem State.modItem_requests (s : State) (n : Nat) (f : Item → Item) : (s.modItem n f).requests = s.requests := rfl
@[simp] theorem State.modItem_nextRequest (s : State) (n : Nat) (f : Item → Item) : (s.modItem n f).nextRequest = s.nextRequest := rfl
@[simp] theorem State.modItem_nextJob (s : State) (n : Nat) (f : Item → Item) : (s.modItem n f).nextJob = s.nextJob := rfl
@[simp] theorem State.modItem_faults (s : State) (n : Nat) (f : Item → Item) : (s.modItem n f).faults = s.faults := rfl
@[simp] theorem State.modItem_firePanel (s : State) (n : Nat) (f : Item → Item) : (s.modItem n f).firePanel = s.firePanel := rfl
@[simp] theorem State.modItem_keyLine (s : State) (n : Nat) (f : Item → Item) : (s.modItem n f).keyLine = s.keyLine := rfl
@[simp] theorem State.modItem_securedLine (s : State) (n : Nat) (f : Item → Item) : (s.modItem n f).securedLine = s.securedLine := rfl
@[simp] theorem State.modItem_link (s : State) (n : Nat) (f : Item → Item) : (s.modItem n f).link = s.link := rfl
@[simp] theorem State.modItem_pending (s : State) (n : Nat) (f : Item → Item) : (s.modItem n f).pending = s.pending := rfl

/-! ### Reports, telegrams and replies -/

@[simp] theorem Link.joinRoutine_replies (l : Link) (e : RoutineEntry) : (l.joinRoutine e).replies = l.replies := by
  unfold Link.joinRoutine; split <;> rfl
@[simp] theorem Link.joinRoutine_waiting (l : Link) (e : RoutineEntry) : (l.joinRoutine e).waiting = l.waiting := by
  unfold Link.joinRoutine; split <;> rfl
@[simp] theorem Link.joinRoutine_restartPending (l : Link) (e : RoutineEntry) :
    (l.joinRoutine e).restartPending = l.restartPending := by unfold Link.joinRoutine; split <;> rfl
@[simp] theorem Link.joinRoutine_sent (l : Link) (e : RoutineEntry) : (l.joinRoutine e).sent = l.sent := by
  unfold Link.joinRoutine; split <;> rfl
@[simp] theorem Link.joinRoutine_field (l : Link) (e : RoutineEntry) : (l.joinRoutine e).field = l.field := by
  unfold Link.joinRoutine; split <;> rfl
@[simp] theorem Link.joinRoutine_urgent (l : Link) (e : RoutineEntry) : (l.joinRoutine e).urgent = l.urgent := by
  unfold Link.joinRoutine; split <;> rfl
@[simp] theorem Link.joinRoutine_urgentOverrun (l : Link) (e : RoutineEntry) :
    (l.joinRoutine e).urgentOverrun = l.urgentOverrun := by unfold Link.joinRoutine; split <;> rfl

@[simp] theorem Link.post_replies (l : Link) (c : ReportClass) (r : Report) : (l.post c r).replies = l.replies := by
  cases c <;> simp only [Link.post, Link.joinUrgent, Link.joinRoutine] <;> split <;> rfl
@[simp] theorem Link.post_waiting (l : Link) (c : ReportClass) (r : Report) : (l.post c r).waiting = l.waiting := by
  cases c <;> simp only [Link.post, Link.joinUrgent, Link.joinRoutine] <;> split <;> rfl
@[simp] theorem Link.post_restartPending (l : Link) (c : ReportClass) (r : Report) : (l.post c r).restartPending = l.restartPending := by
  cases c <;> simp only [Link.post, Link.joinUrgent, Link.joinRoutine] <;> split <;> rfl
@[simp] theorem Link.post_sent (l : Link) (c : ReportClass) (r : Report) : (l.post c r).sent = l.sent := by
  cases c <;> simp only [Link.post, Link.joinUrgent, Link.joinRoutine] <;> split <;> rfl
@[simp] theorem Link.post_field (l : Link) (c : ReportClass) (r : Report) : (l.post c r).field = l.field := by
  cases c <;> simp only [Link.post, Link.joinUrgent, Link.joinRoutine] <;> split <;> rfl
@[simp] theorem Link.sendTo_replies (l : Link) (ad : Option Nat) (m : FieldTelegram) : (l.sendTo ad m).replies = l.replies := by
  cases ad <;> rfl
@[simp] theorem Link.sendTo_waiting (l : Link) (ad : Option Nat) (m : FieldTelegram) : (l.sendTo ad m).waiting = l.waiting := by
  cases ad <;> rfl
@[simp] theorem Link.sendTo_restartPending (l : Link) (ad : Option Nat) (m : FieldTelegram) : (l.sendTo ad m).restartPending = l.restartPending := by
  cases ad <;> rfl
@[simp] theorem Link.sendTo_sent (l : Link) (ad : Option Nat) (m : FieldTelegram) : (l.sendTo ad m).sent = l.sent := by
  cases ad <;> rfl
@[simp] theorem Link.sendTo_urgent (l : Link) (ad : Option Nat) (m : FieldTelegram) : (l.sendTo ad m).urgent = l.urgent := by
  cases ad <;> rfl
@[simp] theorem Link.sendTo_routine (l : Link) (ad : Option Nat) (m : FieldTelegram) : (l.sendTo ad m).routine = l.routine := by
  cases ad <;> rfl
@[simp] theorem Link.sendTo_urgentOverrun (l : Link) (ad : Option Nat) (m : FieldTelegram) : (l.sendTo ad m).urgentOverrun = l.urgentOverrun := by
  cases ad <;> rfl
@[simp] theorem Link.sendTo_routineOverrun (l : Link) (ad : Option Nat) (m : FieldTelegram) : (l.sendTo ad m).routineOverrun = l.routineOverrun := by
  cases ad <;> rfl
@[simp] theorem State.post_mode (s : State) (r : Report) : (s.post r).mode = s.mode := rfl
@[simp] theorem State.post_startCause (s : State) (r : Report) : (s.post r).startCause = s.startCause := rfl
@[simp] theorem State.post_haltedBefore (s : State) (r : Report) : (s.post r).haltedBefore = s.haltedBefore := rfl
@[simp] theorem State.post_aisles (s : State) (r : Report) : (s.post r).aisles = s.aisles := rfl
@[simp] theorem State.post_stations (s : State) (r : Report) : (s.post r).stations = s.stations := rfl
@[simp] theorem State.post_zones (s : State) (r : Report) : (s.post r).zones = s.zones := rfl
@[simp] theorem State.post_concentrators (s : State) (r : Report) : (s.post r).concentrators = s.concentrators := rfl
@[simp] theorem State.post_shutters (s : State) (r : Report) : (s.post r).shutters = s.shutters := rfl
@[simp] theorem State.post_addresses (s : State) (r : Report) : (s.post r).addresses = s.addresses := rfl
@[simp] theorem State.post_classes (s : State) (r : Report) : (s.post r).classes = s.classes := rfl
@[simp] theorem State.post_settings (s : State) (r : Report) : (s.post r).settings = s.settings := rfl
@[simp] theorem State.post_bins (s : State) (r : Report) : (s.post r).bins = s.bins := rfl
@[simp] theorem State.post_items (s : State) (r : Report) : (s.post r).items = s.items := rfl
@[simp] theorem State.post_requests (s : State) (r : Report) : (s.post r).requests = s.requests := rfl
@[simp] theorem State.post_nextRequest (s : State) (r : Report) : (s.post r).nextRequest = s.nextRequest := rfl
@[simp] theorem State.post_nextJob (s : State) (r : Report) : (s.post r).nextJob = s.nextJob := rfl
@[simp] theorem State.post_faults (s : State) (r : Report) : (s.post r).faults = s.faults := rfl
@[simp] theorem State.post_firePanel (s : State) (r : Report) : (s.post r).firePanel = s.firePanel := rfl
@[simp] theorem State.post_keyLine (s : State) (r : Report) : (s.post r).keyLine = s.keyLine := rfl
@[simp] theorem State.post_securedLine (s : State) (r : Report) : (s.post r).securedLine = s.securedLine := rfl
@[simp] theorem State.post_pending (s : State) (r : Report) : (s.post r).pending = s.pending := rfl
@[simp] theorem State.post_link_replies (s : State) (r : Report) : (s.post r).link.replies = s.link.replies := by simp [State.post]
@[simp] theorem State.post_link_waiting (s : State) (r : Report) : (s.post r).link.waiting = s.link.waiting := by simp [State.post]
@[simp] theorem State.post_link_restartPending (s : State) (r : Report) : (s.post r).link.restartPending = s.link.restartPending := by simp [State.post]
@[simp] theorem State.post_link_sent (s : State) (r : Report) : (s.post r).link.sent = s.link.sent := by simp [State.post]
@[simp] theorem State.post_link_field (s : State) (r : Report) : (s.post r).link.field = s.link.field := by simp [State.post]
@[simp] theorem State.report_mode (s : State) (k : ReportKind) (u : Subject) (c : Option Code) : (s.report k u c).mode = s.mode := rfl
@[simp] theorem State.report_startCause (s : State) (k : ReportKind) (u : Subject) (c : Option Code) : (s.report k u c).startCause = s.startCause := rfl
@[simp] theorem State.report_haltedBefore (s : State) (k : ReportKind) (u : Subject) (c : Option Code) : (s.report k u c).haltedBefore = s.haltedBefore := rfl
@[simp] theorem State.report_aisles (s : State) (k : ReportKind) (u : Subject) (c : Option Code) : (s.report k u c).aisles = s.aisles := rfl
@[simp] theorem State.report_stations (s : State) (k : ReportKind) (u : Subject) (c : Option Code) : (s.report k u c).stations = s.stations := rfl
@[simp] theorem State.report_zones (s : State) (k : ReportKind) (u : Subject) (c : Option Code) : (s.report k u c).zones = s.zones := rfl
@[simp] theorem State.report_concentrators (s : State) (k : ReportKind) (u : Subject) (c : Option Code) : (s.report k u c).concentrators = s.concentrators := rfl
@[simp] theorem State.report_shutters (s : State) (k : ReportKind) (u : Subject) (c : Option Code) : (s.report k u c).shutters = s.shutters := rfl
@[simp] theorem State.report_addresses (s : State) (k : ReportKind) (u : Subject) (c : Option Code) : (s.report k u c).addresses = s.addresses := rfl
@[simp] theorem State.report_classes (s : State) (k : ReportKind) (u : Subject) (c : Option Code) : (s.report k u c).classes = s.classes := rfl
@[simp] theorem State.report_settings (s : State) (k : ReportKind) (u : Subject) (c : Option Code) : (s.report k u c).settings = s.settings := rfl
@[simp] theorem State.report_bins (s : State) (k : ReportKind) (u : Subject) (c : Option Code) : (s.report k u c).bins = s.bins := rfl
@[simp] theorem State.report_items (s : State) (k : ReportKind) (u : Subject) (c : Option Code) : (s.report k u c).items = s.items := rfl
@[simp] theorem State.report_requests (s : State) (k : ReportKind) (u : Subject) (c : Option Code) : (s.report k u c).requests = s.requests := rfl
@[simp] theorem State.report_nextRequest (s : State) (k : ReportKind) (u : Subject) (c : Option Code) : (s.report k u c).nextRequest = s.nextRequest := rfl
@[simp] theorem State.report_nextJob (s : State) (k : ReportKind) (u : Subject) (c : Option Code) : (s.report k u c).nextJob = s.nextJob := rfl
@[simp] theorem State.report_faults (s : State) (k : ReportKind) (u : Subject) (c : Option Code) : (s.report k u c).faults = s.faults := rfl
@[simp] theorem State.report_firePanel (s : State) (k : ReportKind) (u : Subject) (c : Option Code) : (s.report k u c).firePanel = s.firePanel := rfl
@[simp] theorem State.report_keyLine (s : State) (k : ReportKind) (u : Subject) (c : Option Code) : (s.report k u c).keyLine = s.keyLine := rfl
@[simp] theorem State.report_securedLine (s : State) (k : ReportKind) (u : Subject) (c : Option Code) : (s.report k u c).securedLine = s.securedLine := rfl
@[simp] theorem State.report_pending (s : State) (k : ReportKind) (u : Subject) (c : Option Code) : (s.report k u c).pending = s.pending := rfl
@[simp] theorem State.report_link_replies (s : State) (k : ReportKind) (u : Subject) (c : Option Code) : (s.report k u c).link.replies = s.link.replies := by simp [State.report]
@[simp] theorem State.report_link_waiting (s : State) (k : ReportKind) (u : Subject) (c : Option Code) : (s.report k u c).link.waiting = s.link.waiting := by simp [State.report]
@[simp] theorem State.report_link_restartPending (s : State) (k : ReportKind) (u : Subject) (c : Option Code) : (s.report k u c).link.restartPending = s.link.restartPending := by simp [State.report]
@[simp] theorem State.report_link_sent (s : State) (k : ReportKind) (u : Subject) (c : Option Code) : (s.report k u c).link.sent = s.link.sent := by simp [State.report]
@[simp] theorem State.report_link_field (s : State) (k : ReportKind) (u : Subject) (c : Option Code) : (s.report k u c).link.field = s.link.field := by simp [State.report]
@[simp] theorem State.passUp_mode (s : State) (n : Nat) (l : List Byte) : (s.passUp n l).mode = s.mode := rfl
@[simp] theorem State.passUp_startCause (s : State) (n : Nat) (l : List Byte) : (s.passUp n l).startCause = s.startCause := rfl
@[simp] theorem State.passUp_haltedBefore (s : State) (n : Nat) (l : List Byte) : (s.passUp n l).haltedBefore = s.haltedBefore := rfl
@[simp] theorem State.passUp_aisles (s : State) (n : Nat) (l : List Byte) : (s.passUp n l).aisles = s.aisles := rfl
@[simp] theorem State.passUp_stations (s : State) (n : Nat) (l : List Byte) : (s.passUp n l).stations = s.stations := rfl
@[simp] theorem State.passUp_zones (s : State) (n : Nat) (l : List Byte) : (s.passUp n l).zones = s.zones := rfl
@[simp] theorem State.passUp_concentrators (s : State) (n : Nat) (l : List Byte) : (s.passUp n l).concentrators = s.concentrators := rfl
@[simp] theorem State.passUp_shutters (s : State) (n : Nat) (l : List Byte) : (s.passUp n l).shutters = s.shutters := rfl
@[simp] theorem State.passUp_addresses (s : State) (n : Nat) (l : List Byte) : (s.passUp n l).addresses = s.addresses := rfl
@[simp] theorem State.passUp_classes (s : State) (n : Nat) (l : List Byte) : (s.passUp n l).classes = s.classes := rfl
@[simp] theorem State.passUp_settings (s : State) (n : Nat) (l : List Byte) : (s.passUp n l).settings = s.settings := rfl
@[simp] theorem State.passUp_bins (s : State) (n : Nat) (l : List Byte) : (s.passUp n l).bins = s.bins := rfl
@[simp] theorem State.passUp_items (s : State) (n : Nat) (l : List Byte) : (s.passUp n l).items = s.items := rfl
@[simp] theorem State.passUp_requests (s : State) (n : Nat) (l : List Byte) : (s.passUp n l).requests = s.requests := rfl
@[simp] theorem State.passUp_nextRequest (s : State) (n : Nat) (l : List Byte) : (s.passUp n l).nextRequest = s.nextRequest := rfl
@[simp] theorem State.passUp_nextJob (s : State) (n : Nat) (l : List Byte) : (s.passUp n l).nextJob = s.nextJob := rfl
@[simp] theorem State.passUp_faults (s : State) (n : Nat) (l : List Byte) : (s.passUp n l).faults = s.faults := rfl
@[simp] theorem State.passUp_firePanel (s : State) (n : Nat) (l : List Byte) : (s.passUp n l).firePanel = s.firePanel := rfl
@[simp] theorem State.passUp_keyLine (s : State) (n : Nat) (l : List Byte) : (s.passUp n l).keyLine = s.keyLine := rfl
@[simp] theorem State.passUp_securedLine (s : State) (n : Nat) (l : List Byte) : (s.passUp n l).securedLine = s.securedLine := rfl
@[simp] theorem State.passUp_pending (s : State) (n : Nat) (l : List Byte) : (s.passUp n l).pending = s.pending := rfl
@[simp] theorem State.passUp_link_replies (s : State) (n : Nat) (l : List Byte) : (s.passUp n l).link.replies = s.link.replies := by simp [State.passUp]
@[simp] theorem State.passUp_link_waiting (s : State) (n : Nat) (l : List Byte) : (s.passUp n l).link.waiting = s.link.waiting := by simp [State.passUp]
@[simp] theorem State.passUp_link_restartPending (s : State) (n : Nat) (l : List Byte) : (s.passUp n l).link.restartPending = s.link.restartPending := by simp [State.passUp]
@[simp] theorem State.passUp_link_sent (s : State) (n : Nat) (l : List Byte) : (s.passUp n l).link.sent = s.link.sent := by simp [State.passUp]
@[simp] theorem State.passUp_link_field (s : State) (n : Nat) (l : List Byte) : (s.passUp n l).link.field = s.link.field := by simp [State.passUp]
@[simp] theorem State.passUp_link_urgent (s : State) (n : Nat) (l : List Byte) : (s.passUp n l).link.urgent = s.link.urgent := by simp [State.passUp]
@[simp] theorem State.passUp_link_urgentOverrun (s : State) (n : Nat) (l : List Byte) : (s.passUp n l).link.urgentOverrun = s.link.urgentOverrun := by simp [State.passUp]
@[simp] theorem State.send_mode (s : State) (ad : Option Nat) (m : FieldTelegram) : (s.send ad m).mode = s.mode := rfl
@[simp] theorem State.send_startCause (s : State) (ad : Option Nat) (m : FieldTelegram) : (s.send ad m).startCause = s.startCause := rfl
@[simp] theorem State.send_haltedBefore (s : State) (ad : Option Nat) (m : FieldTelegram) : (s.send ad m).haltedBefore = s.haltedBefore := rfl
@[simp] theorem State.send_aisles (s : State) (ad : Option Nat) (m : FieldTelegram) : (s.send ad m).aisles = s.aisles := rfl
@[simp] theorem State.send_stations (s : State) (ad : Option Nat) (m : FieldTelegram) : (s.send ad m).stations = s.stations := rfl
@[simp] theorem State.send_zones (s : State) (ad : Option Nat) (m : FieldTelegram) : (s.send ad m).zones = s.zones := rfl
@[simp] theorem State.send_concentrators (s : State) (ad : Option Nat) (m : FieldTelegram) : (s.send ad m).concentrators = s.concentrators := rfl
@[simp] theorem State.send_shutters (s : State) (ad : Option Nat) (m : FieldTelegram) : (s.send ad m).shutters = s.shutters := rfl
@[simp] theorem State.send_addresses (s : State) (ad : Option Nat) (m : FieldTelegram) : (s.send ad m).addresses = s.addresses := rfl
@[simp] theorem State.send_classes (s : State) (ad : Option Nat) (m : FieldTelegram) : (s.send ad m).classes = s.classes := rfl
@[simp] theorem State.send_settings (s : State) (ad : Option Nat) (m : FieldTelegram) : (s.send ad m).settings = s.settings := rfl
@[simp] theorem State.send_bins (s : State) (ad : Option Nat) (m : FieldTelegram) : (s.send ad m).bins = s.bins := rfl
@[simp] theorem State.send_items (s : State) (ad : Option Nat) (m : FieldTelegram) : (s.send ad m).items = s.items := rfl
@[simp] theorem State.send_requests (s : State) (ad : Option Nat) (m : FieldTelegram) : (s.send ad m).requests = s.requests := rfl
@[simp] theorem State.send_nextRequest (s : State) (ad : Option Nat) (m : FieldTelegram) : (s.send ad m).nextRequest = s.nextRequest := rfl
@[simp] theorem State.send_nextJob (s : State) (ad : Option Nat) (m : FieldTelegram) : (s.send ad m).nextJob = s.nextJob := rfl
@[simp] theorem State.send_faults (s : State) (ad : Option Nat) (m : FieldTelegram) : (s.send ad m).faults = s.faults := rfl
@[simp] theorem State.send_firePanel (s : State) (ad : Option Nat) (m : FieldTelegram) : (s.send ad m).firePanel = s.firePanel := rfl
@[simp] theorem State.send_keyLine (s : State) (ad : Option Nat) (m : FieldTelegram) : (s.send ad m).keyLine = s.keyLine := rfl
@[simp] theorem State.send_securedLine (s : State) (ad : Option Nat) (m : FieldTelegram) : (s.send ad m).securedLine = s.securedLine := rfl
@[simp] theorem State.send_pending (s : State) (ad : Option Nat) (m : FieldTelegram) : (s.send ad m).pending = s.pending := rfl
@[simp] theorem State.send_link_replies (s : State) (ad : Option Nat) (m : FieldTelegram) : (s.send ad m).link.replies = s.link.replies := by simp [State.send]
@[simp] theorem State.send_link_waiting (s : State) (ad : Option Nat) (m : FieldTelegram) : (s.send ad m).link.waiting = s.link.waiting := by simp [State.send]
@[simp] theorem State.send_link_restartPending (s : State) (ad : Option Nat) (m : FieldTelegram) : (s.send ad m).link.restartPending = s.link.restartPending := by simp [State.send]
@[simp] theorem State.send_link_sent (s : State) (ad : Option Nat) (m : FieldTelegram) : (s.send ad m).link.sent = s.link.sent := by simp [State.send]
@[simp] theorem State.send_link_urgent (s : State) (ad : Option Nat) (m : FieldTelegram) : (s.send ad m).link.urgent = s.link.urgent := by simp [State.send]
@[simp] theorem State.send_link_routine (s : State) (ad : Option Nat) (m : FieldTelegram) : (s.send ad m).link.routine = s.link.routine := by simp [State.send]
@[simp] theorem State.send_link_urgentOverrun (s : State) (ad : Option Nat) (m : FieldTelegram) : (s.send ad m).link.urgentOverrun = s.link.urgentOverrun := by simp [State.send]
@[simp] theorem State.send_link_routineOverrun (s : State) (ad : Option Nat) (m : FieldTelegram) : (s.send ad m).link.routineOverrun = s.link.routineOverrun := by simp [State.send]
@[simp] theorem State.sendCrane_mode (s : State) (a : Nat) (m : FieldTelegram) : (s.sendCrane a m).mode = s.mode := rfl
@[simp] theorem State.sendCrane_startCause (s : State) (a : Nat) (m : FieldTelegram) : (s.sendCrane a m).startCause = s.startCause := rfl
@[simp] theorem State.sendCrane_haltedBefore (s : State) (a : Nat) (m : FieldTelegram) : (s.sendCrane a m).haltedBefore = s.haltedBefore := rfl
@[simp] theorem State.sendCrane_aisles (s : State) (a : Nat) (m : FieldTelegram) : (s.sendCrane a m).aisles = s.aisles := rfl
@[simp] theorem State.sendCrane_stations (s : State) (a : Nat) (m : FieldTelegram) : (s.sendCrane a m).stations = s.stations := rfl
@[simp] theorem State.sendCrane_zones (s : State) (a : Nat) (m : FieldTelegram) : (s.sendCrane a m).zones = s.zones := rfl
@[simp] theorem State.sendCrane_concentrators (s : State) (a : Nat) (m : FieldTelegram) : (s.sendCrane a m).concentrators = s.concentrators := rfl
@[simp] theorem State.sendCrane_shutters (s : State) (a : Nat) (m : FieldTelegram) : (s.sendCrane a m).shutters = s.shutters := rfl
@[simp] theorem State.sendCrane_addresses (s : State) (a : Nat) (m : FieldTelegram) : (s.sendCrane a m).addresses = s.addresses := rfl
@[simp] theorem State.sendCrane_classes (s : State) (a : Nat) (m : FieldTelegram) : (s.sendCrane a m).classes = s.classes := rfl
@[simp] theorem State.sendCrane_settings (s : State) (a : Nat) (m : FieldTelegram) : (s.sendCrane a m).settings = s.settings := rfl
@[simp] theorem State.sendCrane_bins (s : State) (a : Nat) (m : FieldTelegram) : (s.sendCrane a m).bins = s.bins := rfl
@[simp] theorem State.sendCrane_items (s : State) (a : Nat) (m : FieldTelegram) : (s.sendCrane a m).items = s.items := rfl
@[simp] theorem State.sendCrane_requests (s : State) (a : Nat) (m : FieldTelegram) : (s.sendCrane a m).requests = s.requests := rfl
@[simp] theorem State.sendCrane_nextRequest (s : State) (a : Nat) (m : FieldTelegram) : (s.sendCrane a m).nextRequest = s.nextRequest := rfl
@[simp] theorem State.sendCrane_nextJob (s : State) (a : Nat) (m : FieldTelegram) : (s.sendCrane a m).nextJob = s.nextJob := rfl
@[simp] theorem State.sendCrane_faults (s : State) (a : Nat) (m : FieldTelegram) : (s.sendCrane a m).faults = s.faults := rfl
@[simp] theorem State.sendCrane_firePanel (s : State) (a : Nat) (m : FieldTelegram) : (s.sendCrane a m).firePanel = s.firePanel := rfl
@[simp] theorem State.sendCrane_keyLine (s : State) (a : Nat) (m : FieldTelegram) : (s.sendCrane a m).keyLine = s.keyLine := rfl
@[simp] theorem State.sendCrane_securedLine (s : State) (a : Nat) (m : FieldTelegram) : (s.sendCrane a m).securedLine = s.securedLine := rfl
@[simp] theorem State.sendCrane_pending (s : State) (a : Nat) (m : FieldTelegram) : (s.sendCrane a m).pending = s.pending := rfl
@[simp] theorem State.sendCrane_link_replies (s : State) (a : Nat) (m : FieldTelegram) : (s.sendCrane a m).link.replies = s.link.replies := by simp [State.sendCrane]
@[simp] theorem State.sendCrane_link_waiting (s : State) (a : Nat) (m : FieldTelegram) : (s.sendCrane a m).link.waiting = s.link.waiting := by simp [State.sendCrane]
@[simp] theorem State.sendCrane_link_restartPending (s : State) (a : Nat) (m : FieldTelegram) : (s.sendCrane a m).link.restartPending = s.link.restartPending := by simp [State.sendCrane]
@[simp] theorem State.sendCrane_link_sent (s : State) (a : Nat) (m : FieldTelegram) : (s.sendCrane a m).link.sent = s.link.sent := by simp [State.sendCrane]
@[simp] theorem State.sendCrane_link_urgent (s : State) (a : Nat) (m : FieldTelegram) : (s.sendCrane a m).link.urgent = s.link.urgent := by simp [State.sendCrane]
@[simp] theorem State.sendCrane_link_routine (s : State) (a : Nat) (m : FieldTelegram) : (s.sendCrane a m).link.routine = s.link.routine := by simp [State.sendCrane]
@[simp] theorem State.sendCrane_link_urgentOverrun (s : State) (a : Nat) (m : FieldTelegram) : (s.sendCrane a m).link.urgentOverrun = s.link.urgentOverrun := by simp [State.sendCrane]
@[simp] theorem State.sendCrane_link_routineOverrun (s : State) (a : Nat) (m : FieldTelegram) : (s.sendCrane a m).link.routineOverrun = s.link.routineOverrun := by simp [State.sendCrane]
@[simp] theorem State.sendStation_mode (s : State) (n : Nat) (m : FieldTelegram) : (s.sendStation n m).mode = s.mode := rfl
@[simp] theorem State.sendStation_startCause (s : State) (n : Nat) (m : FieldTelegram) : (s.sendStation n m).startCause = s.startCause := rfl
@[simp] theorem State.sendStation_haltedBefore (s : State) (n : Nat) (m : FieldTelegram) : (s.sendStation n m).haltedBefore = s.haltedBefore := rfl
@[simp] theorem State.sendStation_aisles (s : State) (n : Nat) (m : FieldTelegram) : (s.sendStation n m).aisles = s.aisles := rfl
@[simp] theorem State.sendStation_stations (s : State) (n : Nat) (m : FieldTelegram) : (s.sendStation n m).stations = s.stations := rfl
@[simp] theorem State.sendStation_zones (s : State) (n : Nat) (m : FieldTelegram) : (s.sendStation n m).zones = s.zones := rfl
@[simp] theorem State.sendStation_concentrators (s : State) (n : Nat) (m : FieldTelegram) : (s.sendStation n m).concentrators = s.concentrators := rfl
@[simp] theorem State.sendStation_shutters (s : State) (n : Nat) (m : FieldTelegram) : (s.sendStation n m).shutters = s.shutters := rfl
@[simp] theorem State.sendStation_addresses (s : State) (n : Nat) (m : FieldTelegram) : (s.sendStation n m).addresses = s.addresses := rfl
@[simp] theorem State.sendStation_classes (s : State) (n : Nat) (m : FieldTelegram) : (s.sendStation n m).classes = s.classes := rfl
@[simp] theorem State.sendStation_settings (s : State) (n : Nat) (m : FieldTelegram) : (s.sendStation n m).settings = s.settings := rfl
@[simp] theorem State.sendStation_bins (s : State) (n : Nat) (m : FieldTelegram) : (s.sendStation n m).bins = s.bins := rfl
@[simp] theorem State.sendStation_items (s : State) (n : Nat) (m : FieldTelegram) : (s.sendStation n m).items = s.items := rfl
@[simp] theorem State.sendStation_requests (s : State) (n : Nat) (m : FieldTelegram) : (s.sendStation n m).requests = s.requests := rfl
@[simp] theorem State.sendStation_nextRequest (s : State) (n : Nat) (m : FieldTelegram) : (s.sendStation n m).nextRequest = s.nextRequest := rfl
@[simp] theorem State.sendStation_nextJob (s : State) (n : Nat) (m : FieldTelegram) : (s.sendStation n m).nextJob = s.nextJob := rfl
@[simp] theorem State.sendStation_faults (s : State) (n : Nat) (m : FieldTelegram) : (s.sendStation n m).faults = s.faults := rfl
@[simp] theorem State.sendStation_firePanel (s : State) (n : Nat) (m : FieldTelegram) : (s.sendStation n m).firePanel = s.firePanel := rfl
@[simp] theorem State.sendStation_keyLine (s : State) (n : Nat) (m : FieldTelegram) : (s.sendStation n m).keyLine = s.keyLine := rfl
@[simp] theorem State.sendStation_securedLine (s : State) (n : Nat) (m : FieldTelegram) : (s.sendStation n m).securedLine = s.securedLine := rfl
@[simp] theorem State.sendStation_pending (s : State) (n : Nat) (m : FieldTelegram) : (s.sendStation n m).pending = s.pending := rfl
@[simp] theorem State.sendStation_link_replies (s : State) (n : Nat) (m : FieldTelegram) : (s.sendStation n m).link.replies = s.link.replies := by simp [State.sendStation]
@[simp] theorem State.sendStation_link_waiting (s : State) (n : Nat) (m : FieldTelegram) : (s.sendStation n m).link.waiting = s.link.waiting := by simp [State.sendStation]
@[simp] theorem State.sendStation_link_restartPending (s : State) (n : Nat) (m : FieldTelegram) : (s.sendStation n m).link.restartPending = s.link.restartPending := by simp [State.sendStation]
@[simp] theorem State.sendStation_link_sent (s : State) (n : Nat) (m : FieldTelegram) : (s.sendStation n m).link.sent = s.link.sent := by simp [State.sendStation]
@[simp] theorem State.sendStation_link_urgent (s : State) (n : Nat) (m : FieldTelegram) : (s.sendStation n m).link.urgent = s.link.urgent := by simp [State.sendStation]
@[simp] theorem State.sendStation_link_routine (s : State) (n : Nat) (m : FieldTelegram) : (s.sendStation n m).link.routine = s.link.routine := by simp [State.sendStation]
@[simp] theorem State.sendStation_link_urgentOverrun (s : State) (n : Nat) (m : FieldTelegram) : (s.sendStation n m).link.urgentOverrun = s.link.urgentOverrun := by simp [State.sendStation]
@[simp] theorem State.sendStation_link_routineOverrun (s : State) (n : Nat) (m : FieldTelegram) : (s.sendStation n m).link.routineOverrun = s.link.routineOverrun := by simp [State.sendStation]
@[simp] theorem State.sendShutter_mode (s : State) (n : Nat) (m : FieldTelegram) : (s.sendShutter n m).mode = s.mode := rfl
@[simp] theorem State.sendShutter_startCause (s : State) (n : Nat) (m : FieldTelegram) : (s.sendShutter n m).startCause = s.startCause := rfl
@[simp] theorem State.sendShutter_haltedBefore (s : State) (n : Nat) (m : FieldTelegram) : (s.sendShutter n m).haltedBefore = s.haltedBefore := rfl
@[simp] theorem State.sendShutter_aisles (s : State) (n : Nat) (m : FieldTelegram) : (s.sendShutter n m).aisles = s.aisles := rfl
@[simp] theorem State.sendShutter_stations (s : State) (n : Nat) (m : FieldTelegram) : (s.sendShutter n m).stations = s.stations := rfl
@[simp] theorem State.sendShutter_zones (s : State) (n : Nat) (m : FieldTelegram) : (s.sendShutter n m).zones = s.zones := rfl
@[simp] theorem State.sendShutter_concentrators (s : State) (n : Nat) (m : FieldTelegram) : (s.sendShutter n m).concentrators = s.concentrators := rfl
@[simp] theorem State.sendShutter_shutters (s : State) (n : Nat) (m : FieldTelegram) : (s.sendShutter n m).shutters = s.shutters := rfl
@[simp] theorem State.sendShutter_addresses (s : State) (n : Nat) (m : FieldTelegram) : (s.sendShutter n m).addresses = s.addresses := rfl
@[simp] theorem State.sendShutter_classes (s : State) (n : Nat) (m : FieldTelegram) : (s.sendShutter n m).classes = s.classes := rfl
@[simp] theorem State.sendShutter_settings (s : State) (n : Nat) (m : FieldTelegram) : (s.sendShutter n m).settings = s.settings := rfl
@[simp] theorem State.sendShutter_bins (s : State) (n : Nat) (m : FieldTelegram) : (s.sendShutter n m).bins = s.bins := rfl
@[simp] theorem State.sendShutter_items (s : State) (n : Nat) (m : FieldTelegram) : (s.sendShutter n m).items = s.items := rfl
@[simp] theorem State.sendShutter_requests (s : State) (n : Nat) (m : FieldTelegram) : (s.sendShutter n m).requests = s.requests := rfl
@[simp] theorem State.sendShutter_nextRequest (s : State) (n : Nat) (m : FieldTelegram) : (s.sendShutter n m).nextRequest = s.nextRequest := rfl
@[simp] theorem State.sendShutter_nextJob (s : State) (n : Nat) (m : FieldTelegram) : (s.sendShutter n m).nextJob = s.nextJob := rfl
@[simp] theorem State.sendShutter_faults (s : State) (n : Nat) (m : FieldTelegram) : (s.sendShutter n m).faults = s.faults := rfl
@[simp] theorem State.sendShutter_firePanel (s : State) (n : Nat) (m : FieldTelegram) : (s.sendShutter n m).firePanel = s.firePanel := rfl
@[simp] theorem State.sendShutter_keyLine (s : State) (n : Nat) (m : FieldTelegram) : (s.sendShutter n m).keyLine = s.keyLine := rfl
@[simp] theorem State.sendShutter_securedLine (s : State) (n : Nat) (m : FieldTelegram) : (s.sendShutter n m).securedLine = s.securedLine := rfl
@[simp] theorem State.sendShutter_pending (s : State) (n : Nat) (m : FieldTelegram) : (s.sendShutter n m).pending = s.pending := rfl
@[simp] theorem State.sendShutter_link_replies (s : State) (n : Nat) (m : FieldTelegram) : (s.sendShutter n m).link.replies = s.link.replies := by simp [State.sendShutter]
@[simp] theorem State.sendShutter_link_waiting (s : State) (n : Nat) (m : FieldTelegram) : (s.sendShutter n m).link.waiting = s.link.waiting := by simp [State.sendShutter]
@[simp] theorem State.sendShutter_link_restartPending (s : State) (n : Nat) (m : FieldTelegram) : (s.sendShutter n m).link.restartPending = s.link.restartPending := by simp [State.sendShutter]
@[simp] theorem State.sendShutter_link_sent (s : State) (n : Nat) (m : FieldTelegram) : (s.sendShutter n m).link.sent = s.link.sent := by simp [State.sendShutter]
@[simp] theorem State.sendShutter_link_urgent (s : State) (n : Nat) (m : FieldTelegram) : (s.sendShutter n m).link.urgent = s.link.urgent := by simp [State.sendShutter]
@[simp] theorem State.sendShutter_link_routine (s : State) (n : Nat) (m : FieldTelegram) : (s.sendShutter n m).link.routine = s.link.routine := by simp [State.sendShutter]
@[simp] theorem State.sendShutter_link_urgentOverrun (s : State) (n : Nat) (m : FieldTelegram) : (s.sendShutter n m).link.urgentOverrun = s.link.urgentOverrun := by simp [State.sendShutter]
@[simp] theorem State.sendShutter_link_routineOverrun (s : State) (n : Nat) (m : FieldTelegram) : (s.sendShutter n m).link.routineOverrun = s.link.routineOverrun := by simp [State.sendShutter]
@[simp] theorem State.reply_mode (s : State) (r : Reply) : (s.reply r).mode = s.mode := rfl
@[simp] theorem State.reply_startCause (s : State) (r : Reply) : (s.reply r).startCause = s.startCause := rfl
@[simp] theorem State.reply_haltedBefore (s : State) (r : Reply) : (s.reply r).haltedBefore = s.haltedBefore := rfl
@[simp] theorem State.reply_aisles (s : State) (r : Reply) : (s.reply r).aisles = s.aisles := rfl
@[simp] theorem State.reply_stations (s : State) (r : Reply) : (s.reply r).stations = s.stations := rfl
@[simp] theorem State.reply_zones (s : State) (r : Reply) : (s.reply r).zones = s.zones := rfl
@[simp] theorem State.reply_concentrators (s : State) (r : Reply) : (s.reply r).concentrators = s.concentrators := rfl
@[simp] theorem State.reply_shutters (s : State) (r : Reply) : (s.reply r).shutters = s.shutters := rfl
@[simp] theorem State.reply_addresses (s : State) (r : Reply) : (s.reply r).addresses = s.addresses := rfl
@[simp] theorem State.reply_classes (s : State) (r : Reply) : (s.reply r).classes = s.classes := rfl
@[simp] theorem State.reply_settings (s : State) (r : Reply) : (s.reply r).settings = s.settings := rfl
@[simp] theorem State.reply_bins (s : State) (r : Reply) : (s.reply r).bins = s.bins := rfl
@[simp] theorem State.reply_items (s : State) (r : Reply) : (s.reply r).items = s.items := rfl
@[simp] theorem State.reply_requests (s : State) (r : Reply) : (s.reply r).requests = s.requests := rfl
@[simp] theorem State.reply_nextRequest (s : State) (r : Reply) : (s.reply r).nextRequest = s.nextRequest := rfl
@[simp] theorem State.reply_nextJob (s : State) (r : Reply) : (s.reply r).nextJob = s.nextJob := rfl
@[simp] theorem State.reply_faults (s : State) (r : Reply) : (s.reply r).faults = s.faults := rfl
@[simp] theorem State.reply_firePanel (s : State) (r : Reply) : (s.reply r).firePanel = s.firePanel := rfl
@[simp] theorem State.reply_keyLine (s : State) (r : Reply) : (s.reply r).keyLine = s.keyLine := rfl
@[simp] theorem State.reply_securedLine (s : State) (r : Reply) : (s.reply r).securedLine = s.securedLine := rfl
@[simp] theorem State.reply_pending (s : State) (r : Reply) : (s.reply r).pending = s.pending := rfl
@[simp] theorem State.reply_link_waiting (s : State) (r : Reply) : (s.reply r).link.waiting = s.link.waiting := rfl
@[simp] theorem State.reply_link_restartPending (s : State) (r : Reply) : (s.reply r).link.restartPending = s.link.restartPending := rfl
@[simp] theorem State.reply_link_sent (s : State) (r : Reply) : (s.reply r).link.sent = s.link.sent := rfl
@[simp] theorem State.reply_link_field (s : State) (r : Reply) : (s.reply r).link.field = s.link.field := rfl
@[simp] theorem State.reply_link_urgent (s : State) (r : Reply) : (s.reply r).link.urgent = s.link.urgent := rfl
@[simp] theorem State.reply_link_routine (s : State) (r : Reply) : (s.reply r).link.routine = s.link.routine := rfl
@[simp] theorem State.reply_link_urgentOverrun (s : State) (r : Reply) : (s.reply r).link.urgentOverrun = s.link.urgentOverrun := rfl
@[simp] theorem State.reply_link_routineOverrun (s : State) (r : Reply) : (s.reply r).link.routineOverrun = s.link.routineOverrun := rfl
@[simp] theorem State.reply_link_replies (s : State) (r : Reply) : (s.reply r).link.replies = s.link.replies ++ [r] := rfl

end Sys2Proof.Machine
end

