-- ==== Sys2Proof/Laws/Table.lean ====
section
/-! SUPPORT. What the operations of a table do: what each leaves under every number, and that each keeps the canonical
form. -/
namespace Sys2Proof.Machine

variable {α : Type}

@[simp] theorem Table.look_nil (n : Nat) : Table.look ([] : Table α) n = none := rfl

theorem Table.look_cons (k : Nat) (v : α) (t : Table α) (n : Nat) :
    Table.look ((k, v) :: t) n = if k = n then some v else Table.look t n := rfl

/-- What stands under every number after `adjust`. -/
theorem Table.look_adjust (t : Table α) (n m : Nat) (f : α → α) :
    (t.adjust n f).look m = if m = n then (t.look n).map f else t.look m := by
  induction t with
  | nil => simp [Table.adjust]
  | cons e t ih =>
    obtain ⟨k, v⟩ := e
    by_cases h : k = n
    · subst h
      by_cases hm : k = m
      · subst hm; simp [Table.adjust, Table.look]
      · have : ¬ m = k := fun h => hm h.symm
        simp [Table.adjust, Table.look, hm, this]
    · by_cases hm : k = m
      · subst hm; simp [Table.adjust, Table.look, h]
      · simp [Table.adjust, Table.look, h, hm, ih]

@[simp] theorem Table.look_adjust_same (t : Table α) (n : Nat) (f : α → α) :
    (t.adjust n f).look n = (t.look n).map f := by simp [Table.look_adjust]

theorem Table.look_adjust_ne (t : Table α) {n m : Nat} (f : α → α) (h : m ≠ n) :
    (t.adjust n f).look m = t.look m := by simp [Table.look_adjust, h]

/-- What stands under every number after `mapRecords`. -/
@[simp] theorem Table.look_mapRecords (t : Table α) (f : Nat → α → α) (m : Nat) :
    (t.mapRecords f).look m = (t.look m).map (f m) := by
  induction t with
  | nil => rfl
  | cons e t ih =>
    obtain ⟨k, v⟩ := e
    by_cases h : k = m
    · subst h; simp [Table.mapRecords, Table.look]
    · simpa [Table.mapRecords, Table.look, h] using ih

/-- What stands under every number after `put`. -/
theorem Table.look_put (t : Table α) (n m : Nat) (v : α) (h : t.wf = true) :
    (t.put n v).look m = if m = n then some v else t.look m := by
  induction t with
  | nil => by_cases hm : n = m <;> simp [Table.put, Table.look, hm, eq_comm]
  | cons e t ih =>
    obtain ⟨k, w⟩ := e
    have ht : Table.wf t = true := by
      cases t with
      | nil => rfl
      | cons e t => simp [Table.wf] at h; exact h.2
    by_cases h1 : n < k
    · by_cases hm : m = n
      · subst hm; simp [Table.put, h1, Table.look]
      · have : ¬ n = m := fun h => hm h.symm
        simp [Table.put, h1, Table.look, hm, this]
    · by_cases h2 : k = n
      · subst h2
        by_cases hm : m = k
        · subst hm; simp [Table.put, Table.look]
        · have : ¬ k = m := fun h => hm h.symm
          simp [Table.put, Table.look, hm, this]
      · by_cases hm : k = m
        · subst hm; simp [Table.put, h1, h2, Table.look]
        · simp [Table.put, h1, h2, Table.look, hm, ih ht]

/-- What stands under every number after `remove`. -/
theorem Table.look_remove (t : Table α) (n m : Nat) :
    (t.remove n).look m = if m = n then none else t.look m := by
  induction t with
  | nil => simp [Table.remove]
  | cons e t ih =>
    obtain ⟨k, v⟩ := e
    have ih : Table.look (List.filter (fun e => e.1 != n) t) m = if m = n then none else Table.look t m := ih
    by_cases h : k = n
    · subst h
      by_cases hm : m = k
      · subst hm; simpa [Table.remove] using ih
      · have h2 : ¬ k = m := fun h => hm h.symm
        simpa [Table.remove, Table.look, hm, h2] using ih
    · by_cases hm : k = m
      · subst hm; simp [Table.remove, Table.look, h]
      · simpa [Table.remove, Table.look, h, hm] using ih

/-- A record found stands in the table. -/
theorem Table.mem_of_look {t : Table α} {n : Nat} {v : α} (h : t.look n = some v) : (n, v) ∈ t := by
  induction t with
  | nil => simp at h
  | cons e t ih =>
    obtain ⟨k, w⟩ := e
    by_cases hk : k = n
    · subst hk; simp [Table.look] at h; simp [h]
    · simp [Table.look, hk] at h; exact List.mem_cons_of_mem _ (ih h)

/-- A number found is one of the table's numbers. -/
theorem Table.mem_numbers_of_look {t : Table α} {n : Nat} {v : α} (h : t.look n = some v) : n ∈ t.numbers := by
  have := Table.mem_of_look h
  exact List.mem_map.2 ⟨_, this, rfl⟩

/-- A number of the table has a record. -/
theorem Table.look_isSome_of_mem {t : Table α} {n : Nat} (h : n ∈ t.numbers) : (t.look n).isSome = true := by
  induction t with
  | nil => simp [Table.numbers] at h
  | cons e t ih =>
    obtain ⟨k, w⟩ := e
    by_cases hk : k = n
    · subst hk; simp [Table.look]
    · simp only [Table.look, hk, if_false]
      apply ih
      simp only [Table.numbers, List.map_cons, List.mem_cons] at h
      rcases h with h | h
      · exact absurd h.symm hk
      · exact h

/-- In canonical form every record that stands in the table is found. -/
theorem Table.look_of_mem {t : Table α} {n : Nat} {v : α} (hw : t.wf = true) (h : (n, v) ∈ t) : t.look n = some v := by
  induction t with
  | nil => simp at h
  | cons e t ih =>
    obtain ⟨k, w⟩ := e
    have key : ∀ (t : Table α) (k : Nat) (w : α), Table.wf ((k, w) :: t) = true → ∀ e ∈ t, k < e.1 := by
      intro t
      induction t with
      | nil => intro _ _ _ e he; simp at he
      | cons d t ih2 =>
        intro k w hw e he
        simp [Table.wf] at hw
        rcases List.mem_cons.1 he with rfl | he
        · exact hw.1
        · exact Nat.lt_trans hw.1 (ih2 d.1 d.2 hw.2 e he)
    have hwt : Table.wf t = true := by
      cases t with
      | nil => rfl
      | cons e t => simp [Table.wf] at hw; exact hw.2
    rcases List.mem_cons.1 h with h | h
    · cases h; simp [Table.look]
    · have := key t k w hw (n, v) h
      have : ¬ k = n := by simp at this; omega
      simp [Table.look, this, ih hwt h]

/-! ### Numbers and maps over records -/

@[simp] theorem Table.numbers_adjust (t : Table α) (n : Nat) (f : α → α) : (t.adjust n f).numbers = t.numbers := by
  induction t with
  | nil => rfl
  | cons e t ih =>
    obtain ⟨k, v⟩ := e
    have ih : List.map (fun e => e.1) (Table.adjust t n f) = List.map (fun e => e.1) t := ih
    by_cases h : k = n <;> simp [Table.adjust, Table.numbers, h, ih]

@[simp] theorem Table.numbers_mapRecords (t : Table α) (f : Nat → α → α) : (t.mapRecords f).numbers = t.numbers := by
  simp [Table.numbers, Table.mapRecords, Function.comp_def]

/-- A view of the records that a change keeps is kept by the table. -/
theorem Table.map_adjust {β : Type} (t : Table α) (n : Nat) (f : α → α) (g : Nat × α → β)
    (h : ∀ v, g (n, f v) = g (n, v)) : (t.adjust n f).map g = t.map g := by
  induction t with
  | nil => rfl
  | cons e t ih =>
    obtain ⟨k, v⟩ := e
    by_cases hk : k = n
    · subst hk; simp [Table.adjust, h]
    · simp only [Table.adjust, hk, if_false, List.map_cons, ih]

theorem Table.map_mapRecords {β : Type} (t : Table α) (f : Nat → α → α) (g : Nat × α → β)
    (h : ∀ n v, g (n, f n v) = g (n, v)) : (t.mapRecords f).map g = t.map g := by
  simp [Table.mapRecords, Function.comp_def, h]

/-- A law of every record that the change of one record keeps. -/
theorem Table.all_adjust (t : Table α) (n : Nat) (f : α → α) (p : Nat × α → Bool) (h : t.all p = true)
    (hf : ∀ v, p (n, v) = true → p (n, f v) = true) : (t.adjust n f).all p = true := by
  induction t with
  | nil => rfl
  | cons e t ih =>
    obtain ⟨k, v⟩ := e
    simp only [List.all_cons, Bool.and_eq_true] at h
    by_cases hk : k = n
    · subst hk; simp [Table.adjust, hf v h.1, h.2]
    · simp only [Table.adjust, hk, if_false, List.all_cons, h.1, ih h.2, Bool.and_self]

theorem Table.all_mapRecords (t : Table α) (f : Nat → α → α) (p : Nat × α → Bool) (h : t.all p = true)
    (hf : ∀ n v, p (n, v) = true → p (n, f n v) = true) : (t.mapRecords f).all p = true := by
  simp only [Table.mapRecords, List.all_map, List.all_eq_true, Function.comp] at *
  exact fun e he => hf _ _ (h e he)

theorem Table.all_put (t : Table α) (n : Nat) (v : α) (p : Nat × α → Bool) (h : t.all p = true)
    (hv : p (n, v) = true) : (t.put n v).all p = true := by
  induction t with
  | nil => simp [Table.put, hv]
  | cons e t ih =>
    obtain ⟨k, w⟩ := e
    simp only [List.all_cons, Bool.and_eq_true] at h
    simp only [Table.put]
    split
    · simp [hv, h.1, h.2]
    · split
      · simp [hv, h.2]
      · simp [h.1, ih h.2]

/-! ### The canonical form -/

/-- The canonical form is a matter of the numbers alone. -/
theorem Table.wf_eq (t : Table α) : t.wf = decide (t.numbers.Pairwise (· < ·)) := by
  induction t with
  | nil => simp [Table.wf, Table.numbers]
  | cons a t ih =>
    cases t with
    | nil => simp [Table.wf, Table.numbers]
    | cons b t =>
      simp only [Table.wf, ih, Table.numbers, List.map_cons, List.pairwise_cons]
      rw [← Bool.decide_and, decide_eq_decide]
      constructor
      · rintro ⟨h1, h2, h3⟩
        refine ⟨?_, h2, h3⟩
        intro x hx
        rcases List.mem_cons.1 hx with rfl | hx
        · exact h1
        · exact Nat.lt_trans h1 (h2 x hx)
      · rintro ⟨h1, h2, h3⟩
        exact ⟨h1 _ (by simp), h2, h3⟩

@[simp] theorem Table.wf_adjust (t : Table α) (n : Nat) (f : α → α) : (t.adjust n f).wf = t.wf := by
  simp [Table.wf_eq]

@[simp] theorem Table.wf_mapRecords (t : Table α) (f : Nat → α → α) : (t.mapRecords f).wf = t.wf := by
  simp [Table.wf_eq]

theorem Table.wf_remove (t : Table α) (n : Nat) (h : t.wf = true) : (t.remove n).wf = true := by
  rw [Table.wf_eq, decide_eq_true_eq] at *
  have hs : (t.remove n).numbers.Sublist t.numbers := by
    unfold Table.remove Table.numbers
    exact List.Sublist.map _ List.filter_sublist
  exact h.sublist hs

theorem Table.mem_numbers_put (t : Table α) (n : Nat) (v : α) (x : Nat) :
    x ∈ (t.put n v).numbers → x = n ∨ x ∈ t.numbers := by
  induction t with
  | nil => simp [Table.put, Table.numbers]
  | cons e t ih =>
    obtain ⟨k, w⟩ := e
    have ih : x ∈ (Table.put t n v).map (fun e => e.1) → x = n ∨ x ∈ t.map (fun e => e.1) := ih
    simp only [Table.put]
    split
    · simp [Table.numbers]
    · split
      · rename_i h; subst h
        simp only [Table.numbers, List.map_cons, List.mem_cons]
        tauto
      · simp only [Table.numbers, List.map_cons, List.mem_cons]
        rintro (h | h)
        · exact .inr (.inl h)
        · rcases ih h with h | h
          · exact .inl h
          · exact .inr (.inr h)

theorem Table.wf_put (t : Table α) (n : Nat) (v : α) (h : t.wf = true) : (t.put n v).wf = true := by
  induction t with
  | nil => rfl
  | cons e t ih =>
    obtain ⟨k, w⟩ := e
    have hp := h
    simp only [Table.wf_eq, decide_eq_true_eq, Table.numbers, List.map_cons, List.pairwise_cons] at hp
    have ht : Table.wf t = true := by rw [Table.wf_eq, decide_eq_true_eq]; exact hp.2
    have ih := ih ht
    simp only [Table.wf_eq, decide_eq_true_eq] at ih ⊢
    simp only [Table.put]
    split
    · rename_i hlt
      simp only [Table.numbers, List.map_cons, List.pairwise_cons]
      refine ⟨?_, hp.1, hp.2⟩
      intro x hx
      rcases List.mem_cons.1 hx with rfl | hx
      · exact hlt
      · exact Nat.lt_trans hlt (hp.1 x hx)
    · split
      · rename_i h2; subst h2
        simpa only [Table.numbers, List.map_cons, List.pairwise_cons] using hp
      · rename_i h1 h2
        simp only [Table.numbers, List.map_cons, List.pairwise_cons]
        refine ⟨?_, ih⟩
        intro x hx
        rcases Table.mem_numbers_put t n v x hx with rfl | hx
        · omega
        · exact hp.1 x hx

end Sys2Proof.Machine
end

