-- ==== Sys2Proof/Laws/Flow.lean ====
section
/-! SUPPORT. What the events of the wing share: `Flow s t` says that `t` follows from `s` by shared operations alone. It
says once which records they leave alone and which laws they keep; each named update and each shared operation has one
lemma, so that the lemma of a composed operation is written as the operation is. -/
namespace Sys2Proof.Machine

/-- What every shared operation does to the state: the set-up, the loaded fields and the loaded figures of bins and items
are unchanged, the request list does not grow, a halted Fault Unit is unchanged, and each law that held still holds. -/
structure Flow (s t : State) : Prop where
  setup : t.setup = s.setup
  loaded : t.loaded = s.loaded
  bins : (t.bins.map fun e => (e.1, e.2.capacity, e.2.sizeClass)) = s.bins.map fun e => (e.1, e.2.capacity, e.2.sizeClass)
  items : (t.items.map fun e => (e.1, e.2.thickness, e.2.sizeClass))
    = s.items.map fun e => (e.1, e.2.thickness, e.2.sizeClass)
  requests : t.requests.length ≤ s.requests.length
  halted : s.faults.state = .halted → t.faults = s.faults
  faults : s.faults.lawful = true → t.faults.lawful = true
  secured : s.securedLawful = true → t.securedLawful = true
  urgent : s.link.urgent.length ≤ Config.urgentCapacity → t.link.urgent.length ≤ Config.urgentCapacity
  routine : s.link.routine.length ≤ Config.routineCapacity → t.link.routine.length ≤ Config.routineCapacity
  returns : (s.stations.all fun e => decide (e.2.returns.length ≤ Config.returnCapacity)) = true →
    (t.stations.all fun e => decide (e.2.returns.length ≤ Config.returnCapacity)) = true
  stores : s.queuesLawful = true → t.queuesLawful = true
  jobTag : within 1 Config.maxTag s.nextJob = true → within 1 Config.maxTag t.nextJob = true

theorem Flow.refl (s : State) : Flow s s :=
  ⟨rfl, rfl, rfl, rfl, Nat.le_refl _, fun _ => rfl, id, id, id, id, id, id, id⟩

theorem Flow.trans {s t u : State} (h : Flow s t) (k : Flow t u) : Flow s u where
  setup := k.setup.trans h.setup
  loaded := k.loaded.trans h.loaded
  bins := k.bins.trans h.bins
  items := k.items.trans h.items
  requests := Nat.le_trans k.requests h.requests
  halted := fun x => (k.halted ((h.halted x).symm ▸ x)).trans (h.halted x)
  faults := fun x => k.faults (h.faults x)
  secured := fun x => k.secured (h.secured x)
  urgent := fun x => k.urgent (h.urgent x)
  routine := fun x => k.routine (h.routine x)
  returns := fun x => k.returns (h.returns x)
  stores := fun x => k.stores (h.stores x)
  jobTag := fun x => k.jobTag (h.jobTag x)

theorem Flow.foldl {β : Type} {s t : State} (h : Flow s t) (l : List β) (f : State → β → State)
    (hf : ∀ t x, Flow s t → Flow s (f t x)) : Flow s (l.foldl f t) := by
  induction l generalizing t with
  | nil => exact h
  | cons x l ih => exact ih (hf t x h)

variable {s t : State}

/-! ### Named updates -/

theorem Flow.modCrane (h : Flow s t) (a : Nat) (f : Crane → Crane) : Flow s (t.modCrane a f) :=
  h.trans
    { Flow.refl t with
      loaded := by
        simp only [State.loaded, State.modCrane]
        rw [Table.map_adjust]; intro v; rfl
      stores := fun k => Table.all_adjust _ _ _ _ k fun _ hv => hv }

theorem Flow.modQueue (h : Flow s t) (a : Nat) (f : List Job → List Job)
    (hf : ∀ q, storesFirst q = true → storesFirst (f q) = true) :
    Flow s (t.modAisle a fun x => { x with queue := f x.queue }) :=
  h.trans
    { Flow.refl t with
      loaded := by
        simp only [State.loaded, State.modAisle]
        rw [Table.map_adjust]; intro v; rfl
      stores := fun k => Table.all_adjust _ _ _ _ k fun v hv => hf v.queue hv }

theorem Flow.modService (h : Flow s t) (a : Nat) (v : Service) :
    Flow s (t.modAisle a fun x => { x with service := v }) :=
  h.trans
    { Flow.refl t with
      loaded := by
        simp only [State.loaded, State.modAisle]
        rw [Table.map_adjust]; intro v; rfl
      stores := fun k => Table.all_adjust _ _ _ _ k fun _ hv => hv }

theorem Flow.modStation (h : Flow s t) (n : Nat) (f : Station → Station) (hl : ∀ x, (f x).loaded = x.loaded := by intro _; rfl)
    (hr : ∀ x, (f x).returns.length ≤ x.returns.length := by intro _; exact Nat.le_refl _) : Flow s (t.modStation n f) :=
  h.trans
    { Flow.refl t with
      loaded := by
        simp only [State.loaded, State.modStation]
        rw [Table.map_adjust]; intro v; rw [hl]
      returns := fun k => Table.all_adjust _ _ _ _ k fun v hv => by
        simp only [decide_eq_true_eq] at *
        exact Nat.le_trans (hr v) hv }

theorem Flow.mapStations (h : Flow s t) (f : Nat → Station → Station) (hl : ∀ n x, (f n x).loaded = x.loaded := by intro _ _; rfl)
    (hr : ∀ n x, (f n x).returns.length ≤ x.returns.length := by intro _ _; exact Nat.le_refl _) : Flow s (t.setStations (t.stations.mapRecords f)) :=
  h.trans
    { Flow.refl t with
      loaded := by
        simp only [State.loaded, State.setStations]
        rw [Table.map_mapRecords]; intro n v; rw [hl]
      returns := fun k => Table.all_mapRecords _ _ _ k fun n v hv => by
        simp only [decide_eq_true_eq] at *
        exact Nat.le_trans (hr n v) hv }

theorem securedLevel_adjust (t : Table Zone) (z : Nat) (f : Zone → Zone) (hf : ∀ x, (f x).state = x.state) :
    securedLevel (t.adjust z f) = securedLevel t := by
  have h : ∀ p : ZoneState → Bool, ((t.adjust z f).any fun e => p e.2.state) = t.any fun e => p e.2.state := by
    intro p
    induction t with
    | nil => rfl
    | cons e t ih =>
      obtain ⟨k, v⟩ := e
      by_cases hk : k = z
      · simp [Table.adjust, hk, hf]
      · simp only [Table.adjust, hk, if_false, List.any_cons, ih]
  unfold securedLevel
  rw [h fun v => decide (v = .secured), h fun v => decide (v = .shutdown)]

theorem securedLawful_iff (s : State) : s.securedLawful = true ↔ s.securedLine = securedLevel s.zones := by
  simp only [State.securedLawful, decide_eq_true_eq]

theorem Flow.modZone (h : Flow s t) (z : Nat) (f : Zone → Zone) (hw : ∀ x, (f x).window = x.window := by intro _; rfl)
    (hs : ∀ x, (f x).state = x.state := by intro _; rfl) : Flow s (t.modZone z f) :=
  h.trans
    { Flow.refl t with
      loaded := by
        simp only [State.loaded, State.modZone]
        rw [Table.map_adjust]; intro v; rw [hw]
      secured := fun k => by
        rw [securedLawful_iff] at *
        exact k.trans (securedLevel_adjust _ _ _ hs).symm }

theorem Flow.modConcentrator (h : Flow s t) (n : Nat) (f : Concentrator → Concentrator)
    (hl : ∀ x, (f x).address = x.address ∧ (f x).zone = x.zone ∧ (f x).period = x.period := by
      intro _; exact ⟨rfl, rfl, rfl⟩) :
    Flow s (t.modConcentrator n f) :=
  h.trans
    { Flow.refl t with
      loaded := by
        simp only [State.loaded, State.modConcentrator]
        rw [Table.map_adjust]; intro v; rw [(hl v).1, (hl v).2.1, (hl v).2.2] }

theorem Flow.modShutter (h : Flow s t) (n : Nat) (f : Shutter → Shutter)
    (hl : ∀ x, (f x).address = x.address ∧ (f x).zone = x.zone := by intro _; exact ⟨rfl, rfl⟩) : Flow s (t.modShutter n f) :=
  h.trans
    { Flow.refl t with
      loaded := by
        simp only [State.loaded, State.modShutter]
        rw [Table.map_adjust]; intro v; rw [(hl v).1, (hl v).2] }

theorem Flow.modBin (h : Flow s t) (n : Nat) (f : Bin → Bin)
    (hf : ∀ b, (f b).capacity = b.capacity ∧ (f b).sizeClass = b.sizeClass := by intro _; exact ⟨rfl, rfl⟩) : Flow s (t.modBin n f) :=
  h.trans
    { Flow.refl t with
      bins := by
        rw [State.modBin_bins, Table.map_adjust]; intro v; rw [(hf v).1, (hf v).2] }

theorem Flow.modItem (h : Flow s t) (n : Nat) (f : Item → Item)
    (hf : ∀ i, (f i).thickness = i.thickness ∧ (f i).sizeClass = i.sizeClass := by
      intro _; exact ⟨rfl, rfl⟩) : Flow s (t.modItem n f) :=
  h.trans
    { Flow.refl t with
      items := by
        rw [State.modItem_items, Table.map_adjust]; intro v; rw [(hf v).1, (hf v).2] }

theorem Flow.setRequests (h : Flow s t) (l : List Request) (hl : l.length ≤ t.requests.length) :
    Flow s (t.setRequests l) := h.trans { Flow.refl t with requests := hl }

theorem within_tagAfter (n : Nat) : within 1 Config.maxTag (tagAfter n) = true := by
  unfold tagAfter
  split
  · decide
  · rename_i h
    simp only [ge_iff_le, Nat.not_le] at h
    simp only [within, Bool.and_eq_true, decide_eq_true_eq]
    omega

theorem Flow.setNextJob (h : Flow s t) (n : Nat) : Flow s (t.setNextJob (tagAfter n)) :=
  h.trans { Flow.refl t with jobTag := fun _ => within_tagAfter n }

theorem Link.joinRoutine_length (l : Link) (e : RoutineEntry) (h : l.routine.length ≤ Config.routineCapacity) :
    (l.joinRoutine e).routine.length ≤ Config.routineCapacity := by
  unfold Link.joinRoutine
  split
  · simp only [List.length_append, List.length_cons, List.length_nil]; omega
  · exact h

theorem Link.joinUrgent_length (l : Link) (r : Report) (h : l.urgent.length ≤ Config.urgentCapacity) :
    (l.joinUrgent r).urgent.length ≤ Config.urgentCapacity := by
  unfold Link.joinUrgent
  split
  · simp only [List.length_append, List.length_cons, List.length_nil]; omega
  · exact h

theorem Link.joinUrgent_routine (l : Link) (r : Report) : (l.joinUrgent r).routine = l.routine := by
  unfold Link.joinUrgent; split <;> rfl

theorem Flow.post (h : Flow s t) (r : Report) : Flow s (t.post r) :=
  h.trans
    { Flow.refl t with
      setup := by simp [State.setup]
      urgent := fun k => by
        simp only [State.post, Link.post]
        split
        · exact Link.joinUrgent_length _ _ k
        · rw [Link.joinRoutine_urgent]; exact k
      routine := fun k => by
        simp only [State.post, Link.post]
        split
        · rw [Link.joinUrgent_routine]; exact k
        · exact Link.joinRoutine_length _ _ k }

theorem Flow.report (h : Flow s t) (k : ReportKind) (u : Subject) (c : Option Code) : Flow s (t.report k u c) := h.post _

theorem Flow.passUp (h : Flow s t) (n : Nat) (l : List Byte) : Flow s (t.passUp n l) :=
  h.trans
    { Flow.refl t with
      setup := by simp [State.setup]
      urgent := fun k => by simpa [State.passUp] using k
      routine := fun k => by simpa [State.passUp] using Link.joinRoutine_length _ _ k }

theorem Flow.send (h : Flow s t) (ad : Option Nat) (m : FieldTelegram) : Flow s (t.send ad m) :=
  h.trans
    { Flow.refl t with
      setup := by simp [State.setup]
      urgent := fun k => by simpa using k
      routine := fun k => by simpa using k }

theorem Flow.sendCrane (h : Flow s t) (a : Nat) (m : FieldTelegram) : Flow s (t.sendCrane a m) := h.send _ _
theorem Flow.sendStation (h : Flow s t) (n : Nat) (m : FieldTelegram) : Flow s (t.sendStation n m) := h.send _ _
theorem Flow.sendShutter (h : Flow s t) (n : Nat) (m : FieldTelegram) : Flow s (t.sendShutter n m) := h.send _ _

end Sys2Proof.Machine
end

