-- ==== Sys2Proof/Laws/Queues.lean ====
section
/-! SUPPORT. R56: the STORE jobs of a queue stand as one run at its head, and every operation of a queue keeps it so. -/
namespace Sys2Proof.Machine

/-- A queue whose STORE jobs stand first: before a STORE there is nothing but STORE jobs. -/
theorem storesFirst_iff (q : List Job) :
    storesFirst q = true ↔ q.Pairwise fun x y => y.isStore = true → x.isStore = true := by
  induction q with
  | nil => simp [storesFirst]
  | cons j q ih =>
    by_cases hj : j.isStore = true
    · have : storesFirst (j :: q) = storesFirst q := by simp [storesFirst, hj]
      rw [this, ih, List.pairwise_cons]
      simp [hj]
    · have hj : j.isStore = false := by simpa using hj
      rw [List.pairwise_cons]
      simp only [storesFirst, List.dropWhile, hj, List.all_cons, Bool.not_false, Bool.true_and, List.all_eq_true,
        Bool.not_eq_true', Bool.false_eq_true, imp_false, Bool.not_eq_true]
      constructor
      · intro h
        refine ⟨h, ?_⟩
        rw [← ih, storesFirst, List.all_eq_true]
        intro x hx
        simpa using h x (List.dropWhile_sublist _ |>.subset hx)
      · exact fun h => h.1

theorem storesFirst_sublist {p q : List Job} (h : p.Sublist q) (hq : storesFirst q = true) : storesFirst p = true := by
  rw [storesFirst_iff] at *
  exact hq.sublist h

theorem storesFirst_filter (f : Job → Bool) (q : List Job) (h : storesFirst q = true) :
    storesFirst (q.filter f) = true := storesFirst_sublist List.filter_sublist h

theorem storesFirst_erase (j : Job) (q : List Job) (h : storesFirst q = true) : storesFirst (q.erase j) = true :=
  storesFirst_sublist (List.erase_sublist (a := j)) h

theorem mem_takeWhile_store {q : List Job} {x : Job} (h : x ∈ q.takeWhile Job.isStore) : x.isStore = true := by
  have := List.all_takeWhile (p := Job.isStore) (l := q)
  exact List.all_eq_true.1 this x h

theorem mem_dropWhile_store {q : List Job} (hq : storesFirst q = true) {x : Job} (h : x ∈ q.dropWhile Job.isStore) :
    x.isStore = false := by
  simpa using List.all_eq_true.1 hq x h

/-- A job put between the run of STORE jobs and the rest keeps the law. -/
theorem storesFirst_between (q : List Job) (j : Job) (h : storesFirst q = true) :
    storesFirst (q.takeWhile Job.isStore ++ j :: q.dropWhile Job.isStore) = true := by
  rw [storesFirst_iff, List.pairwise_append, List.pairwise_cons]
  refine ⟨?_, ⟨?_, ?_⟩, ?_⟩
  · exact List.Pairwise.imp_of_mem (R := fun _ _ => True) (fun hx _ _ _ => mem_takeWhile_store hx)
      (List.pairwise_of_forall fun _ _ => trivial)
  · intro x hx hs
    rw [mem_dropWhile_store h hx] at hs
    simp at hs
  · exact ((storesFirst_iff q).1 h).sublist (List.dropWhile_sublist _)
  · exact fun x hx _ _ _ => mem_takeWhile_store hx

theorem storesFirst_append (q : List Job) (j : Job) (h : storesFirst q = true) (hj : j.isStore = false) :
    storesFirst (q ++ [j]) = true := by
  rw [storesFirst_iff, List.pairwise_append]
  refine ⟨(storesFirst_iff q).1 h, by simp, ?_⟩
  intro x _ y hy hs
  simp at hy
  rw [hy, hj] at hs
  simp at hs

theorem storesFirst_joinQueue (q : List Job) (j : Job) (h : storesFirst q = true) : storesFirst (joinQueue q j) = true := by
  unfold joinQueue
  split
  · exact storesFirst_between q j h
  · rename_i hj; exact storesFirst_append q j h (by simpa using hj)

theorem storesFirst_rejoinQueue (q : List Job) (j : Job) (h : storesFirst q = true) :
    storesFirst (rejoinQueue q j) = true := by
  unfold rejoinQueue
  split
  · rename_i hj; simpa [storesFirst, hj] using h
  · exact storesFirst_between q j h

/-- A change of the jobs that keeps their kinds keeps the law. -/
theorem storesFirst_map (f : Job → Job) (hf : ∀ j, (f j).isStore = j.isStore) (q : List Job) (h : storesFirst q = true) :
    storesFirst (q.map f) = true := by
  rw [storesFirst_iff] at *
  rw [List.pairwise_map]
  exact h.imp fun {x y} k => by rw [hf, hf]; exact k

end Sys2Proof.Machine
end

