-- ==== Sys2Proof/Laws/FlowOps.lean ====
section
/-! SUPPORT. Every shared operation is a `Flow`: one lemma for each, written as the operation is. -/
namespace Sys2Proof.Machine

-- One proof after another: run at once, the proofs wait for each other on a thread each.
set_option Elab.async false

variable {s t : State}

/-! ### Jobs and services (Ops, Flags) -/

theorem Flow.addJob (h : Flow s t) (a : Nat) (mk : Nat → Job) : Flow s (t.addJob a mk) :=
  (h.modQueue a (fun q => joinQueue q (mk t.jobTag)) fun q => storesFirst_joinQueue q _).setNextJob _

theorem Flow.returnJob (h : Flow s t) (a : Nat) (j : Job) : Flow s (t.returnJob a j) :=
  h.modQueue a (fun q => rejoinQueue q j) fun q => storesFirst_rejoinQueue q j

theorem Flow.setService (h : Flow s t) (a : Nat) (v : Service) : Flow s (t.setService a v) := by
  unfold State.setService
  split
  · exact h
  · split
    · exact h
    · exact (h.modService a v).report _ _ _

theorem Flow.fieldProtocol (h : Flow s t) (u : Subject) (c : Option Code) : Flow s (t.fieldProtocol u c) :=
  h.report _ _ _

/-- A change of a zone's state with the secured line judged after it (R168). -/
theorem Flow.turnZone (h : Flow s t) (z : Nat) (v : ZoneState) : Flow s (t.turnZone z v) :=
  h.trans
    { Flow.refl t with
      loaded := by
        simp only [State.loaded, State.turnZone, State.judgeSecuredLine, State.setSecuredLine_aisles,
          State.setSecuredLine_stations, State.setSecuredLine_zones, State.setSecuredLine_concentrators,
          State.setSecuredLine_shutters, State.modZone_aisles, State.modZone_stations, State.modZone_zones,
          State.modZone_concentrators, State.modZone_shutters]
        rw [Table.map_adjust]; intro v; rfl
      secured := fun _ => (securedLawful_iff _).2 rfl }

theorem Flow.reportZone (h : Flow s t) (z : Nat) (v : ZoneState) : Flow s (t.reportZone z v) := h.report _ _ _

theorem Flow.setZoneState (h : Flow s t) (z : Nat) (v : ZoneState) : Flow s (t.setZoneState z v) :=
  (h.turnZone z v).reportZone z v

theorem Flow.judgeSecuredLine (h : Flow s t) : Flow s (t.judgeSecuredLine) :=
  h.trans { Flow.refl t with secured := fun _ => (securedLawful_iff _).2 rfl }

theorem Flow.turnAlert (h : Flow s t) (z : Nat) : Flow s (t.turnAlert z) := (h.modZone z _).turnZone z _

theorem Flow.enterAlert (h : Flow s t) (z : Nat) : Flow s (t.enterAlert z) := (h.turnAlert z).reportZone z _

theorem Flow.formCauses (h : Flow s t) (z : Nat) : Flow s (t.formCauses z) := h.modZone z _

theorem Flow.alertIfCaused (h : Flow s t) (z : Nat) : Flow s (t.alertIfCaused z) := by
  unfold State.alertIfCaused
  split
  · exact h
  · split
    · exact h.enterAlert z
    · exact h

theorem Flow.reformCauses (h : Flow s t) (z : Nat) : Flow s (t.reformCauses z) := (h.formCauses z).alertIfCaused z

/-! ### Bins, requests and returns (Bins) -/

theorem Flow.leaveOverdue (h : Flow s t) (n : Nat) : Flow s (t.leaveOverdue n) :=
  h.mapStations _

theorem Flow.setBinState (h : Flow s t) (n : Nat) (v : BinState) : Flow s (t.setBinState n v) := by
  unfold State.setBinState
  simp only
  split
  · exact (h.modBin n _).leaveOverdue n
  · exact h.modBin n _

theorem Flow.liftBin (h : Flow s t) (j : Job) : Flow s (t.liftBin j) := by
  unfold State.liftBin
  split
  · exact h
  · split
    · exact h.setBinState _ _
    · exact h

theorem Flow.reportRequest (h : Flow s t) (k : ReportKind) (r : Request) (c : Option Code) :
    Flow s (t.reportRequest k r c) := h.post _

theorem Flow.failOne (h : Flow s t) (c : RefusalCode) (r : Request) : Flow s (State.failOne c t r) :=
  (h.reportRequest _ _ _).modItem _ _

/-- Failing the requests leaves the rest of the list. -/
theorem foldl_failOne_requests (c : RefusalCode) (l : List Request) (t : State) :
    (l.foldl (State.failOne c) t).requests = t.requests := by
  induction l generalizing t with
  | nil => rfl
  | cons r l ih => exact (ih _).trans rfl

theorem Flow.failRequests (h : Flow s t) (p : Request → Bool) (c : RefusalCode) : Flow s (t.failRequests p c) := by
  unfold State.failRequests
  refine (h.foldl _ _ fun t r h => h.failOne c r).setRequests _ ?_
  rw [foldl_failOne_requests]
  exact List.length_filter_le _ _

theorem Flow.displaceOne (h : Flow s t) (c : RefusalCode) (e : ReturnEntry) : Flow s (State.displaceOne c t e) :=
  ((h.modBin _ _).modItem _ _).report _ _ _

theorem Flow.displaceAt (h : Flow s t) (n : Nat) (c : RefusalCode) (st : Nat) : Flow s (t.displaceAt n c st) := by
  unfold State.displaceAt
  split
  · exact h
  · exact (h.foldl _ _ fun t e h => h.displaceOne c e).modStation _ _ (hr := fun x => List.length_filter_le _ _)

theorem Flow.displaceAll (h : Flow s t) (n : Nat) (c : RefusalCode) : Flow s (t.displaceAll n c) :=
  h.foldl _ _ fun _ st h => h.displaceAt n c st

theorem Flow.enterLoss (h : Flow s t) (n : Nat) (v : BinState) (c : Option Code) : Flow s (t.enterLoss n v c) :=
  (((((h.setBinState n v).modBin n _).report _ _ _).failRequests _ _)).displaceAll _ _

theorem Flow.enterDoubt (h : Flow s t) (n : Nat) : Flow s (t.enterDoubt n) := by
  unfold State.enterDoubt
  split
  · exact h
  · exact h.enterLoss _ _ _

theorem Flow.clearTrip (h : Flow s t) (n : Nat) : Flow s (t.clearTrip n) := h.modBin n _
theorem Flow.clearPending (h : Flow s t) (n : Nat) : Flow s (t.clearPending n) := h.modBin n _

theorem Flow.callBin (h : Flow s t) (n st : Nat) (p : Purpose) : Flow s (t.callBin n st p) := by
  unfold State.callBin
  split
  · exact h
  · exact (h.addJob _ _).modBin _ _

theorem Flow.followOn (h : Flow s t) (n : Nat) : Flow s (t.followOn n) := by
  unfold State.followOn
  split
  · exact h
  · have k := h.modBin n (fun b => { b with next := none })
    simp only
    split
    · exact k.callBin _ _ _
    · split
      · exact k.callBin _ _ _
      · exact k

theorem Flow.binStored (h : Flow s t) (n : Nat) : Flow s (t.binStored n) :=
  ((h.setBinState n _).report _ _ _).followOn n

theorem Flow.uncallBin (h : Flow s t) (n : Nat) : Flow s (t.uncallBin n) := by
  unfold State.uncallBin
  split
  · exact ((h.setBinState n _).clearTrip n).followOn n
  · exact h

theorem Flow.judgeRead (h : Flow s t) (n : Nat) : Flow s (t.judgeRead n) := by
  unfold State.judgeRead
  split
  · exact h.enterLoss _ _ _
  · exact h

theorem Flow.unexpectedBin (h : Flow s t) (l : Nat) (c : Option Code) : Flow s (t.unexpectedBin l c) := h.report _ _ _

/-! ### Lanes -/

theorem Flow.sendPresent (h : Flow s t) (st : Nat) : Flow s (t.sendPresent st) := by
  unfold State.sendPresent
  split
  · exact h
  · exact h.sendStation _ _

theorem Flow.offerPresent (h : Flow s t) (st : Nat) : Flow s (t.offerPresent st) := by
  unfold State.offerPresent
  split
  · exact h.sendPresent st
  · exact h

theorem Flow.readyOne (h : Flow s t) (st : Nat) (r : Request) : Flow s (State.readyOne st t r) := h.reportRequest _ _ _

theorem foldl_readyOne_requests (st : Nat) (l : List Request) (t : State) :
    (l.foldl (State.readyOne st) t).requests = t.requests := by
  induction l generalizing t with
  | nil => rfl
  | cons r l ih => exact (ih _).trans rfl

theorem Flow.markPresented (h : Flow s t) (st n : Nat) : Flow s (t.markPresented st n) := by
  unfold State.markPresented
  refine (h.foldl _ _ fun t r h => h.readyOne st r).setRequests _ ?_
  rw [foldl_readyOne_requests, List.length_map]

theorem Flow.presentTop (h : Flow s t) (st : Nat) : Flow s (t.presentTop st) := by
  unfold State.presentTop
  split
  · exact h
  · exact ((h.report _ _ _).markPresented _ _).offerPresent _

theorem Flow.endPresentation (h : Flow s t) (st : Nat) : Flow s (t.endPresentation st) := by
  unfold State.endPresentation
  split
  · exact h
  · exact h.setRequests _ (by rw [List.length_map])

theorem Flow.pushPlace (h : Flow s t) (st : Nat) (p : Place) : Flow s (t.pushPlace st p) :=
  (h.endPresentation st).modStation st _

theorem Flow.removeFromLane (h : Flow s t) (n st : Nat) : Flow s (t.removeFromLane n st) := by
  unfold State.removeFromLane
  split
  · exact h
  · split
    · have k : Flow s (if decide (t.presentedBin st = some n) then t.endPresentation st else t) := by
        split
        · exact h.endPresentation st
        · exact h
      have k := k.modStation st (fun x => x.dropBin n)
      simp only
      split
      · exact k.presentTop st
      · exact k
    · exact h

theorem Flow.removeTransit (h : Flow s t) (n st : Nat) : Flow s (t.removeTransit n st) :=
  h.modStation st _

theorem Flow.endHold (h : Flow s t) (st : Nat) : Flow s (t.endHold st) :=
  h.modStation st _

theorem Flow.refuseScan (h : Flow s t) (st : Nat) (c : ScanCode) : Flow s (t.refuseScan st c) := h.sendStation _ _

/-! ### The Dispatcher (Jobs) -/

theorem Flow.startJob (h : Flow s t) (a : Nat) (x : Aisle) (j : Job) (p : Point) : Flow s (t.startJob a x j p) :=
  (h.modCrane a _).sendCrane a _

theorem Flow.dequeue (h : Flow s t) (a : Nat) (j : Job) : Flow s (t.dequeue a j) :=
  h.modQueue a (fun q => q.erase j) fun q => storesFirst_erase j q

theorem Flow.activateNext (h : Flow s t) (a : Nat) : Flow s (t.activateNext a) := by
  unfold State.activateNext
  split
  · exact h
  · split
    · exact h
    · exact (h.dequeue _ _).startJob _ _ _ _

theorem Flow.offerStage (h : Flow s t) (a : Nat) : Flow s (t.offerStage a) := by
  unfold State.offerStage
  split
  · exact h
  · split
    · split
      · exact h
      · exact ((h.dequeue _ _).modCrane _ _).sendCrane _ _
    · exact h

theorem Flow.activatePark (h : Flow s t) (a : Nat) : Flow s (t.activatePark a) := by
  unfold State.activatePark
  split
  · exact h
  · split
    · exact h
    · split
      · exact ((h.dequeue _ _).modCrane _ _).sendCrane _ _
      · exact h

theorem Flow.resume (h : Flow s t) (a : Nat) : Flow s (t.resume a) := by
  unfold State.resume
  split
  · exact h
  · split
    · exact h
    · split
      · exact ((h.modCrane _ _).liftBin _).sendCrane _ _
      · exact h

theorem Flow.lookAisle (h : Flow s t) (a : Nat) : Flow s (t.lookAisle a) := by
  unfold State.lookAisle
  split
  · exact h
  · split
    · refine Flow.offerStage ?_ a
      split
      · exact h.resume a
      · exact h.activateNext a
    · exact h.activatePark a
    · exact h.offerStage a
    all_goals exact h

theorem Flow.lookAll (h : Flow s t) : Flow s t.lookAll := h.foldl _ _ fun _ a h => h.lookAisle a

theorem Flow.withdrawStaged (h : Flow s t) (tell : Bool) (a : Nat) : Flow s (t.withdrawStaged tell a) := by
  unfold State.withdrawStaged
  split
  · exact h
  · split
    · exact h
    · have k := fun j => (h.modCrane a fun c => { c with staged := none }).returnJob a j
      simp only
      split
      · exact (k _).sendCrane _ _
      · exact k _

theorem Flow.withdrawIneligible (h : Flow s t) (a : Nat) : Flow s (t.withdrawIneligible a) := by
  unfold State.withdrawIneligible
  split
  · exact h
  · split
    · exact h
    · split
      · exact h
      · exact h.withdrawStaged _ _

theorem Flow.withdrawAll (h : Flow s t) : Flow s t.withdrawAll := h.foldl _ _ fun _ a h => h.withdrawIneligible a

theorem Flow.takeOut (h : Flow s t) (a : Nat) : Flow s (t.takeOut a) := (h.modCrane a _).setService a _

theorem Flow.nextAfter (h : Flow s t) (a : Nat) (p : Point) : Flow s (t.nextAfter a p) := by
  unfold State.nextAfter
  split
  · exact h
  · split
    · exact (h.modCrane _ _).startJob _ _ _ _
    · split
      · exact h.takeOut a
      · exact h.modCrane _ _

theorem Flow.endJob (h : Flow s t) (a : Nat) (p : Point) : Flow s (t.endJob a p) := by
  unfold State.endJob
  split
  · exact h
  · simp only
    split
    · exact (h.modCrane _ _).nextAfter _ _
    · exact h.modCrane _ _

theorem Flow.dropQueuedPark (h : Flow s t) (a : Nat) : Flow s (t.dropQueuedPark a) :=
  h.modQueue a (fun q => q.filter fun j => !decide (j.kind = .park)) fun q => storesFirst_filter _ q

theorem Flow.createPark (h : Flow s t) (a : Nat) : Flow s (t.createPark a) := (h.modCrane a _).addJob a _

theorem Flow.endDraining (h : Flow s t) (a : Nat) : Flow s (t.endDraining a) := by
  unfold State.endDraining
  split
  · exact h
  · split
    · exact h.takeOut a
    · exact h

theorem Flow.unaccountedLoad (h : Flow s t) (a l : Nat) : Flow s (t.unaccountedLoad a l) :=
  (((h.judgeRead l).unexpectedBin l _).modCrane a _).takeOut a

/-! ### Stops, losses and faults (Faults) -/

theorem Flow.stopCrane (h : Flow s t) (a : Nat) : Flow s (t.stopCrane a) :=
  (((h.withdrawStaged false a).dropQueuedPark a).modCrane a _).sendCrane a _

theorem Flow.dropJob (h : Flow s t) (j : Job) : Flow s (t.dropJob j) := by
  unfold State.dropJob
  split
  · exact h
  · rename_i n _
    have k : Flow s (if j.kind = .transfer then t.clearPending n else t) := by
      split
      · exact h.clearPending n
      · exact h
    simp only
    split
    · exact k
    · refine Flow.enterDoubt ?_ n
      split
      · exact k.clearTrip n
      · exact k

theorem Flow.settleLost (h : Flow s t) (a : Nat) (j : Job) (back : Bool) : Flow s (t.settleLost a j back) := by
  unfold State.settleLost
  split
  · exact h.returnJob a j
  · exact h.dropJob j

theorem Flow.settleActive (h : Flow s t) (a : Nat) (c : Crane) : Flow s (t.settleActive a c) := by
  unfold State.settleActive
  split
  · exact h
  · exact h.settleLost _ _ _

theorem Flow.settleRecord (h : Flow s t) (a : Nat) (c : Crane) : Flow s (t.settleRecord a c) := by
  unfold State.settleRecord
  split
  · exact h
  · exact h.settleLost _ _ _

theorem Flow.haltCrane (h : Flow s t) (a : Nat) : Flow s (t.haltCrane a) := by
  unfold State.haltCrane
  split
  · exact h
  · split
    case h_1 | h_2 | h_3 => exact (h.stopCrane a).modCrane a _
    case h_4 => exact h.modCrane a _
    all_goals exact h

theorem Flow.haltCranes (h : Flow s t) : Flow s t.haltCranes := h.foldl _ _ fun _ a h => h.haltCrane a

theorem within_faultTagAfter (n : Nat) : within 1 Config.maxFaultTag (faultTagAfter n) = true := by
  unfold faultTagAfter
  split
  · decide
  · rename_i h
    simp only [ge_iff_le, Nat.not_le] at h
    simp only [within, Bool.and_eq_true, decide_eq_true_eq]
    omega

/-- A fault state that is not HALTED is written lawfully (R178, R179, R181). -/
theorem Flow.setFaults (h : Flow s t) (f : FaultUnit) (hn : t.faults.state ≠ .halted)
    (hf : t.faults.lawful = true → f.lawful = true) : Flow s (t.setFaults f) :=
  h.trans { Flow.refl t with halted := fun k => absurd k hn, faults := hf }

theorem Flow.raise (h : Flow s t) (f : Raised) : Flow s (t.raise f) := by
  unfold State.raise
  simp only
  split
  · rename_i hs
    refine (h.setFaults _ (by simp [hs]) ?_).report _ _ _
    intro k
    simp only [FaultUnit.lawful, hs, Bool.and_eq_true, Option.isNone_iff_eq_none] at k ⊢
    have hh : t.faults.haltedLine = false := by simpa using k.1.2
    simp [k.1.1.2, within_faultTagAfter, hh]
  · rename_i hs
    refine (((h.setFaults _ (by simp [hs]) ?_).report _ _ _).haltCranes).report _ _ _
    intro k
    simp only [FaultUnit.lawful, hs, Bool.and_eq_true] at k ⊢
    simp [k.1.1.1, within_faultTagAfter]
  · exact h.report _ _ _

theorem Flow.loseCrane (h : Flow s t) (a : Nat) (k : FaultKind) : Flow s (t.loseCrane a k) := by
  unfold State.loseCrane
  split
  · exact h
  · exact (((((((h.sendCrane a _).withdrawStaged false a).settleActive a _).settleRecord a _).dropQueuedPark a).modCrane
      a _).setService a _).raise _

theorem Flow.loseIdleOutOfService (h : Flow s t) (a : Nat) : Flow s (t.loseIdleOutOfService a) := (h.modCrane a _).raise _

theorem Flow.holdLane (h : Flow s t) (st : Nat) : Flow s (t.holdLane st) :=
  (h.modStation st _).withdrawAll

/-! ### Zones -/

theorem Flow.shutdownCrane (h : Flow s t) (a : Nat) : Flow s (t.shutdownCrane a) := by
  unfold State.shutdownCrane
  split
  · exact h
  · split
    case h_1 | h_2 => exact h.stopCrane a
    case h_3 => exact (h.stopCrane a).modCrane a _
    case h_4 =>
      split
      · exact h.modCrane a _
      · exact h
    case h_5 => exact h.modCrane a _
    all_goals exact h

theorem Flow.startClose (h : Flow s t) (n : Nat) : Flow s (t.startClose n) := by
  unfold State.startClose
  split
  · exact h
  · split
    case h_1 | h_2 =>
      split
      · exact h.modShutter n _
      · exact (h.modShutter n _).sendShutter n _
    case h_3 => exact h.sendShutter n _
    all_goals exact h

theorem Flow.shutdownStation (h : Flow s t) (st : Nat) : Flow s (t.shutdownStation st) :=
  ((h.sendStation st _).sendStation st _).modStation st _

theorem Flow.entryActions (h : Flow s t) (z : Nat) : Flow s (t.entryActions z) :=
  (((h.foldl _ _ fun _ n h => h.shutdownStation n).foldl _ _ fun _ a h => h.shutdownCrane a).foldl _ _ fun _ n h =>
    h.startClose n)

theorem Flow.enterShutdown (h : Flow s t) (z : Nat) : Flow s (t.enterShutdown z) := by
  unfold State.enterShutdown
  split
  case h_1 | h_2 | h_3 => exact ((h.modZone z _).setZoneState z _).entryActions z
  all_goals exact h

theorem Flow.parkStopped (h : Flow s t) (a : Nat) : Flow s (t.parkStopped a) := by
  unfold State.parkStopped
  split
  · exact h
  · split
    · exact h.createPark a
    · exact h

theorem Flow.restoreShutter (h : Flow s t) (n : Nat) : Flow s (t.restoreShutter n) := by
  unfold State.restoreShutter
  split
  · exact h
  · split
    case h_1 | h_2 => exact (h.modShutter n _).sendShutter n _
    case h_3 => exact h.sendShutter n _
    case h_4 => exact h.modShutter n _
    all_goals exact h

theorem Flow.enterRestoring (h : Flow s t) (z : Nat) : Flow s (t.enterRestoring z) :=
  ((h.setZoneState z _).foldl _ _ fun _ n h => h.restoreShutter n).foldl _ _ fun _ a h => h.parkStopped a

theorem Flow.dropRecord (h : Flow s t) (a : Nat) : Flow s (t.dropRecord a) := h.modCrane a _

theorem Flow.dropAndAudit (h : Flow s t) (a : Nat) (j : Job) : Flow s (t.dropAndAudit a j) := by
  unfold State.dropAndAudit
  split
  · exact h
  · simp only
    split
    · exact h.dropJob j
    · exact (h.dropJob j).addJob a _

theorem Flow.resolveRecord (h : Flow s t) (a : Nat) : Flow s (t.resolveRecord a) := by
  unfold State.resolveRecord
  split
  · exact h
  · split
    · exact h
    · split
      · exact h
      · split
        · exact ((h.dropRecord a).returnJob a _).endDraining a
        · split
          · exact ((h.dropRecord a).returnJob a _).endDraining a
          · exact ((h.dropRecord a).dropAndAudit a _).endDraining a
      · split
        · exact h
        · split
          · exact ((h.dropRecord a).returnJob a _).unaccountedLoad a _
          · exact ((h.dropRecord a).dropJob _).unaccountedLoad a _

theorem Flow.resumeStation (h : Flow s t) (st : Nat) : Flow s (t.resumeStation st) :=
  ((h.sendStation st _).sendPresent st).modStation st _

theorem Flow.normalActions (h : Flow s t) (z : Nat) : Flow s (t.normalActions z) :=
  (h.foldl _ _ fun _ n h => h.resumeStation n).foldl _ _ fun _ a h => h.resolveRecord a

theorem Flow.completeRestoration (h : Flow s t) (z : Nat) : Flow s (t.completeRestoration z) := by
  unfold State.completeRestoration
  dsimp only
  split
  · exact (((h.setZoneState z _).turnAlert z).normalActions z).reportZone z _
  · exact (h.setZoneState z _).normalActions z

theorem Flow.judgeZone (h : Flow s t) (z : Nat) : Flow s (t.judgeZone z) := by
  unfold State.judgeZone
  split
  · split
    · exact h.setZoneState z _
    · exact h
  · split
    · exact h.completeRestoration z
    · exact h
  · exact h

theorem Flow.judgeZones (h : Flow s t) : Flow s t.judgeZones := h.foldl _ _ fun _ z h => h.judgeZone z

theorem Flow.settleWing (h : Flow s t) : Flow s t.settleWing := (h.judgeZones.withdrawAll).lookAll

end Sys2Proof.Machine
end

