-- ==== Sys2Proof/Laws/FlowTelegrams.lean ====
section
/-! SUPPORT. Every field telegram and every expiry is a `Flow`, and so is every lending, bin and aisle event that an order
makes, but for the taking of an item. -/
namespace Sys2Proof.Machine

-- One proof after another: run at once, the proofs wait for each other on a thread each.
set_option Elab.async false

variable {s t : State}

theorem Flow.ite {p : Prop} [Decidable p] {a b : State} (ha : Flow s a) (hb : Flow s b) : Flow s (if p then a else b) := by
  split
  · exact ha
  · exact hb

/-! ### Admission -/

theorem Flow.admission (h : Flow s t) (src k : Nat) (r : Role) (take : State → Nat → State)
    (ht : ∀ n, Flow s (take t n)) : Flow s (t.admission src k r take) := by
  unfold State.admission
  split
  · exact h
  · exact .ite h (.ite (ht _) (h.fieldProtocol _ _))

/-! ### Crane telegrams -/

theorem Flow.outOfTurn (h : Flow s t) (a k : Nat) : Flow s (t.outOfTurn a k) := h.fieldProtocol _ _

theorem Flow.judgePhase (h : Flow s t) (a : Nat) (c : Crane) (j : Job) (p : Phase) : Flow s (t.judgePhase a c j p) :=
  .ite (.ite ((h.modCrane a _).liftBin j) (h.modCrane a _)) (h.fieldProtocol _ _)

theorem Flow.takePhase (h : Flow s t) (p : Phase) (b l a : Nat) : Flow s (State.takePhase p b l t a) := by
  unfold State.takePhase
  split
  · exact h
  · simp only
    split
    · exact h.modCrane a _
    · exact .ite (h.modCrane a _) ((h.modCrane a _).judgePhase _ _ _ _)

theorem Flow.retrieveDone (h : Flow s t) (n st l : Nat) : Flow s (t.retrieveDone n st l) :=
  .ite h (((h.setBinState n _).modBin n _).modStation st _)

theorem Flow.settleDone (h : Flow s t) (j : Job) (l : Nat) : Flow s (t.settleDone j l) := by
  unfold State.settleDone
  split
  · exact h
  · split
    · split
      · exact h
      · exact h.retrieveDone _ _ _
    · exact .ite h (h.binStored _)
    · exact .ite (h.modBin _ _) ((h.modBin _ _).binStored _)
    · exact h
    · exact h

theorem Flow.takeDone (h : Flow s t) (a : Nat) : Flow s (State.takeDone t a) := by
  unfold State.takeDone
  split
  · exact h
  · refine .ite h ?_
    split
    · exact h.outOfTurn _ _
    · exact .ite ((((h.liftBin _).settleDone _ _).endJob _ _).settleWing) (h.outOfTurn _ _)

theorem Flow.settleAbandon (h : Flow s t) (j : Job) (r : PickReason) : Flow s (t.settleAbandon j r) := by
  unfold State.settleAbandon
  split
  · exact h
  · split
    · exact .ite h ((h.clearTrip _).enterLoss _ _ _)
    · exact .ite (h.clearPending _) ((h.clearPending _).enterLoss _ _ _)
    · exact .ite h (h.enterLoss _ _ _)
    · exact h
    · exact h

theorem Flow.abandon (h : Flow s t) (a : Nat) (j : Job) (r : PickReason) : Flow s (t.abandon a j r) :=
  (((h.sendCrane a _).settleAbandon j r).endJob a _).settleWing

theorem Flow.retryPick (h : Flow s t) (a : Nat) (g : Geometry) (o : Int × Int) : Flow s (t.retryPick a g o) :=
  (h.modCrane a _).sendCrane a _

theorem Flow.takePickFailed (h : Flow s t) (r : PickReason) (a : Nat) : Flow s (State.takePickFailed r t a) := by
  unfold State.takePickFailed
  split
  · exact h
  · refine .ite h ?_
    split
    · exact h.outOfTurn _ _
    · refine .ite ?_ (h.outOfTurn _ _)
      split
      · exact h.retryPick _ _ _
      · exact h.abandon _ _ _

theorem Flow.settleAudit (h : Flow s t) (n : Nat) (r : Reading) : Flow s (t.settleAudit n r) := by
  unfold State.settleAudit
  split
  · exact .ite h (h.enterLoss _ _ _)
  · refine .ite (.ite h (h.binStored _)) ?_
    exact ((Flow.ite h (h.enterLoss _ _ _)).judgeRead _).unexpectedBin _ _

theorem Flow.settleAuditJob (h : Flow s t) (j : Job) (r : Reading) : Flow s (t.settleAuditJob j r) := by
  unfold State.settleAuditJob
  split
  · exact h
  · exact h.settleAudit _ _

theorem Flow.takeAuditResult (h : Flow s t) (r : Reading) (a : Nat) : Flow s (State.takeAuditResult r t a) := by
  unfold State.takeAuditResult
  split
  · exact h
  · refine .ite h ?_
    split
    · exact h.outOfTurn _ _
    · exact .ite (((h.settleAuditJob _ _).endJob _ _).settleWing) (h.outOfTurn _ _)

theorem Flow.parkIfRestoring (h : Flow s t) (a z : Nat) : Flow s (t.parkIfRestoring a z) := .ite (h.parkStopped a) h

theorem Flow.takeStopped (h : Flow s t) (p : Phase) (l f : Bool) (a : Nat) : Flow s (State.takeStopped p l f t a) := by
  unfold State.takeStopped
  split
  · exact h
  · split
    case h_4 | h_5 | h_6 => exact h.outOfTurn _ _
    case h_7 => exact (((h.modCrane a _).endDraining a).parkIfRestoring a _).settleWing
    all_goals exact h

theorem Flow.parkEnds (h : Flow s t) (a : Nat) (x : Aisle) (r : Reading) : Flow s (t.parkEnds a x r) := by
  unfold State.parkEnds
  simp only
  split
  · exact (h.modCrane a _).modCrane a _
  · split
    · exact (h.modCrane a _).endDraining a
    · exact (h.modCrane a _).unaccountedLoad a _

theorem Flow.parkEndsStopping (h : Flow s t) (a : Nat) (x : Aisle) (r : Reading) : Flow s (t.parkEndsStopping a x r) := by
  unfold State.parkEndsStopping
  simp only
  split
  · exact (h.modCrane a _).unaccountedLoad a _
  · exact h.modCrane a _

theorem Flow.takeParked (h : Flow s t) (r : Reading) (a : Nat) : Flow s (State.takeParked r t a) := by
  unfold State.takeParked
  split
  · exact h
  · refine .ite h (.ite ?_ (h.outOfTurn _ _))
    split
    · exact (h.parkEnds _ _ _).settleWing
    · exact (h.parkEndsStopping _ _ _).settleWing
    · exact h.outOfTurn _ _

theorem Flow.takeCraneFault (h : Flow s t) (a : Nat) : Flow s (State.takeCraneFault t a) := by
  unfold State.takeCraneFault
  split
  · exact h
  · split
    · exact h
    · exact (h.loseIdleOutOfService a).settleWing
    · exact (h.loseCrane a _).settleWing

/-! ### Arrivals -/

theorem Flow.dropQueuedNaming (h : Flow s t) (n a : Nat) : Flow s (t.dropQueuedNaming n a) := by
  unfold State.dropQueuedNaming
  split
  · exact h
  · have k := h.modQueue a (fun q => q.filter fun j => !j.names n) fun q => storesFirst_filter _ q
    exact .ite (k.clearPending n) k

theorem Flow.dropStagedNaming (h : Flow s t) (n a : Nat) : Flow s (t.dropStagedNaming n a) := by
  unfold State.dropStagedNaming
  split
  · exact h
  · exact .ite (.ite (((h.modCrane a _).sendCrane a _).clearPending n) ((h.modCrane a _).sendCrane a _)) h

theorem Flow.takeFromElsewhere (h : Flow s t) (n st : Nat) : Flow s (t.takeFromElsewhere n st) :=
  (((h.foldl _ _ fun _ o h => (h.removeFromLane n o).removeTransit n o).foldl _ _ fun _ a h =>
    h.dropQueuedNaming n a).foldl _ _ fun _ a h => h.dropStagedNaming n a)

theorem Flow.setTrip (h : Flow s t) (n st : Nat) : Flow s (t.setTrip n st) := h.modBin n _

theorem Flow.arriveOnTime (h : Flow s t) (st n : Nat) : Flow s (t.arriveOnTime st n) :=
  ((((h.removeTransit n st).pushPlace st _).setBinState n _).leaveOverdue n).presentTop st

theorem Flow.arriveLate (h : Flow s t) (st n : Nat) : Flow s (t.arriveLate st n) :=
  ((((((h.takeFromElsewhere n st).leaveOverdue n).pushPlace st _).setBinState n _).setTrip n st).report _ _ _).presentTop
    st

theorem Flow.arriveUnexpected (h : Flow s t) (st n : Nat) : Flow s (t.arriveUnexpected st n) :=
  (((((h.takeFromElsewhere n st).leaveOverdue n).pushPlace st _).setTrip n st).enterDoubt n).unexpectedBin n _

theorem Flow.arriveTray (h : Flow s t) (st l : Nat) : Flow s (t.arriveTray st l) := (h.pushPlace st _).unexpectedBin l _

theorem Flow.turnAway (h : Flow s t) (st n : Nat) : Flow s (t.turnAway st n) :=
  ((((h.takeFromElsewhere n st).removeTransit n st).leaveOverdue n).clearTrip n).enterDoubt n

theorem Flow.arriveFull (h : Flow s t) (st l : Nat) : Flow s (t.arriveFull st l) :=
  ((Flow.ite (h.turnAway st l) h).holdLane st).raise _

theorem Flow.judgeArrival (h : Flow s t) (st l : Nat) (x : Station) : Flow s (t.judgeArrival st l x) :=
  .ite (.ite (h.arriveFull _ _) (h.arriveOnTime _ _))
    (.ite (.ite (h.arriveFull _ _) (h.arriveLate _ _))
      (.ite (.ite ((h.removeFromLane _ _).arriveFull _ _) ((h.removeFromLane _ _).arriveUnexpected _ _))
        (.ite (h.arriveFull _ _) (h.arriveTray _ _))))

theorem Flow.takeArrival (h : Flow s t) (l st : Nat) : Flow s (State.takeArrival l t st) := by
  unfold State.takeArrival
  split
  · exact h
  · exact ((h.endHold st).judgeArrival st l _).settleWing

/-! ### Lending events -/

theorem Flow.endRequest (h : Flow s t) (i : Nat) : Flow s (t.endRequest i) := h.setRequests _ (List.length_filter_le _ _)

theorem Flow.lend (h : Flow s t) (i : Nat) : Flow s (t.lend i) := by
  unfold State.lend
  simp only
  split
  · exact (h.modItem i _).endRequest i
  · exact ((h.modBin _ _).modItem i _).endRequest i

theorem Flow.withhold (h : Flow s t) (i : Nat) : Flow s (t.withhold i) := (h.modItem i _).endRequest i

theorem Flow.dropStaged (h : Flow s t) (a : Nat) : Flow s (t.dropStaged a) := by
  unfold State.dropStaged
  split
  · exact h
  · split
    · exact h
    · exact (h.modCrane a _).sendCrane a _

theorem Flow.settleTrip (h : Flow s t) (n st : Nat) : Flow s (t.settleTrip n st) := by
  unfold State.settleTrip
  refine .ite h ?_
  split
  · exact ((h.modQueue _ (fun q => q.filter fun j => !servesTrip n st j) fun q => storesFirst_filter _ q).uncallBin n).settleWing
  · split
    · exact ((h.dropStaged _).uncallBin n).settleWing
    · exact h.modBin n _ (fun b => by split <;> exact ⟨rfl, rfl⟩)

theorem Flow.withdraw (h : Flow s t) (r : Request) : Flow s (t.withdraw r) := by
  unfold State.withdraw
  have k := (h.endRequest r.item).modItem r.item fun i => { i with state := .shelved }
  have k := Flow.ite (p := r.state = .presented) (k.offerPresent r.station) k
  simp only
  split
  · exact k
  · exact k.settleTrip _ _

/-! ### Scans -/

theorem Flow.pickItem (h : Flow s t) (st i n : Nat) (r : Request) : Flow s (t.pickItem st i n r) :=
  (((h.modItem i _).modBin n _).setRequests _ (by rw [List.length_map])).reportRequest _ _ _

theorem Flow.scan_ite {p : Prop} [Decidable p] {a b : Scanned} (ha : Flow s a.state) (hb : Flow s b.state) :
    Flow s (if p then a else b).state := by
  split
  · exact ha
  · exact hb

theorem Flow.refusedScan (h : Flow s t) (st : Nat) (c : ScanCode) : Flow s (t.refusedScan st c).state := h.refuseScan st c

theorem Flow.scanOut (h : Flow s t) (i st : Nat) (x : Station) : Flow s (State.scanOut i t st x).state := by
  unfold State.scanOut
  split
  · exact h.refusedScan _ _
  · split
    · exact .scan_ite (h.refusedScan _ _)
        (.scan_ite (h.refusedScan _ _) (.scan_ite (h.refusedScan _ _) (h.pickItem _ _ _ _)))
    · exact h.refusedScan _ _

theorem Flow.shelveItem (h : Flow s t) (st i n : Nat) : Flow s (t.shelveItem st i n) :=
  (((h.modItem i _).modBin n _).modStation st _ (hr := fun _ => List.length_filter_le _ _)).report _ _ _

theorem Flow.scanIn (h : Flow s t) (i st : Nat) (x : Station) : Flow s (State.scanIn i t st x).state := by
  unfold State.scanIn
  split
  · exact h.refusedScan _ _
  · split
    · exact h.refusedScan _ _
    · exact .scan_ite (h.refusedScan _ _) (.scan_ite (h.refusedScan _ _) (.scan_ite (h.refusedScan _ _)
        (.scan_ite (h.refusedScan _ _) (h.shelveItem _ _ _))))

theorem Flow.bringTarget (h : Flow s t) (st n : Nat) : Flow s (t.bringTarget st n).state := by
  unfold State.bringTarget
  split
  · exact h
  · split
    · exact Flow.ite (h.offerPresent _) h
    · exact h.callBin _ _ _
    · exact h.modBin _ _

/-- An accepted return adds one entry to the station's return queue, below the 8 that R124 admits. -/
theorem Flow.acceptReturn (h : Flow s t) (st i n r : Nat) {x : Station} (hx : t.stations.look st = some x)
    (hl : x.returns.length < Config.returnCapacity) : Flow s (t.acceptReturn st i n r).state := by
  have k := (h.modItem i (fun i => { i with state := .returning, target := some n })).modBin n fun b => b.reserve r
  have k2 : Flow s (((t.modItem i fun i => { i with state := .returning, target := some n }).modBin n fun b =>
      b.reserve r).modStation st fun x => { x with returns := x.returns ++ [{ item := i, target := n }] }) :=
    k.trans
      { Flow.refl _ with
        loaded := by
          simp only [State.loaded, State.modStation]
          rw [Table.map_adjust]; intro v; rfl
        returns := fun q => by
          have q : (t.stations.all fun e => decide (e.2.returns.length ≤ Config.returnCapacity)) = true := q
          show ((t.stations.adjust st _).all _) = true
          clear k h
          generalize t.stations = l at hx q
          induction l with
          | nil => rfl
          | cons e l ih =>
            obtain ⟨m, w⟩ := e
            simp only [List.all_cons, Bool.and_eq_true, decide_eq_true_eq] at q
            by_cases hm : m = st
            · subst hm
              simp only [Table.look, if_true, Option.some.injEq] at hx
              subst hx
              simp only [Table.adjust, if_true, List.all_cons, List.length_append, List.length_cons, List.length_nil,
                Bool.and_eq_true, decide_eq_true_eq]
              exact ⟨by omega, q.2⟩
            · simp only [Table.look, hm, if_false] at hx
              simp only [Table.adjust, hm, if_false, List.all_cons, Bool.and_eq_true, decide_eq_true_eq]
              exact ⟨q.1, ih hx q.2⟩ }
  exact (k2.report _ _ _).bringTarget st n

theorem Flow.overflowItem (h : Flow s t) (st i : Nat) : Flow s (t.overflowItem st i) := (h.modItem i _).report _ _ _

theorem Flow.releaseHeld (h : Flow s t) (i : Item) : Flow s (t.releaseHeld i) := by
  unfold State.releaseHeld
  split
  · exact h.modBin _ _
  · exact h

theorem Flow.scanReturn (h : Flow s t) (i st : Nat) {x y : Station} (hy : t.stations.look st = some y)
    (hr : y.returns.length = x.returns.length) : Flow s (State.scanReturn i t st x).state := by
  unfold State.scanReturn
  split
  · exact h.refusedScan _ _
  · split
    · exact h.refusedScan _ _
    · rename_i it _ _ hc
      have hl : y.returns.length < Config.returnCapacity := by
        simp only [State.returnRefusal] at hc
        split at hc <;> [cases hc; skip]
        split at hc <;> [cases hc; skip]
        split at hc
        · cases hc
        · omega
      split
      · exact h.acceptReturn _ _ _ _ hy hl
      · have hy2 : (t.releaseHeld it).stations.look st = some y := by
          have : (t.releaseHeld it).stations = t.stations := by unfold State.releaseHeld; split <;> rfl
          rw [this]; exact hy
        unfold State.selectReturn
        split
        · exact (h.releaseHeld it).acceptReturn _ _ _ _ hy2 hl
        · exact (h.releaseHeld it).overflowItem _ _

theorem foldl_delayOne_requests (st : Nat) (l : List Request) (t : State) :
    (l.foldl (State.delayOne st) t).requests = t.requests := by
  induction l generalizing t with
  | nil => rfl
  | cons r l ih => exact (ih _).trans rfl

theorem Flow.delayRequests (h : Flow s t) (n st : Nat) : Flow s (t.delayRequests n st) := by
  unfold State.delayRequests
  refine (h.foldl _ (State.delayOne st) fun t r h => h.reportRequest _ _ _).setRequests _ ?_
  rw [foldl_delayOne_requests, List.length_map]

theorem Flow.settleLeftOver (h : Flow s t) (n st : Nat) : Flow s (t.settleLeftOver n st) := by
  unfold State.settleLeftOver
  refine .ite ?_ h
  split
  · exact (h.modBin n _).delayRequests n st
  · exact .ite (h.delayRequests n st) ((h.failRequests _ _).displaceAt _ _ _)

theorem Flow.popLane (h : Flow s t) (st : Nat) : Flow s (t.popLane st) := h.modStation st _

theorem Flow.createStore (h : Flow s t) (n st : Nat) : Flow s (t.createStore n st) := by
  unfold State.createStore
  split
  · exact h
  · exact h.addJob _ _

theorem Flow.releaseToStore (h : Flow s t) (n st : Nat) : Flow s (t.releaseToStore n st) :=
  ((((h.popLane st).settleLeftOver n st).setBinState n _).clearTrip n).createStore n st

theorem Flow.afterPop (h : Flow s t) (st : Nat) : Flow s (t.afterPop st).state := h.presentTop st

theorem Flow.topDone (h : Flow s t) (n st : Nat) : Flow s (t.topDone n st).state :=
  .scan_ite (h.refusedScan _ _) (.scan_ite (h.refusedScan _ _)
    (.scan_ite (h.refusedScan _ _) ((h.releaseToStore _ _).afterPop _)))

theorem Flow.scanDone (h : Flow s t) (l st : Nat) (x : Station) : Flow s (State.scanDone l t st x).state :=
  .scan_ite ((h.popLane st).afterPop st)
    (.scan_ite (h.topDone _ _)
      (.scan_ite (h.refusedScan _ _) (.scan_ite (h.refusedScan _ _) (h.refusedScan _ _))))

theorem Flow.takeScan (h : Flow s t) (k : ScanKind) (body : State → Nat → Station → Scanned) (st : Nat)
    (hb : ∀ x, t.stations.look st = some x → Flow s (body (t.endHold st) st x).state) :
    Flow s (State.takeScan k body t st) := by
  unfold State.takeScan
  split
  · exact h
  · rename_i x hx
    have hs : Flow s (match (t.endHold st).scanRefusal k x with
        | some c => (t.endHold st).refusedScan st c
        | none => body (t.endHold st) st x).state := by
      split
      · exact (h.endHold st).refusedScan _ _
      · exact hb x hx
    exact .ite hs.settleWing hs

/-! ### Station, shutter and concentrator telegrams -/

theorem Flow.setMouth (h : Flow s t) (st : Nat) (o : Bool) : Flow s (t.setMouth st o) := h.modStation st _

theorem Flow.closeWaiting (h : Flow s t) (n : Nat) : Flow s (t.closeWaiting n) := by
  unfold State.closeWaiting
  split
  · exact h
  · exact .ite ((h.modShutter n _).sendShutter n _) h

theorem Flow.takeMouthClear (h : Flow s t) (st : Nat) : Flow s (State.takeMouthClear t st) := by
  unfold State.takeMouthClear
  split
  · exact h.setMouth _ _
  · exact (h.setMouth _ _).closeWaiting _

theorem Flow.takeStationFault (h : Flow s t) (st : Nat) : Flow s (State.takeStationFault t st) := by
  unfold State.takeStationFault
  split
  · exact h
  · exact ((h.holdLane st).raise _).settleWing

theorem Flow.takeTerminalKey (h : Flow s t) (l : List Byte) (st : Nat) : Flow s (State.takeTerminalKey l t st) :=
  .ite (h.passUp _ _) h

theorem Flow.takeClosed (h : Flow s t) (n : Nat) : Flow s (State.takeClosed t n) := by
  unfold State.takeClosed
  split
  · exact h
  · exact (Flow.ite ((h.modShutter n _).sendShutter n _) (h.modShutter n _)).settleWing

theorem Flow.unsecure (h : Flow s t) (z : Nat) : Flow s (t.unsecure z) := .ite (h.setZoneState z _) h

theorem Flow.takeOpened (h : Flow s t) (n : Nat) : Flow s (State.takeOpened t n) := by
  unfold State.takeOpened
  split
  · exact h
  · refine Flow.settleWing ?_
    split
    · exact ((h.modShutter n _).unsecure _).startClose n
    · exact ((h.modShutter n _).unsecure _).startClose n
    · exact h.modShutter n _

theorem Flow.takeJammed (h : Flow s t) (n : Nat) : Flow s (State.takeJammed t n) := by
  unfold State.takeJammed
  split
  · exact h
  · exact .ite h ((((h.modShutter n _).unsecure _).raise _).settleWing)

theorem Flow.setHealth (h : Flow s t) (n : Nat) (c : Concentrator) (v : Health) : Flow s (t.setHealth n c v) :=
  .ite (h.modConcentrator n _) ((h.modConcentrator n _).report _ _ _)

theorem Flow.afterAlert (h : Flow s t) (u : State) (z : Nat) : Flow s (u.afterAlert t z) := .ite h h.settleWing

theorem Flow.takeBeat (h : Flow s t) (k n : Nat) : Flow s (State.takeBeat k t n) := by
  unfold State.takeBeat
  split
  · exact h
  · exact (((h.setHealth n _ _).modConcentrator n _).reformCauses _).afterAlert _ _

theorem Flow.withDetector (h : Flow s t) (n d : Nat) (take : State → Concentrator → State)
    (ht : ∀ c, Flow s (take t c)) : Flow s (t.withDetector n d take) := by
  unfold State.withDetector
  split
  · exact h
  · exact .ite (ht _) (h.fieldProtocol _ _)

theorem Flow.setDetector (h : Flow s t) (n d : Nat) (v : Condition) : Flow s (t.setDetector n d v) :=
  h.modConcentrator n _

theorem Flow.fireIn (h : Flow s t) (z : Nat) : Flow s (t.fireIn z) := ((h.formCauses z).enterShutdown z).settleWing

theorem Flow.takePrealarm (h : Flow s t) (d n : Nat) : Flow s (State.takePrealarm d t n) := by
  refine h.withDetector n d _ fun c => ?_
  simp only
  split
  · exact h
  · exact h
  · exact .ite ((h.setDetector n d _).fireIn _) (((h.setDetector n d _).reformCauses _).afterAlert _ _)

theorem Flow.takeAlarm (h : Flow s t) (d n : Nat) : Flow s (State.takeAlarm d t n) :=
  h.withDetector n d _ fun _ => (h.setDetector n d _).fireIn _

theorem Flow.takeClear (h : Flow s t) (d n : Nat) : Flow s (State.takeClear d t n) := by
  refine h.withDetector n d _ fun c => ?_
  simp only
  split
  · exact h
  · exact ((h.modConcentrator n _).reformCauses _).afterAlert _ _

theorem Flow.takeTrouble (h : Flow s t) (d n : Nat) : Flow s (State.takeTrouble d t n) := by
  refine h.withDetector n d _ fun c => ?_
  split
  · exact h
  · exact ((h.setDetector n d _).reformCauses _).afterAlert _ _

/-! ### Expiries -/

theorem Flow.whileInService (h : Flow s t) (f : State → State) (hf : Flow s (f t)) : Flow s (t.whileInService f) :=
  .ite hf h

theorem Flow.craneDeadlineExpires (h : Flow s t) (a : Nat) : Flow s (t.craneDeadlineExpires a) := by
  unfold State.craneDeadlineExpires
  split
  · exact h
  · exact .ite (h.loseCrane a _).settleWing h

theorem Flow.overrun (h : Flow s t) (st n : Nat) : Flow s (t.overrun st n) :=
  (((h.removeTransit n st).clearTrip n).enterDoubt n).modStation st _

theorem Flow.inTransitExpires (h : Flow s t) (st n : Nat) : Flow s (t.inTransitExpires st n) := by
  unfold State.inTransitExpires
  split
  · exact h
  · exact .ite ((h.overrun st n).raise _).settleWing h

theorem Flow.confirmExpires (h : Flow s t) (k : Nat) : Flow s (t.confirmExpires k) := by
  unfold State.confirmExpires
  split
  · exact h
  · exact .ite ((h.withhold _).reportRequest _ _ _) h

theorem Flow.alertExpires (h : Flow s t) (z : Nat) : Flow s (t.alertExpires z) := by
  unfold State.alertExpires
  split
  · exact h
  · exact .ite (.ite (((h.modZone z _).setZoneState z _).settleWing) (h.modZone z _)) h

theorem Flow.supervisionExpires (h : Flow s t) (n : Nat) : Flow s (t.supervisionExpires n) := by
  unfold State.supervisionExpires
  split
  · exact h
  · exact .ite ((((h.setHealth n _ _).modConcentrator n _).reformCauses _).afterAlert _ _) h

theorem Flow.lockOut (h : Flow s t) (st : Nat) : Flow s (t.lockOut st) := by
  unfold State.lockOut
  split
  · exact h
  · exact (h.endPresentation st).setBinState _ _

theorem Flow.shutterWaitExpires (h : Flow s t) (n : Nat) : Flow s (t.shutterWaitExpires n) := by
  unfold State.shutterWaitExpires
  split
  · exact h
  · refine .ite ?_ h
    have k := (h.modShutter n fun h => { h with state := .closing, wait := none }).sendShutter n (.closeShutter true)
    simp only
    split
    · exact k
    · exact k.lockOut _

theorem Flow.stopWaitExpires (h : Flow s t) (a : Nat) : Flow s (t.stopWaitExpires a) := by
  unfold State.stopWaitExpires
  split
  · exact h
  · exact .ite (h.loseCrane a _).settleWing h

end Sys2Proof.Machine
end

