-- ==== Sys2Proof/Laws/Frames.lean ====
section
/-! SUPPORT. The small lemmas of frames and timers: how many bytes a field takes, what the frame of a field telegram holds,
which numbers name an order, and when a timer has run out. -/
namespace Sys2Proof.Machine

/-! ### Bytes -/

@[simp] theorem bytesOf_length (w n : Nat) : (bytesOf w n).length = w := by
  induction w with
  | zero => rfl
  | succ w ih => simp [bytesOf, ih]

@[simp] theorem Field.bytes_num_length (w n : Nat) : (Field.num w n).bytes.length = w := by simp [Field.bytes]

@[simp] theorem Field.bytes_none (w : Nat) : (Field.opt w none).bytes = [0#8] := rfl

@[simp] theorem Field.bytes_some_length (w n : Nat) : (Field.opt w (some n)).bytes.length = w + 1 := by simp [Field.bytes]

@[simp] theorem Field.bytes_data (l : List Byte) : (Field.data l).bytes = l := rfl

@[simp] theorem fieldBytes_nil : fieldBytes [] = [] := rfl

@[simp] theorem fieldBytes_cons (f : Field) (l : List Field) : fieldBytes (f :: l) = f.bytes ++ fieldBytes l := by
  simp [fieldBytes]

@[simp] theorem fieldBytes_append (l m : List Field) : fieldBytes (l ++ m) = fieldBytes l ++ fieldBytes m := by
  simp [fieldBytes]

@[simp] theorem markField_length (b : Bool) : (markField b).bytes.length = 1 := by simp [markField]

@[simp] theorem offsetField_length (n : Int) : (offsetField n).bytes.length = 1 := by simp [offsetField]

/-- An offset of -40..+40 mm and its byte say the same (R69). -/
theorem offsetField_injective (m n : Int) (hm : -40 ≤ m) (hm' : m ≤ 40) (hn : -40 ≤ n) (hn' : n ≤ 40)
    (h : offsetField m = offsetField n) : m = n := by
  simp only [offsetField, Field.num.injEq, true_and] at h
  omega

/-- The bytes that the check covers: seven and the body (R186). -/
@[simp] theorem Frame.covered_length (f : Frame) : f.covered.length = 7 + f.body.length := by
  simp [Frame.covered]; omega

@[simp] theorem Frame.bytes_length (f : Frame) : f.bytes.length = 10 + f.body.length := by
  simp [Frame.bytes]; omega

/-! ### The frame of a field telegram -/

@[simp] theorem fieldFrame_destination (a : Nat) (t : FieldTelegram) : (fieldFrame a t).destination = a := rfl
@[simp] theorem fieldFrame_source (a : Nat) (t : FieldTelegram) : (fieldFrame a t).source = 0 := rfl
@[simp] theorem fieldFrame_cls (a : Nat) (t : FieldTelegram) : (fieldFrame a t).cls = 6 := rfl
@[simp] theorem fieldFrame_kind (a : Nat) (t : FieldTelegram) : (fieldFrame a t).kind = t.number := rfl
@[simp] theorem fieldFrame_tag (a : Nat) (t : FieldTelegram) : (fieldFrame a t).tag = 0 := rfl
@[simp] theorem fieldFrame_body (a : Nat) (t : FieldTelegram) : (fieldFrame a t).body = fieldBytes t.fields := rfl

/-- What `sendTo` does: a telegram to a device with an address joins the field list as its frame. -/
theorem Link.sendTo_field (l : Link) (ad : Option Nat) (t : FieldTelegram) :
    (l.sendTo ad t).field = l.field ++ (ad.map fun a => fieldFrame a t).toList := by
  cases ad <;> simp [Link.sendTo]

/-! ### Order kinds (R186, R187) -/

/-- An order's kind number names that order. -/
@[simp] theorem OrderKind.ofNumber_number (k : OrderKind) : OrderKind.ofNumber k.number = some k := by
  cases k <;> rfl

/-- The numbers 1..20 name an order, and no other does. -/
theorem OrderKind.ofNumber_isSome (n : Nat) : (OrderKind.ofNumber n).isSome = within 1 20 n := by
  rw [Bool.eq_iff_iff]
  simp only [OrderKind.ofNumber, List.find?_isSome, decide_eq_true_eq, within, Bool.and_eq_true]
  constructor
  · rintro ⟨o, -, rfl⟩
    cases o <;> simp [OrderKind.number]
  · rintro ⟨h, h'⟩
    interval_cases n <;> simp [OrderKind.all, OrderKind.number]

/-! ### Timers (R44; log 2, log 3) -/

@[simp] theorem runsOut_iff (n : Nat) : runsOut n = true ↔ n ≤ 1 := by simp [runsOut]

@[simp] theorem Deadline.out_iff (d : Deadline) : d.out = true ↔ d.running = true ∧ d.left ≤ 1 := by simp [Deadline.out]

/-- A timer that is not at its last ds falls by one and does not run out. -/
theorem fall_of_not_runsOut (n : Nat) (h : runsOut n = false) : fall n + 1 = n := by
  simp only [runsOut, decide_eq_false_iff_not] at h
  rw [fall, if_neg h]
  omega

/-- A crane deadline expires in a BUSY, PARKING or STOPPING crane, running and run out. -/
theorem Crane.overdue_iff (c : Crane) :
    c.overdue = true ↔
      (c.state = .busy ∨ c.state = .parking ∨ c.state = .stopping)
        ∧ ∃ d, c.deadline = some d ∧ d.running = true ∧ d.left ≤ 1 := by
  cases h : c.state <;> simp [Crane.overdue, h, Option.any_eq_true]

end Sys2Proof.Machine
end

