-- ==== Sys2Proof/Laws/OrderLaws.lean ====
section
/-! SUPPORT. The way of an order to its own rule: the circulation port, the checks of R187, and the reply. -/
namespace Sys2Proof.Machine

theorem portOpen_iff (s : State) : s.portOpen = true ↔
    s.link.replies.length < Config.replyCapacity ∧ s.link.restartPending = false ∧ s.link.waiting = [] := by
  simp [State.portOpen, and_assoc]

theorem atPort_of_portOpen {s : State} (h : s.portOpen = true) (i : Instr) (take : State → State) :
    s.atPort i take = take s := by
  rw [portOpen_iff] at h
  simp [State.atPort, State.portShut, h.2.1, h.2.2, Nat.not_le.2 h.1]

theorem order_of_portOpen {s : State} (h : s.portOpen = true) (i : Instr) (take : State → State) :
    s.order i take = .next (take s) := by rw [State.order, atPort_of_portOpen h]

theorem orderRefusal_eq_none {s : State} {k : OrderKind} {tag : Nat} (ht : tag ≠ 0)
    (hh : s.isHalted = false ∨ k.takenInHalted = true) (hm : s.isInService = true ∨ k.wingWork = false) :
    s.orderRefusal k tag true = none := by
  rcases hh with hh | hh <;> rcases hm with hm | hm <;> simp [State.orderRefusal, ht, hh, hm]

theorem judgeOrder_of_pass {s : State} {k : OrderKind} {tag : Nat} (ht : tag ≠ 0)
    (hh : s.isHalted = false ∨ k.takenInHalted = true) (hm : s.isInService = true ∨ k.wingWork = false)
    (rule : State → Verdict) : s.judgeOrder k tag true rule = s.answer tag (rule s) := by
  rw [State.judgeOrder, orderRefusal_eq_none ht hh hm]

/-- A list of checks refuses nothing exactly when none of them fails. -/
theorem firstRefusal_eq_none (l : List (Bool × RefusalCode)) : firstRefusal l = none ↔ ∀ e ∈ l, e.1 = false := by
  induction l with
  | nil => simp [firstRefusal]
  | cons e l ih =>
    obtain ⟨b, c⟩ := e
    cases b <;> simp [firstRefusal, ih]

theorem receives_iff (s : State) (tag : Nat) : s.receives tag = true ↔ s.portOpen = true ∧ tag ≠ 0 := by
  simp [State.receives]

theorem receivesWork_iff (s : State) (tag : Nat) : s.receivesWork tag = true ↔
    s.portOpen = true ∧ tag ≠ 0 ∧ s.isInService = true ∧ s.isHalted = false := by
  simp [State.receivesWork, State.receives, State.atWork, and_assoc]

theorem order_work {s : State} {tag : Nat} (h : s.receivesWork tag = true) (i : Instr) (k : OrderKind)
    (rule : State → Verdict) : s.order i (fun s => s.judgeOrder k tag true rule) = .next (s.answer tag (rule s)) := by
  rw [receivesWork_iff] at h
  rw [order_of_portOpen h.1, judgeOrder_of_pass h.2.1 (.inl h.2.2.2) (.inl h.2.2.1)]

/-- LOAD_RECORD and the other orders that are no wing work, on a wing that is not HALTED. -/
theorem order_load {s : State} {tag : Nat} (h : s.receives tag = true) (hh : s.isHalted = false) (i : Instr)
    {k : OrderKind} (hk : k.wingWork = false) (rule : State → Verdict) :
    s.order i (fun s => s.judgeOrder k tag true rule) = .next (s.answer tag (rule s)) := by
  rw [receives_iff] at h
  rw [order_of_portOpen h.1, judgeOrder_of_pass h.2 (.inl hh) (.inr hk)]

/-- The orders that are taken in every mode and state (R183). -/
theorem order_always {s : State} {tag : Nat} (h : s.receives tag = true) (i : Instr) {k : OrderKind}
    (hh : k.takenInHalted = true) (hk : k.wingWork = false) (rule : State → Verdict) :
    s.order i (fun s => s.judgeOrder k tag true rule) = .next (s.answer tag (rule s)) := by
  rw [receives_iff] at h
  rw [order_of_portOpen h.1, judgeOrder_of_pass h.2 (.inr hh) (.inr hk)]

/-- An admitted field telegram is handed to its block. -/
theorem admit_of_admits {s : State} {src : Nat} {r : Role} {n : Nat} (h : s.admits src r n = true) (k : Nat)
    (take : State → Nat → State) : s.admission src k r take = take s n := by
  simp only [State.admits, State.isInService, Bool.and_eq_true, decide_eq_true_eq] at h
  simp [State.admission, h.2, h.1]

end Sys2Proof.Machine
end

