-- ==== Sys2Proof/Laws/Keeps.lean ====
section
/-! SUPPORT. What the orders share with the events of the wing: `Keeps s t` says that every law which held of `s` holds of
`t`. Every `Flow` keeps them; each order's own rule has one lemma. -/
namespace Sys2Proof.Machine

-- One proof after another: run at once, the proofs wait for each other on a thread each.
set_option Elab.async false

/-- Each law that held still holds. -/
structure Keeps (s t : State) : Prop where
  faults : s.faults.lawful = true → t.faults.lawful = true
  secured : s.securedLawful = true → t.securedLawful = true
  urgent : s.link.urgent.length ≤ Config.urgentCapacity → t.link.urgent.length ≤ Config.urgentCapacity
  routine : s.link.routine.length ≤ Config.routineCapacity → t.link.routine.length ≤ Config.routineCapacity
  returns : (s.stations.all fun e => decide (e.2.returns.length ≤ Config.returnCapacity)) = true →
    (t.stations.all fun e => decide (e.2.returns.length ≤ Config.returnCapacity)) = true
  requests : s.requests.length ≤ Config.requestCapacity → t.requests.length ≤ Config.requestCapacity
  stores : s.queuesLawful = true → t.queuesLawful = true
  tables : s.tablesLawful = true → t.tablesLawful = true
  jobTag : within 1 Config.maxTag s.nextJob = true → within 1 Config.maxTag t.nextJob = true
  requestTag : within 1 Config.maxTag s.nextRequest = true → within 1 Config.maxTag t.nextRequest = true

theorem Keeps.refl (s : State) : Keeps s s := ⟨id, id, id, id, id, id, id, id, id, id⟩

theorem Keeps.trans {s t u : State} (h : Keeps s t) (k : Keeps t u) : Keeps s u where
  faults := fun x => k.faults (h.faults x)
  secured := fun x => k.secured (h.secured x)
  urgent := fun x => k.urgent (h.urgent x)
  routine := fun x => k.routine (h.routine x)
  returns := fun x => k.returns (h.returns x)
  requests := fun x => k.requests (h.requests x)
  stores := fun x => k.stores (h.stores x)
  tables := fun x => k.tables (h.tables x)
  jobTag := fun x => k.jobTag (h.jobTag x)
  requestTag := fun x => k.requestTag (h.requestTag x)

theorem wf_congr {α β : Type} {t : Table α} {u : Table β} (h : u.numbers = t.numbers) : u.wf = t.wf := by
  rw [Table.wf_eq, Table.wf_eq, h]

theorem numbers_of_map {α β : Type} {t u : Table α} (f : Nat × α → Nat × β) (hf : ∀ e, (f e).1 = e.1)
    (h : u.map f = t.map f) : u.numbers = t.numbers := by
  have := congrArg (List.map Prod.fst) h
  simpa [List.map_map, Function.comp_def, hf, Table.numbers] using this

theorem Flow.tables {s t : State} (h : Flow s t) : t.tablesLawful = s.tablesLawful := by
  have hl := h.loaded
  have hs := h.setup
  simp only [State.loaded, Loaded.mk.injEq] at hl
  simp only [State.setup, Setup.mk.injEq] at hs
  have h1 := numbers_of_map (fun e : Nat × Aisle => (e.1, e.2.geom, e.2.retry)) (fun _ => rfl) hl.1
  have h2 := numbers_of_map (fun e : Nat × Station => (e.1, e.2.loaded)) (fun _ => rfl) hl.2.1
  have h3 := numbers_of_map (fun e : Nat × Zone => (e.1, e.2.window)) (fun _ => rfl) hl.2.2.1
  have h4 := numbers_of_map (fun e : Nat × Concentrator => (e.1, e.2.address, e.2.zone, e.2.period)) (fun _ => rfl) hl.2.2.2.1
  have h5 := numbers_of_map (fun e : Nat × Shutter => (e.1, e.2.address, e.2.zone)) (fun _ => rfl) hl.2.2.2.2
  have h6 := numbers_of_map (fun e : Nat × Bin => (e.1, e.2.capacity, e.2.sizeClass)) (fun _ => rfl) h.bins
  have h7 := numbers_of_map (fun e : Nat × Item => (e.1, e.2.thickness, e.2.sizeClass)) (fun _ => rfl) h.items
  simp only [State.tablesLawful, wf_congr h1, wf_congr h2, wf_congr h3, wf_congr h4, wf_congr h5, wf_congr h6, wf_congr h7,
    hs.2.2.2.1, hs.2.2.2.2.1]

theorem Flow.keeps {s t : State} (h : Flow s t) : Keeps s t where
  faults := h.faults
  secured := h.secured
  urgent := h.urgent
  routine := h.routine
  returns := h.returns
  requests := fun k => Nat.le_trans h.requests k
  stores := h.stores
  tables := fun k => h.tables.trans k
  jobTag := h.jobTag
  requestTag := fun k => by
    have hs := h.setup
    simp only [State.setup, Setup.mk.injEq] at hs
    rw [hs.2.2.2.2.2.2.2.2.1]; exact k

variable {s t : State}

/-! ### Updates that only orders make -/

theorem Keeps.reply (h : Keeps s t) (r : Reply) : Keeps s (t.reply r) := h.trans { Keeps.refl t with }
theorem Keeps.setLink (h : Keeps s t) (l : Link) (hu : l.urgent = t.link.urgent) (hr : l.routine = t.link.routine) :
    Keeps s (t.setLink l) :=
  h.trans
    { Keeps.refl t with
      urgent := fun k => by rw [State.setLink_link, hu]; exact k
      routine := fun k => by rw [State.setLink_link, hr]; exact k }
theorem Keeps.setKeyLine (h : Keeps s t) (k : Bool) : Keeps s (t.setKeyLine k) := h.trans { Keeps.refl t with }
theorem Keeps.setMode (h : Keeps s t) (m : Mode) : Keeps s (t.setMode m) := h.trans { Keeps.refl t with }
theorem Keeps.setFirePanel (h : Keeps s t) (p : Bool) : Keeps s (t.setFirePanel p) := h.trans { Keeps.refl t with }
theorem Keeps.setSettings (h : Keeps s t) (v : Settings) : Keeps s (t.setSettings v) := h.trans { Keeps.refl t with }

/-- A change of tables alone, whose working parts and numbers keep the laws. -/
theorem Keeps.tablesOnly (h : Keeps s t) (u : State) (hf : u.faults = t.faults) (hz : t.securedLawful = true → u.securedLawful = true)
    (hu : u.link.urgent = t.link.urgent) (hr : u.link.routine = t.link.routine)
    (hst : (t.stations.all fun e => decide (e.2.returns.length ≤ Config.returnCapacity)) = true →
      (u.stations.all fun e => decide (e.2.returns.length ≤ Config.returnCapacity)) = true)
    (hq : t.queuesLawful = true → u.queuesLawful = true) (ht : t.tablesLawful = true → u.tablesLawful = true)
    (hreq : u.requests = t.requests) (hj : u.nextJob = t.nextJob) (hn : u.nextRequest = t.nextRequest) : Keeps s u :=
  h.trans
    { faults := fun k => by rw [hf]; exact k
      secured := hz
      urgent := fun k => by rw [hu]; exact k
      routine := fun k => by rw [hr]; exact k
      returns := hst
      requests := fun k => by rw [hreq]; exact k
      stores := hq
      tables := ht
      jobTag := fun k => by rw [hj]; exact k
      requestTag := fun k => by rw [hn]; exact k }

/-! ### Orders: judgement and reply -/

/-- What a verdict does to the state that it answers. -/
def Verdict.keeps (s : State) : Verdict → Prop
  | .accept t _ => Keeps s t
  | .refuse _ _ => True

theorem Keeps.answer (h : Keeps s t) {v : Verdict} (hv : v.keeps t) (tag : Nat) : Keeps s (t.answer tag v) := by
  cases v with
  | accept u r => exact (h.trans hv).reply _
  | refuse c d => exact h.reply _

theorem Keeps.judgeOrder (h : Keeps s t) (k : OrderKind) (tag : Nat) (ok : Bool) (rule : State → Verdict)
    (hr : (rule t).keeps t) : Keeps s (t.judgeOrder k tag ok rule) := by
  unfold State.judgeOrder
  split
  · exact h.reply _
  · exact h.answer hr tag

theorem keeps_refuseOr {v : Verdict} (c : Option RefusalCode) (h : v.keeps s) : (refuseOr c v).keeps s := by
  cases c with
  | none => exact h
  | some c => trivial

theorem keeps_found (r : Option Result) (c : RefusalCode) : (found s r c).keeps s := by
  cases r with
  | none => trivial
  | some r => exact .refl s

theorem keeps_ite {p : Prop} [Decidable p] {v w : Verdict} (hv : p → v.keeps s) (hw : ¬ p → w.keeps s) :
    (if p then v else w).keeps s := by
  split
  · exact hv ‹_›
  · exact hw ‹_›

theorem keeps_badFieldUnless (ok : Bool) {v : Verdict} (h : ok = true → v.keeps s) : (badFieldUnless ok v).keeps s := by
  unfold badFieldUnless
  exact keeps_ite h fun _ => trivial

theorem keeps_lockedInService {v : Verdict} (h : v.keeps s) : (s.lockedInService v).keeps s :=
  keeps_ite (fun _ => trivial) fun _ => h

/-! ### REQUEST_ITEM -/

theorem Keeps.takeItem (h : Keeps s t) (order st item : Nat)
    (hl : t.requests.length ≤ Config.requestCapacity → t.requests.length < Config.requestCapacity) :
    Keeps s (t.takeItem order st item) := by
  unfold State.takeItem
  split
  · exact h
  · split
    · exact h
    · rename_i n _ _ b _
      simp only
      have k1 : Keeps s ((t.modItem item fun i => { i with state := .requested }).setNextRequest (tagAfter t.requestTag)) :=
        (h.trans ((Flow.refl t).modItem item fun i => { i with state := .requested }).keeps).trans
          { Keeps.refl _ with requestTag := fun _ => within_tagAfter _ }
      have k2 : Keeps s (((t.modItem item fun i => { i with state := .requested }).setNextRequest
          (tagAfter t.requestTag)).setRequests (t.requests ++ [t.newRequest order st item n b])) :=
        h.trans
          { Keeps.trans (((Flow.refl t).modItem item fun i => { i with state := .requested }).keeps)
              { Keeps.refl ((t.modItem item fun i => { i with state := .requested })) with } with
            requests := fun k => by
              have := hl k
              simp only [State.setRequests_requests, List.length_append, List.length_cons, List.length_nil]
              omega
            requestTag := fun _ => within_tagAfter _ }
      have k3 : ∀ u r, Flow u (u.travelFor st n b r) := by
        intro u r
        unfold State.travelFor
        split
        · exact .ite (((Flow.refl u).readyOne st r).offerPresent st) (.refl u)
        · exact ((Flow.refl u).callBin n st .request).lookAll
        · exact ((Flow.refl u).modBin n _).reportRequest _ _ _
      exact k2.trans (k3 _ _).keeps

theorem listFull_of_requestRefusal {st item : Nat} (h : t.requestRefusal st item = none) :
    t.requests.length < Config.requestCapacity := by
  have key : ∀ x b, t.requestBinRefusal x st b = none → t.requests.length < Config.requestCapacity := by
    intro x b hb
    unfold State.requestBinRefusal at hb
    rw [firstRefusal_eq_none] at hb
    have := hb (decide (Config.requestCapacity ≤ t.requests.length), .listFull) (by simp)
    simpa using this
  unfold State.requestRefusal at h
  repeat' (split at h <;> [cases h; skip])
  all_goals exact key _ _ h

theorem keeps_requestItems (order st : Nat) (items : List Nat) (s : State) :
    (s.requestItems order st items).keeps s := by
  show Keeps s (items.foldl (requestOne order st) (s, [])).1
  suffices h : ∀ acc : State × List (Option RefusalCode × Nat), Keeps s acc.1 →
      Keeps s (items.foldl (requestOne order st) acc).1 from h (s, []) (.refl s)
  induction items with
  | nil => exact fun _ h => h
  | cons i l ih =>
    intro acc h
    refine ih _ ?_
    unfold requestOne
    split
    · exact h
    · rename_i hc
      exact h.takeItem order st i fun _ => listFull_of_requestRefusal hc

/-! ### The other orders of wing work -/

theorem keeps_accept (h : Keeps s t) (r : Result) : (Verdict.accept t r).keeps s := h

theorem keeps_callVerdict (s : State) (n st : Nat) (x : Station) (b : Bin) : (s.callVerdict n st x b).keeps s := by
  unfold State.callVerdict
  refine keeps_ite (fun _ => trivial) fun _ => keeps_ite (fun _ => trivial) fun _ => keeps_ite (fun _ => ?_) fun _ => ?_
  · refine (Keeps.refl s).tablesOnly _ rfl id rfl rfl id ?_ ?_ rfl rfl rfl
    · exact fun k => Table.all_mapRecords s.aisles (fun _ x => x.markCall n st) _ k fun _ v hv =>
        storesFirst_map (Job.markCall n st) (fun j => by unfold Job.markCall; split <;> rfl) v.queue hv
    · exact fun k => by
        simp only [State.tablesLawful, State.setAisles] at *
        rw [wf_congr (Table.numbers_mapRecords _ _)]; exact k
  · exact keeps_refuseOr _ ((Flow.refl s).callBin n st .call).settleWing.keeps

theorem Flow.moveBinTo (h : Flow s t) (n : Nat) (v w : Slot) : Flow s (t.moveBinTo n v w) := (h.modBin n _).addJob _ _

theorem Flow.auditBin (h : Flow s t) (n : Nat) (b : Bin) : Flow s (t.auditBin n b) :=
  (Flow.ite (h.modBin n _) h).addJob _ _

theorem Flow.releaseBin (h : Flow s t) (n : Nat) : Flow s (t.releaseBin n) := by
  have k := h.setBinState n .inLane
  show Flow s (match (t.setBinState n .inLane).laneOf n with
    | none => t.setBinState n .inLane
    | some st => if (t.setBinState n .inLane).presentedBin st = some n then (t.setBinState n .inLane).presentTop st
        else t.setBinState n .inLane)
  split
  · exact k
  · exact .ite (k.presentTop _) k

theorem Flow.aisleOut (h : Flow s t) (a : Nat) (x : Aisle) : Flow s (t.aisleOut a x) := by
  unfold State.aisleOut
  split
  · exact h
  · exact h
  · exact .ite (((h.dropQueuedPark a).modCrane a _).takeOut a).settleWing (h.setService a _).settleWing

theorem Flow.aisleIn (h : Flow s t) (a : Nat) (x : Aisle) : Flow s (t.aisleIn a x) := by
  unfold State.aisleIn
  have k := (h.setService a .inService).modCrane a fun c => { c with position := none }
  refine Flow.settleWing ?_
  split
  · exact (k.modCrane a _).sendCrane a _
  · exact (k.modCrane a _).sendCrane a _
  · exact k.createPark a

/-! ### Tables -/

theorem Keeps.setClasses_put (h : Keeps s t) (k : Nat) (c : ReportClass) : Keeps s (t.setClasses (t.classes.put k c)) :=
  h.tablesOnly _ rfl id rfl rfl id id (fun w => by
    simp only [State.tablesLawful, State.setClasses, Bool.and_eq_true] at *
    simp only [w, Table.wf_put, and_self]) rfl rfl rfl

theorem Keeps.setAddresses_put (h : Keeps s t) (k : Nat) (d : Device) : Keeps s (t.setAddresses (t.addresses.put k d)) :=
  h.tablesOnly _ rfl id rfl rfl id id (fun w => by
    simp only [State.tablesLawful, State.setAddresses, Bool.and_eq_true] at *
    simp only [w, Table.wf_put, and_self]) rfl rfl rfl

theorem Keeps.setAddresses_remove (h : Keeps s t) (k : Nat) : Keeps s (t.setAddresses (t.addresses.remove k)) :=
  h.tablesOnly _ rfl id rfl rfl id id (fun w => by
    simp only [State.tablesLawful, State.setAddresses, Bool.and_eq_true] at *
    simp only [w, Table.wf_remove, and_self]) rfl rfl rfl

theorem Keeps.setBins_put (h : Keeps s t) (k : Nat) (b : Bin) : Keeps s (t.setBins (t.bins.put k b)) :=
  h.tablesOnly _ rfl id rfl rfl id id (fun w => by
    simp only [State.tablesLawful, State.setBins, Bool.and_eq_true] at *
    simp only [w, Table.wf_put, and_self]) rfl rfl rfl

theorem Keeps.setBins_remove (h : Keeps s t) (k : Nat) : Keeps s (t.setBins (t.bins.remove k)) :=
  h.tablesOnly _ rfl id rfl rfl id id (fun w => by
    simp only [State.tablesLawful, State.setBins, Bool.and_eq_true] at *
    simp only [w, Table.wf_remove, and_self]) rfl rfl rfl

theorem Keeps.modBin (h : Keeps s t) (k : Nat) (f : Bin → Bin) : Keeps s (t.modBin k f) :=
  h.tablesOnly _ rfl id rfl rfl id id (fun w => by
    simp only [State.tablesLawful, State.modBin, Bool.and_eq_true] at *
    simp only [w, wf_congr (Table.numbers_adjust _ _ _), and_self]) rfl rfl rfl

theorem Keeps.setItems_put (h : Keeps s t) (k : Nat) (i : Item) : Keeps s (t.setItems (t.items.put k i)) :=
  h.tablesOnly _ rfl id rfl rfl id id (fun w => by
    simp only [State.tablesLawful, State.setItems, Bool.and_eq_true] at *
    simp only [w, Table.wf_put, and_self]) rfl rfl rfl

theorem Keeps.setItems_remove (h : Keeps s t) (k : Nat) : Keeps s (t.setItems (t.items.remove k)) :=
  h.tablesOnly _ rfl id rfl rfl id id (fun w => by
    simp only [State.tablesLawful, State.setItems, Bool.and_eq_true] at *
    simp only [w, Table.wf_remove, and_self]) rfl rfl rfl

theorem Keeps.modItem (h : Keeps s t) (k : Nat) (f : Item → Item) : Keeps s (t.modItem k f) :=
  h.tablesOnly _ rfl id rfl rfl id id (fun w => by
    simp only [State.tablesLawful, State.modItem, Bool.and_eq_true] at *
    simp only [w, wf_congr (Table.numbers_adjust _ _ _), and_self]) rfl rfl rfl

theorem Keeps.modHome (h : Keeps s t) (i : Item) (f : Bin → Bin) : Keeps s (t.modHome i f) := by
  unfold State.modHome
  split
  · exact h
  · exact h.modBin _ _

theorem Keeps.modAisle (h : Keeps s t) (a : Nat) (f : Aisle → Aisle) (hf : ∀ x, (f x).queue = x.queue) :
    Keeps s (t.modAisle a f) :=
  h.tablesOnly _ rfl id rfl rfl id
    (fun k => Table.all_adjust _ _ _ _ k fun v hv => by
      show storesFirst (f v).queue = true
      rw [hf]; exact hv)
    (fun w => by
      simp only [State.tablesLawful, State.modAisle, Bool.and_eq_true] at *
      simp only [w, wf_congr (Table.numbers_adjust _ _ _), and_self]) rfl rfl rfl

theorem Keeps.setAisles_put (h : Keeps s t) (a : Nat) (x : Aisle) (hx : x.queue = []) :
    Keeps s (t.setAisles (t.aisles.put a x)) :=
  h.tablesOnly _ rfl id rfl rfl id
    (fun k => Table.all_put _ _ _ _ k (by show storesFirst x.queue = true; rw [hx]; rfl))
    (fun w => by
      simp only [State.tablesLawful, State.setAisles, Bool.and_eq_true] at *
      simp only [w, Table.wf_put, and_self]) rfl rfl rfl

theorem Keeps.storeStation (h : Keeps s t) (st : Nat) (f : StationFields) : Keeps s (t.storeStation st f) := by
  unfold State.storeStation
  split
  · exact h.tablesOnly _ rfl id rfl rfl (fun k => Table.all_adjust _ _ _ _ k fun _ hv => hv) id (fun w => by
      simp only [State.tablesLawful, State.modStation, Bool.and_eq_true] at *
      simp only [w, wf_congr (Table.numbers_adjust _ _ _), and_self]) rfl rfl rfl
  · exact h.tablesOnly _ rfl id rfl rfl (fun k => Table.all_put _ _ _ _ k rfl) id (fun w => by
      simp only [State.tablesLawful, State.setStations, Bool.and_eq_true] at *
      simp only [w, Table.wf_put, and_self]) rfl rfl rfl

theorem securedLevel_put_normal (t : Table Zone) (z : Nat) (x : Zone) (hx : x.state = .normal) (hz : t.look z = none) :
    securedLevel (t.put z x) = securedLevel t := by
  have h : ∀ p : ZoneState → Bool, p .normal = false →
      ((t.put z x).any fun e => p e.2.state) = t.any fun e => p e.2.state := by
    intro p hp
    induction t with
    | nil => simp [Table.put, hx, hp]
    | cons e t ih =>
      obtain ⟨k, v⟩ := e
      simp only [Table.look] at hz
      split at hz
      · cases hz
      · rename_i hk
        simp only [Table.put, hk, if_false]
        split
        · simp [hx, hp]
        · simp [ih hz]
  unfold securedLevel
  rw [h (fun v => decide (v = .secured)) rfl, h (fun v => decide (v = .shutdown)) rfl]

theorem Keeps.storeZone (h : Keeps s t) (z w : Nat) : Keeps s (t.storeZone z w) := by
  unfold State.storeZone
  split
  · refine h.tablesOnly _ rfl ?_ rfl rfl id id (fun w => by
      simp only [State.tablesLawful, State.modZone, Bool.and_eq_true] at *
      simp only [w, wf_congr (Table.numbers_adjust _ _ _), and_self]) rfl rfl rfl
    intro k
    rw [securedLawful_iff] at *
    exact k.trans (securedLevel_adjust t.zones z (fun x => { x with window := w }) fun _ => rfl).symm
  · rename_i hz
    refine h.tablesOnly _ rfl ?_ rfl rfl id id (fun w => by
      simp only [State.tablesLawful, State.setZones, Bool.and_eq_true] at *
      simp only [w, Table.wf_put, and_self]) rfl rfl rfl
    intro k
    rw [securedLawful_iff] at *
    exact k.trans (securedLevel_put_normal _ _ _ rfl hz).symm

theorem Keeps.storeConcentrator (h : Keeps s t) (n a z p : Nat) : Keeps s (t.storeConcentrator n a z p) := by
  unfold State.storeConcentrator
  split
  · exact h.tablesOnly _ rfl id rfl rfl id id (fun w => by
      simp only [State.tablesLawful, State.modConcentrator, Bool.and_eq_true] at *
      simp only [w, wf_congr (Table.numbers_adjust _ _ _), and_self]) rfl rfl rfl
  · exact h.tablesOnly _ rfl id rfl rfl id id (fun w => by
      simp only [State.tablesLawful, State.setConcentrators, Bool.and_eq_true] at *
      simp only [w, Table.wf_put, and_self]) rfl rfl rfl

theorem Keeps.storeShutter (h : Keeps s t) (n a z : Nat) : Keeps s (t.storeShutter n a z) := by
  unfold State.storeShutter
  split
  · exact h.tablesOnly _ rfl id rfl rfl id id (fun w => by
      simp only [State.tablesLawful, State.modShutter, Bool.and_eq_true] at *
      simp only [w, wf_congr (Table.numbers_adjust _ _ _), and_self]) rfl rfl rfl
  · exact h.tablesOnly _ rfl id rfl rfl id id (fun w => by
      simp only [State.tablesLawful, State.setShutters, Bool.and_eq_true] at *
      simp only [w, Table.wf_put, and_self]) rfl rfl rfl

theorem Keeps.storeGeometry (h : Keeps s t) (a : Nat) (g : Geometry) : Keeps s (t.storeGeometry a g) := by
  unfold State.storeGeometry
  split
  · exact h.modAisle a _ fun _ => rfl
  · exact (h.setAisles_put a _ rfl).trans ((Flow.refl _).report _ _ _).keeps

theorem Keeps.storeItem (h : Keeps s t) (n : Nat) (i : Item) : Keeps s (t.storeItem n i) := by
  unfold State.storeItem
  simp only
  split
  · exact h.setItems_put n i
  · exact (h.setItems_put n i).modBin _ _

theorem faults_acknowledge {f : FaultUnit} (h : f.lawful = true) (hs : f.state = .pending) :
    f.acknowledge.lawful = true := by
  simp only [FaultUnit.lawful, hs, Bool.and_eq_true, decide_eq_true_eq] at h
  have h2 : f.haltedLine = false := h.1.2
  simp [FaultUnit.lawful, FaultUnit.acknowledge, h.1.1.2, h2, h.2]

end Sys2Proof.Machine
end

