-- ==== Sys2Proof/Laws/Settle.lean ====
section
/-! SUPPORT. What the end of a command does to a steady state: the zones stay as they are, and the Dispatcher's withdrawals,
resumptions, activations and stagings are one `Dispatched`. -/
namespace Sys2Proof.Machine

-- One proof after another: run at once, the proofs wait for each other on a thread each.
set_option Elab.async false

theorem Aisle.holds_iff (x : Aisle) (j : Job) :
    x.holds j = true ↔ j ∈ x.queue ∨ x.crane.staged = some j ∨ (x.crane.active = some j ∧ x.crane.state ≠ .idle) := by
  simp [Aisle.holds, or_assoc]

theorem Dispatched.refl (s : State) : Dispatched s s :=
  ⟨rfl, rfl, ⟨[], (List.append_nil _).symm⟩, fun _ x _ hx hj => ⟨x, hx, hj⟩⟩

theorem Dispatched.trans {s t u : State} (h : Dispatched s t) (k : Dispatched t u) : Dispatched s u where
  rest := by
    have h1 := h.rest
    have k1 := k.rest
    rw [h1] at k1
    exact k1
  fixed := k.fixed.trans h.fixed
  sent := by
    obtain ⟨l, hl⟩ := h.sent
    obtain ⟨m, hm⟩ := k.sent
    exact ⟨l ++ m, by rw [hm, hl, List.append_assoc]⟩
  jobs := fun a x j hx hj => by
    obtain ⟨y, hy, hy2⟩ := h.jobs a x j hx hj
    exact k.jobs a y j hy hy2

/-- A change of one aisle that keeps its fixed part and its jobs. -/
theorem Dispatched.modAisle (s : State) (a : Nat) (f : Aisle → Aisle)
    (hf : ∀ x, s.aisles.look a = some x → (f x).fixed = x.fixed)
    (hj : ∀ x j, s.aisles.look a = some x → x.holds j = true → (f x).holds j = true) :
    Dispatched s (s.modAisle a f) where
  rest := rfl
  fixed := by
    simp only [State.modAisle_aisles]
    generalize s.aisles = t at hf
    induction t with
    | nil => rfl
    | cons e t ih =>
      obtain ⟨k, v⟩ := e
      by_cases hk : k = a
      · subst hk
        simp only [Table.adjust, if_true, List.map_cons]
        rw [hf v (by simp [Table.look])]
      · simp only [Table.adjust, hk, if_false, List.map_cons]
        rw [ih fun x hx => hf x (by simp [Table.look, hk, hx])]
  sent := ⟨[], (List.append_nil _).symm⟩
  jobs := fun b x j hx hj' => by
    simp only [State.modAisle_aisles, Table.look_adjust]
    by_cases hb : b = a
    · subst hb
      exact ⟨f x, by simp [hx], hj x j hx hj'⟩
    · exact ⟨x, by simp [hb, hx], hj'⟩

theorem Dispatched.send (s : State) (ad : Option Nat) (m : FieldTelegram) : Dispatched s (s.send ad m) where
  rest := by cases ad <;> rfl
  fixed := rfl
  sent := by
    cases ad with
    | none => exact ⟨[], (List.append_nil _).symm⟩
    | some d => exact ⟨_, rfl⟩
  jobs := fun _ x _ hx hj => ⟨x, hx, hj⟩

theorem Dispatched.foldl {s : State} (l : List Nat) (f : State → Nat → State)
    (hf : ∀ t a, Dispatched s t → Dispatched t (f t a)) : Dispatched s (l.foldl f s) := by
  suffices h : ∀ t, Dispatched s t → Dispatched s (l.foldl f t) from h s (.refl s)
  induction l with
  | nil => exact fun t h => h
  | cons x l ih => exact fun t h => ih _ (h.trans (hf t x h))

/-- Merging two changes of one aisle. -/
theorem Table.adjust_adjust {α : Type} (t : Table α) (n : Nat) (f g : α → α) :
    (t.adjust n f).adjust n g = t.adjust n fun x => g (f x) := by
  induction t with
  | nil => rfl
  | cons e t ih =>
    obtain ⟨k, v⟩ := e
    by_cases hk : k = n
    · simp [Table.adjust, hk]
    · simp [Table.adjust, hk, ih]

theorem Dispatched.withdrawStaged (s : State) (a : Nat) : Dispatched s (s.withdrawStaged true a) := by
  unfold State.withdrawStaged
  split
  · exact .refl s
  · rename_i x hx
    split
    · exact .refl s
    · rename_i j hj
      refine .trans ?_ (.send _ _ _)
      have : (s.modCrane a fun c => { c with staged := none }).returnJob a j
          = s.modAisle a fun x => { x with crane := { x.crane with staged := none }, queue := rejoinQueue x.queue j } := by
        simp only [State.modCrane, State.returnJob, State.modAisle, Table.adjust_adjust]
      rw [this]
      refine .modAisle s a _ (fun _ _ => rfl) fun y k hy hk => ?_
      rw [hx] at hy; cases hy
      rw [Aisle.holds_iff] at *
      rcases hk with hk | hk | hk
      · left
        simp only [rejoinQueue]
        split
        · exact List.mem_cons_of_mem _ hk
        · rw [← List.takeWhile_append_dropWhile (p := Job.isStore) (l := x.queue)] at hk
          rcases List.mem_append.1 hk with h | h
          · exact List.mem_append_left _ h
          · exact List.mem_append_right _ (List.mem_cons_of_mem _ h)
      · left
        rw [hj] at hk; cases hk
        simp only [rejoinQueue]
        split
        · exact List.mem_cons_self
        · exact List.mem_append_right _ List.mem_cons_self
      · exact .inr (.inr hk)

theorem Dispatched.withdrawAll (s : State) : Dispatched s s.withdrawAll := by
  refine .foldl _ _ fun t a _ => ?_
  unfold State.withdrawIneligible
  split
  · exact .refl t
  · split
    · exact .refl t
    · split
      · exact .refl t
      · exact .withdrawStaged t a

theorem mem_erase_of_ne {q : List Job} {j k : Job} (h : k ∈ q) (hne : k ≠ j) : k ∈ q.erase j :=
  (List.mem_erase_of_ne hne).2 h

theorem Dispatched.activateNext (s : State) (a : Nat) (hi : ∀ x, s.aisles.look a = some x → x.crane.state = .idle) :
    Dispatched s (s.activateNext a) := by
  unfold State.activateNext
  split
  · exact .refl s
  · rename_i x hx
    split
    · exact .refl s
    · rename_i j hj
      refine .trans ?_ (.send _ _ _)
      have : (s.dequeue a j).modCrane a (fun c =>
            { c with state := .busy, phase := some .toSource, active := some j, retryIndex := 0
                     deadline := some ((s.dequeue a j).armed x j (positionPoint x.geom x.crane.position)) })
          = s.modAisle a fun x' => { x' with
              crane := { x'.crane with
                state := .busy, phase := some .toSource, active := some j, retryIndex := 0
                deadline := some ((s.dequeue a j).armed x j (positionPoint x.geom x.crane.position)) }
              queue := x'.queue.erase j } := by
        simp only [State.modCrane, State.dequeue, State.modAisle, Table.adjust_adjust]
      rw [this]
      refine .modAisle s a _ (fun _ _ => rfl) fun y k hy hk => ?_
      rw [Aisle.holds_iff] at *
      have hidle := hi y hy
      rcases hk with hk | hk | hk
      · by_cases h : k = j
        · subst h; exact .inr (.inr ⟨rfl, by simp⟩)
        · exact .inl (mem_erase_of_ne hk h)
      · exact .inr (.inl hk)
      · exact absurd hidle hk.2

theorem Dispatched.offerStage (s : State) (a : Nat) : Dispatched s (s.offerStage a) := by
  unfold State.offerStage
  split
  · exact .refl s
  · rename_i x hx
    split
    · rename_i hc
      split
      · exact .refl s
      · rename_i j hj
        refine .trans ?_ (.send _ _ _)
        have : (s.dequeue a j).modCrane a (fun c => { c with staged := some j })
            = s.modAisle a fun x => { x with crane := { x.crane with staged := some j }, queue := x.queue.erase j } := by
          simp only [State.modCrane, State.dequeue, State.modAisle, Table.adjust_adjust]
        rw [this]
        refine .modAisle s a _ (fun _ _ => rfl) fun y k hy hk => ?_
        rw [hx] at hy; cases hy
        rw [Aisle.holds_iff] at *
        simp only [Bool.and_eq_true, Option.isNone_iff_eq_none] at hc
        rcases hk with hk | hk | hk
        · by_cases h : k = j
          · subst h; exact .inr (.inl rfl)
          · exact .inl (mem_erase_of_ne hk h)
        · rw [hc.1.2] at hk; cases hk
        · exact .inr (.inr hk)
    · exact .refl s

theorem Dispatched.activatePark (s : State) (a : Nat)
    (hi : ∀ x, s.aisles.look a = some x → x.crane.state = .parking) : Dispatched s (s.activatePark a) := by
  unfold State.activatePark
  split
  · exact .refl s
  · rename_i x hx
    split
    · exact .refl s
    · rename_i j hj
      split
      · rename_i hc
        refine .trans ?_ (.send _ _ _)
        have : (s.dequeue a j).modCrane a (fun c =>
              { c with phase := some .toDest, active := some j, retryIndex := 0
                       deadline := some (s.armed x j (positionPoint x.geom x.crane.position)) })
            = s.modAisle a fun x' => { x' with
                crane := { x'.crane with
                  phase := some .toDest, active := some j, retryIndex := 0
                  deadline := some (s.armed x j (positionPoint x.geom x.crane.position)) }
                queue := x'.queue.erase j } := by
          simp only [State.modCrane, State.dequeue, State.modAisle, Table.adjust_adjust]
        rw [this]
        refine .modAisle s a _ (fun _ _ => rfl) fun y k hy hk => ?_
        have hp := hi y hy
        rw [hx] at hy; cases hy
        rw [Aisle.holds_iff] at *
        simp only [Bool.and_eq_true, Option.isNone_iff_eq_none] at hc
        rcases hk with hk | hk | hk
        · by_cases h : k = j
          · subst h; exact .inr (.inr ⟨rfl, by simp [hp]⟩)
          · exact .inl (mem_erase_of_ne hk h)
        · exact .inr (.inl hk)
        · rw [hc.1] at hk; cases hk.1
      · exact .refl s

/-- No suspension record resumes. -/
def noneResumes (s : State) : Bool := s.aisles.all fun e => !e.2.crane.suspension.any Suspension.resumes

theorem noneResumes_of_fixed {s t : State} (h : (t.aisles.map fun e => (e.1, e.2.fixed)) = s.aisles.map fun e => (e.1, e.2.fixed)) :
    noneResumes t = noneResumes s := by
  have k : ∀ l : Table Aisle, (l.all fun e => !e.2.crane.suspension.any Suspension.resumes)
      = (l.map fun e => (e.1, e.2.fixed)).all fun p => !p.2.2.2.2.2.2.any Suspension.resumes := by
    intro l; rw [List.all_map]; rfl
  unfold noneResumes
  rw [k, k, h]

theorem resume_eq_self (s : State) (a : Nat) (h : noneResumes s = true) : s.resume a = s := by
  unfold State.resume
  split
  · rfl
  · rename_i x hx
    split
    · rfl
    · rename_i r hr
      have := (List.all_eq_true.1 h) _ (Table.mem_of_look hx)
      simp only [hr, Option.any_some, Bool.not_eq_true'] at this
      simp [this]

theorem Dispatched.lookAisle (s : State) (a : Nat) (h : noneResumes s = true) : Dispatched s (s.lookAisle a) := by
  unfold State.lookAisle
  split
  · exact .refl s
  · rename_i x hx
    split
    · rename_i hi
      refine .trans ?_ (.offerStage _ _)
      split
      · rw [resume_eq_self s a h]; exact .refl s
      · exact .activateNext s a fun y hy => by rw [hx] at hy; cases hy; exact hi
    · rename_i hi
      exact .activatePark s a fun y hy => by rw [hx] at hy; cases hy; exact hi
    · exact .offerStage s a
    all_goals exact .refl s

theorem Dispatched.lookAll (s : State) (h : noneResumes s = true) : Dispatched s s.lookAll :=
  .foldl _ _ fun t a k => .lookAisle t a (by rw [noneResumes_of_fixed k.fixed]; exact h)

theorem judgeZones_eq_self (s : State) (h : s.steady = true) : s.judgeZones = s := by
  unfold State.steady at h
  rw [Bool.and_eq_true] at h
  have h1 := List.all_eq_true.1 h.1
  unfold State.judgeZones
  revert h1
  generalize s.zones.numbers = l
  intro h1
  induction l with
  | nil => rfl
  | cons z l ih =>
    have hz := h1 z List.mem_cons_self
    have : s.judgeZone z = s := by
      unfold State.judgeZone
      split
      · rename_i hs
        simp only [hs, Bool.not_eq_true'] at hz
        simp [hz]
      · rename_i hs
        simp only [hs, Bool.not_eq_true'] at hz
        simp [hz]
      · rfl
    rw [List.foldl_cons, this]
    exact ih fun x hx => h1 x (List.mem_cons_of_mem _ hx)

/-- The end of a command, in a steady state: only the Dispatcher acts. -/
theorem settleWing_spec (s : State) (h : s.steady = true) : Dispatched s s.settleWing := by
  unfold State.settleWing
  rw [judgeZones_eq_self s h]
  have h2 : noneResumes s = true := by
    unfold State.steady at h
    rw [Bool.and_eq_true] at h
    exact h.2
  have k := Dispatched.withdrawAll s
  exact k.trans (.lookAll _ (by rw [noneResumes_of_fixed k.fixed]; exact h2))

/-- What holds of a state and its dispatched one when a reply is queued in both. -/
theorem Dispatched.reply {s t : State} (h : Dispatched s t) (r : Reply) : Dispatched (s.reply r) (t.reply r) where
  rest := by
    have h1 := h.rest
    rw [h1]
    rfl
  fixed := h.fixed
  sent := h.sent
  jobs := h.jobs

end Sys2Proof.Machine
end

