-- ==== Sys2Proof/Laws/Judged.lean ====
section
/-! SUPPORT. What the end of a command does in every state: the judging of one zone leaves what another is judged by, the Dispatcher
leaves the zones, and so `settleWing` is one `Settled`. -/
namespace Sys2Proof.Machine

-- One proof after another: run at once, the proofs wait for each other on a thread each.
set_option Elab.async false

/-- What zone `z` sees of an aisle: its number, its zone, and the crane's state if the zone is `z`. -/
def zoneView (z : Nat) (e : Nat × Aisle) : Nat × Nat × Option CraneState :=
  (e.1, e.2.geom.zone, if e.2.geom.zone = z then some e.2.crane.state else none)

/-- `t` differs from `s` in nothing that zone `z` is judged by (R167, R171), nor in the record of zone `w`. -/
structure Apart (w z : Nat) (s t : State) : Prop where
  zone : t.zones.look w = s.zones.look w
  shutters : t.shutters = s.shutters
  aisles : t.aisles.map (zoneView z) = s.aisles.map (zoneView z)

variable {w z : Nat} {s t : State}

theorem Apart.refl (w z : Nat) (s : State) : Apart w z s s := ⟨rfl, rfl, rfl⟩

theorem Apart.trans {u : State} (h : Apart w z s t) (k : Apart w z t u) : Apart w z s u :=
  ⟨k.zone.trans h.zone, k.shutters.trans h.shutters, k.aisles.trans h.aisles⟩

theorem Apart.foldl {ι : Type} (h : Apart w z s t) (l : List ι) (f : State → ι → State)
    (hf : ∀ u, ∀ i ∈ l, Apart w z s u → Apart w z s (f u i)) : Apart w z s (l.foldl f t) := by
  induction l generalizing t with
  | nil => exact h
  | cons i l ih =>
    exact ih (hf t i List.mem_cons_self h) fun u j hj => hf u j (List.mem_cons_of_mem _ hj)

/-! ### Updates -/

/-- An update that writes neither zones, shutters nor aisles. -/
theorem Apart.other {u : State} (h : Apart w z s t) (hz : u.zones = t.zones) (hs : u.shutters = t.shutters)
    (ha : u.aisles = t.aisles) : Apart w z s u :=
  h.trans ⟨by rw [hz], hs, by rw [ha]⟩

theorem Apart.modZone (h : Apart w z s t) {y : Nat} (hy : w ≠ y) (f : Zone → Zone) : Apart w z s (t.modZone y f) :=
  h.trans ⟨Table.look_adjust_ne _ _ hy, rfl, rfl⟩

/-- A change of an aisle that keeps its zone, and its crane's state where the aisle is of zone `z`. -/
theorem Apart.modAisle (h : Apart w z s t) (a : Nat) (f : Aisle → Aisle)
    (hf : ∀ x, t.aisles.look a = some x → zoneView z (a, f x) = zoneView z (a, x)) : Apart w z s (t.modAisle a f) := by
  refine h.trans ⟨rfl, rfl, ?_⟩
  rw [State.modAisle_aisles]
  generalize t.aisles = l at hf
  induction l with
  | nil => rfl
  | cons e l ih =>
    obtain ⟨k, v⟩ := e
    by_cases hk : k = a
    · subst hk
      simp only [Table.adjust, if_true, List.map_cons]
      rw [hf v (by simp [Table.look])]
    · simp only [Table.adjust, hk, if_false, List.map_cons]
      rw [ih fun x hx => hf x (by simp [Table.look, hk, hx])]

theorem Apart.modCrane (h : Apart w z s t) (a : Nat) (f : Crane → Crane) (hf : ∀ c, (f c).state = c.state) :
    Apart w z s (t.modCrane a f) :=
  h.modAisle a (fun x => { x with crane := f x.crane }) fun x _ => by simp only [zoneView, hf]

/-- Every aisle of that number is of another zone. -/
def Away (z a : Nat) (s : State) : Prop := ∀ v ∈ s.aisles.map (zoneView z), v.1 = a → v.2.1 ≠ z

theorem Apart.away (h : Apart w z s t) {a : Nat} (k : Away z a s) : Away z a t := fun v hv => k v (h.aisles ▸ hv)

theorem Away.look {a : Nat} (h : Away z a s) {x : Aisle} (hx : s.aisles.look a = some x) : x.geom.zone ≠ z :=
  h (zoneView z (a, x)) (List.mem_map_of_mem (Table.mem_of_look hx)) rfl

/-- The aisles of another zone. -/
theorem away_of_mem {y a : Nat} (hy : z ≠ y) (hw : s.aisles.wf = true) (ha : a ∈ s.aislesOf y) : Away z a s := by
  intro v hv hva
  obtain ⟨e, he, rfl⟩ := List.mem_map.1 hv
  obtain ⟨e', he', rfl⟩ := List.mem_map.1 ha
  obtain ⟨he1, he2⟩ := List.mem_filter.1 he'
  simp only [zoneView] at hva
  have h1 := Table.look_of_mem (v := e.2) hw he
  have h2 := Table.look_of_mem (v := e'.2) hw he1
  rw [hva, h2] at h1
  have h3 : e'.2 = e.2 := Option.some.inj h1
  simp only [decide_eq_true_eq] at he2
  rw [h3] at he2
  simp only [zoneView, ne_eq]
  omega

theorem Apart.modAway (h : Apart w z s t) {a : Nat} (k : Away z a s) (f : Aisle → Aisle) (hf : ∀ x, (f x).geom = x.geom) :
    Apart w z s (t.modAisle a f) :=
  h.modAisle a f fun x hx => by simp only [zoneView, hf, if_neg ((h.away k).look hx)]

theorem Apart.report (h : Apart w z s t) (k : ReportKind) (u : Subject) (c : Option Code) : Apart w z s (t.report k u c) :=
  h.other rfl rfl rfl

theorem Apart.modBin (h : Apart w z s t) (n : Nat) (f : Bin → Bin) : Apart w z s (t.modBin n f) := h.other rfl rfl rfl

theorem Apart.modItem (h : Apart w z s t) (n : Nat) (f : Item → Item) : Apart w z s (t.modItem n f) := h.other rfl rfl rfl

theorem Apart.modStation (h : Apart w z s t) (n : Nat) (f : Station → Station) : Apart w z s (t.modStation n f) :=
  h.other rfl rfl rfl

theorem Apart.setZoneState (h : Apart w z s t) {y : Nat} (hy : w ≠ y) (v : ZoneState) : Apart w z s (t.setZoneState y v) :=
  (h.modZone hy _).other rfl rfl rfl

theorem Apart.turnAlert (h : Apart w z s t) {y : Nat} (hy : w ≠ y) : Apart w z s (t.turnAlert y) :=
  ((h.modZone hy _).modZone hy _).other rfl rfl rfl

/-! ### Jobs, bins and services -/

theorem Apart.addJob (h : Apart w z s t) (a : Nat) (mk : Nat → Job) : Apart w z s (t.addJob a mk) :=
  (h.modAisle a (fun x => { x with queue := joinQueue x.queue (mk t.jobTag) }) fun _ _ => rfl).other rfl rfl rfl

theorem Apart.returnJob (h : Apart w z s t) (a : Nat) (j : Job) : Apart w z s (t.returnJob a j) :=
  h.modAisle a (fun x => { x with queue := rejoinQueue x.queue j }) fun _ _ => rfl

theorem Apart.setService (h : Apart w z s t) (a : Nat) (v : Service) : Apart w z s (t.setService a v) := by
  unfold State.setService
  split
  · exact h
  · split
    · exact h
    · exact (h.modAisle a (fun x => { x with service := v }) fun _ _ => rfl).report _ _ _

theorem Apart.takeOut (h : Apart w z s t) {a : Nat} (k : Away z a s) : Apart w z s (t.takeOut a) :=
  (h.modAway k (fun x => { x with crane := { x.crane with state := .outOfService } }) fun _ => rfl).setService a _

theorem Apart.setBinState (h : Apart w z s t) (n : Nat) (v : BinState) : Apart w z s (t.setBinState n v) := by
  unfold State.setBinState
  dsimp only
  split
  · exact (h.modBin n fun b => { b with state := v }).other rfl rfl rfl
  · exact h.modBin n _

theorem Apart.failRequests (h : Apart w z s t) (p : Request → Bool) (c : RefusalCode) : Apart w z s (t.failRequests p c) :=
  (h.foldl _ (State.failOne c) fun _ _ _ h => h.other rfl rfl rfl).other rfl rfl rfl

theorem Apart.displaceAll (h : Apart w z s t) (n : Nat) (c : RefusalCode) : Apart w z s (t.displaceAll n c) := by
  refine h.foldl _ _ fun u st _ h => ?_
  unfold State.displaceAt
  split
  · exact h
  · exact (h.foldl _ (State.displaceOne c) fun _ _ _ h => h.other rfl rfl rfl).modStation _ _

theorem Apart.enterLoss (h : Apart w z s t) (n : Nat) (v : BinState) (c : Option Code) : Apart w z s (t.enterLoss n v c) :=
  ((((h.setBinState n v).modBin n _).report _ _ _).failRequests _ _).displaceAll _ _

theorem Apart.enterDoubt (h : Apart w z s t) (n : Nat) : Apart w z s (t.enterDoubt n) := by
  unfold State.enterDoubt
  split
  · exact h
  · exact h.enterLoss n _ _

theorem Apart.judgeRead (h : Apart w z s t) (n : Nat) : Apart w z s (t.judgeRead n) := by
  unfold State.judgeRead
  split
  · exact h.enterLoss n _ _
  · exact h

theorem Apart.dropJob (h : Apart w z s t) (j : Job) : Apart w z s (t.dropJob j) := by
  unfold State.dropJob
  split
  · exact h
  · rename_i n _
    have k : Apart w z s (if j.kind = .transfer then t.clearPending n else t) := by
      split
      · exact h.modBin n _
      · exact h
    dsimp only
    split
    · exact k
    · split
      · exact (k.modBin n _).enterDoubt n
      · exact k.enterDoubt n

theorem Apart.endDraining (h : Apart w z s t) {a : Nat} (k : Away z a s) : Apart w z s (t.endDraining a) := by
  unfold State.endDraining
  split
  · exact h
  · split
    · exact h.takeOut k
    · exact h

theorem Apart.unaccountedLoad (h : Apart w z s t) {a : Nat} (k : Away z a s) (n : Nat) : Apart w z s (t.unaccountedLoad a n) :=
  (((h.judgeRead n).report _ _ _).modCrane a (fun c => { c with stopWait := none }) fun _ => rfl).takeOut k

/-! ### Judging -/

theorem Apart.dropRecord (h : Apart w z s t) (a : Nat) : Apart w z s (t.dropRecord a) := h.modCrane a _ fun _ => rfl

theorem Apart.dropAndAudit (h : Apart w z s t) (a : Nat) (j : Job) : Apart w z s (t.dropAndAudit a j) := by
  unfold State.dropAndAudit
  split
  · exact h
  · dsimp only
    split
    · exact h.dropJob j
    · exact (h.dropJob j).addJob a _

theorem Apart.resolveRecord (h : Apart w z s t) {a : Nat} (k : Away z a s) : Apart w z s (t.resolveRecord a) := by
  unfold State.resolveRecord
  split
  · exact h
  · split
    · exact h
    · split
      · exact h
      · split
        · exact ((h.dropRecord a).returnJob a _).endDraining k
        · split
          · exact ((h.dropRecord a).returnJob a _).endDraining k
          · exact ((h.dropRecord a).dropAndAudit a _).endDraining k
      · split
        · exact h
        · split
          · exact ((h.dropRecord a).returnJob a _).unaccountedLoad k _
          · exact ((h.dropRecord a).dropJob _).unaccountedLoad k _

theorem Apart.resumeStation (h : Apart w z s t) (st : Nat) : Apart w z s (t.resumeStation st) := by
  refine Apart.modStation ?_ st _
  unfold State.sendPresent
  split
  · exact h.other rfl rfl rfl
  · exact h.other rfl rfl rfl

theorem Apart.aislesOf (h : Apart w z s t) (y : Nat) : t.aislesOf y = s.aislesOf y := by
  have k : ∀ l : Table Aisle, ((l.filter fun e => decide (e.2.geom.zone = y)).map (·.1))
      = ((l.map (zoneView z)).filter fun v => decide (v.2.1 = y)).map (·.1) := fun l => by
    rw [List.filter_map, List.map_map]; rfl
  show ((t.aisles.filter fun e => decide (e.2.geom.zone = y)).map (·.1))
    = (s.aisles.filter fun e => decide (e.2.geom.zone = y)).map (·.1)
  rw [k, k, h.aisles]

theorem Apart.wf (h : Apart w z s t) : t.aisles.wf = s.aisles.wf := by
  have k : ∀ l : Table Aisle, l.numbers = (l.map (zoneView z)).map (·.1) := fun l => by rw [List.map_map]; rfl
  rw [Table.wf_eq, Table.wf_eq, k, k, h.aisles]

theorem Apart.normalActions (h : Apart w z s t) {y : Nat} (hy : z ≠ y) (hw : s.aisles.wf = true) :
    Apart w z s (t.normalActions y) := by
  have k : Apart w z s ((t.stationsOf y).foldl State.resumeStation t) := h.foldl _ _ fun _ st _ h => h.resumeStation st
  exact k.foldl _ _ fun u a ha h' => h'.resolveRecord (away_of_mem hy hw (h.aislesOf y ▸ ha))

/-- The judging of one zone leaves what another is judged by. -/
theorem Apart.judgeZone (h : Apart z z s t) {y : Nat} (hy : z ≠ y) (hw : s.aisles.wf = true) : Apart z z s (t.judgeZone y) := by
  unfold State.judgeZone
  split
  · split
    · exact h.setZoneState hy _
    · exact h
  · split
    · unfold State.completeRestoration
      dsimp only
      split
      · exact (((h.setZoneState hy _).turnAlert hy).normalActions hy hw).report _ _ _
      · exact (h.setZoneState hy _).normalActions hy hw
    · exact h
  · exact h

theorem Apart.zoneState (h : Apart w z s t) : t.zoneState w = s.zoneState w := by
  unfold State.zoneState; rw [h.zone]

theorem Apart.securedCondition (h : Apart w z s t) : t.securedCondition z = s.securedCondition z := by
  have k : ∀ l : Table Aisle, (l.all fun e => !decide (e.2.geom.zone = z) || e.2.crane.state.atRest)
      = (l.map (zoneView z)).all fun v => v.2.2.all CraneState.atRest := fun l => by
    rw [List.all_map]; congr 1; funext e
    by_cases he : e.2.geom.zone = z <;> simp [zoneView, he]
  unfold State.securedCondition
  rw [k, k, h.aisles, h.shutters]

theorem Apart.restoredCondition (h : Apart w z s t) : t.restoredCondition z = s.restoredCondition z := by
  have k : ∀ l : Table Aisle, (l.all fun e => !decide (e.2.geom.zone = z) ||
        (match e.2.crane.state with
         | .parking | .stopping | .stopped => false
         | .idle | .busy | .faulted | .outOfService => true))
      = (l.map (zoneView z)).all fun v => v.2.2.all fun c =>
        match c with
        | .parking | .stopping | .stopped => false
        | .idle | .busy | .faulted | .outOfService => true := fun l => by
    rw [List.all_map]; congr 1; funext e
    by_cases he : e.2.geom.zone = z <;> simp [zoneView, he]
  unfold State.restoredCondition
  erw [k, k]
  rw [h.aisles, h.shutters]

/-! ### The Dispatcher leaves the zones -/

theorem foldl_zones {ι : Type} (l : List ι) (f : State → ι → State) (hf : ∀ u i, (f u i).zones = u.zones) (s : State) :
    (l.foldl f s).zones = s.zones := by
  induction l generalizing s with
  | nil => rfl
  | cons i l ih => exact (ih _).trans (hf s i)

theorem withdrawAll_zones (s : State) : s.withdrawAll.zones = s.zones :=
  foldl_zones _ _ (fun u a => by
    unfold State.withdrawIneligible State.withdrawStaged
    repeat' split
    all_goals rfl) s

theorem liftBin_zones (s : State) (j : Job) : (s.liftBin j).zones = s.zones := by
  unfold State.liftBin State.setBinState
  repeat' split
  all_goals rfl

theorem resume_zones (s : State) (a : Nat) : (s.resume a).zones = s.zones := by
  unfold State.resume
  repeat' split
  all_goals first | rfl | exact liftBin_zones _ _

theorem activateNext_zones (s : State) (a : Nat) : (s.activateNext a).zones = s.zones := by
  unfold State.activateNext
  repeat' split
  all_goals rfl

theorem offerStage_zones (s : State) (a : Nat) : (s.offerStage a).zones = s.zones := by
  unfold State.offerStage
  repeat' split
  all_goals rfl

theorem activatePark_zones (s : State) (a : Nat) : (s.activatePark a).zones = s.zones := by
  unfold State.activatePark
  repeat' split
  all_goals rfl

theorem lookAll_zones (s : State) : s.lookAll.zones = s.zones :=
  foldl_zones _ _ (fun u a => by
    unfold State.lookAisle
    repeat' split
    all_goals simp only [offerStage_zones, activatePark_zones, resume_zones, activateNext_zones]) s

/-! ### The end of a command -/

theorem settleWing_zones (s : State) : s.settleWing.zones = s.judgeZones.zones :=
  (lookAll_zones _).trans (withdrawAll_zones _)

theorem Apart.judgeList (h : Apart z z s t) (hw : s.aisles.wf = true) {l : List Nat} (hl : z ∉ l) :
    Apart z z s (l.foldl State.judgeZone t) :=
  h.foldl _ _ fun _ _ hy h => h.judgeZone (fun e => hl (e ▸ hy)) hw

theorem aislesWf (h : s.tablesLawful = true) : s.aisles.wf = true := by
  simp only [State.tablesLawful, Bool.and_eq_true] at h
  exact h.1.1.1.1.1.1.1.1

/-- A zone comes out of the judging as its own judging leaves it, in a state where it is judged as before. -/
theorem judgeZones_zone (hs : s.tablesLawful = true) (hz : z ∈ s.zones.numbers) :
    ∃ t, Apart z z s t ∧ s.judgeZones.zoneState z = (t.judgeZone z).zoneState z := by
  have hn : s.zones.numbers.Nodup := by
    simp only [State.tablesLawful, Bool.and_eq_true] at hs
    have := hs.1.1.1.1.1.1.2
    rw [Table.wf_eq, decide_eq_true_eq] at this
    exact this.imp Nat.ne_of_lt
  obtain ⟨l, m, hlm⟩ := List.append_of_mem hz
  unfold State.judgeZones
  rw [hlm] at hn ⊢
  have hl : z ∉ l := fun h => (List.nodup_append.1 hn).2.2 z h z List.mem_cons_self rfl
  have hm : z ∉ m := (List.nodup_cons.1 (List.nodup_append.1 hn).2.1).1
  have ht := (Apart.refl z z s).judgeList (aislesWf hs) hl
  refine ⟨_, ht, ?_⟩
  rw [List.foldl_append, List.foldl_cons]
  have hf := (((Flow.refl s).foldl l _ fun _ y h => h.judgeZone y).judgeZone z).tables.trans hs
  exact ((Apart.refl z z _).judgeList (aislesWf hf) hm).zoneState

theorem zoneState_setZoneState (s : State) (v : ZoneState) (hz : (s.zoneState z).isSome = true) :
    (s.setZoneState z v).zoneState z = some v := by
  show ((s.zones.adjust z fun x => { x with state := v }).look z).map (·.state) = some v
  rw [Table.look_adjust_same]
  unfold State.zoneState at hz
  cases h : s.zones.look z with
  | none => simp [h] at hz
  | some x => rfl

theorem zoneState_turnAlert (s : State) (hz : (s.zoneState z).isSome = true) :
    (s.turnAlert z).zoneState z = some .alert := by
  show (((s.zones.adjust z fun x => { x with windowLeft := some x.window }).adjust z fun x =>
    { x with state := .alert }).look z).map (·.state) = some .alert
  rw [Table.look_adjust_same, Table.look_adjust_same]
  unfold State.zoneState at hz
  cases h : s.zones.look z with
  | none => simp [h] at hz
  | some x => rfl

/-- The NORMAL entry actions leave every zone's record. -/
theorem normalActions_zoneState (hs : s.aisles.wf = true) : (s.normalActions z).zoneState z = s.zoneState z :=
  ((Apart.refl z (z + 1) s).normalActions (Nat.succ_ne_self z) hs).zoneState

/-- A zone whose restoration is complete is NORMAL, or ALERT with a cause in its set (R172, R151). -/
theorem completeRestoration_zoneState (hs : s.aisles.wf = true) (hz : (s.zoneState z).isSome = true) :
    (s.completeRestoration z).zoneState z = some (if s.hasCause z then .alert else .normal) := by
  have h1 := zoneState_setZoneState s .normal hz
  have w1 : (s.setZoneState z .normal).aisles.wf = true := hs
  unfold State.completeRestoration
  dsimp only
  split
  · exact (normalActions_zoneState (s := (s.setZoneState z .normal).turnAlert z) w1).trans
      (zoneState_turnAlert _ (by rw [h1]; rfl))
  · exact (normalActions_zoneState w1).trans h1

theorem mem_numbers_of_zoneState {v : ZoneState} (h : s.zoneState z = some v) : z ∈ s.zones.numbers := by
  unfold State.zoneState at h
  cases hx : s.zones.look z with
  | none => simp [hx] at h
  | some x => exact Table.mem_numbers_of_look hx

/-- What the end of a command does, from every state. -/
theorem settled_settleWing (s : State) : Settled s s.settleWing := by
  have k : ∀ z, s.settleWing.zoneState z = s.judgeZones.zoneState z := fun z => by
    unfold State.zoneState; rw [settleWing_zones]
  refine ⟨rfl, settleWing_spec s, fun z hs hz hc => ?_, fun z hs hz hc => ?_⟩
  all_goals
    obtain ⟨t, ht, he⟩ := judgeZones_zone hs (mem_numbers_of_zoneState hz)
    have hz' := ht.zoneState.trans hz
    rw [k, he]
    unfold State.judgeZone
    rw [hz']
  · simp only [ht.securedCondition, hc, if_true]
    exact zoneState_setZoneState t _ (by rw [hz']; rfl)
  · simp only [ht.restoredCondition, hc, if_true]
    rw [completeRestoration_zoneState (ht.wf.trans (aislesWf hs)) (by rw [hz']; rfl)]
    cases t.hasCause z
    · exact .inl rfl
    · exact .inr rfl

end Sys2Proof.Machine
end

