-- ==== Sys2Proof/Laws/KeepsOrders.lean ====
section
/-! SUPPORT. Every order keeps the laws, and so do a restart and the taking of the orders that waited in the port. -/
namespace Sys2Proof.Machine

-- One proof after another: run at once, the proofs wait for each other on a thread each.
set_option Elab.async false

variable {s t : State}

theorem keeps_reworkVerdict (s : State) (a : Nat) (g : Geometry) : (s.reworkVerdict a g).keeps s := by
  unfold State.reworkVerdict
  split
  · trivial
  · exact keeps_refuseOr _ ((Keeps.refl s).modAisle a _ fun _ => rfl)

theorem keeps_readVerdict (s : State) (table key : Nat) : (s.readVerdict table key).keeps s := by
  unfold State.readVerdict
  split
  case h_9 => exact Keeps.refl s
  case h_14 => trivial
  all_goals exact keeps_found _ _

theorem keeps_statusVerdict (s : State) (scope : Scope) (n p : Nat) : (s.statusVerdict scope n p).keeps s := by
  unfold State.statusVerdict
  split
  case h_1 => exact Keeps.refl s
  case h_6 => exact Keeps.refl s
  all_goals exact keeps_found _ _

theorem Keeps.foldl {β : Type} (h : Keeps s t) (l : List β) (f : State → β → State)
    (hf : ∀ t x, Keeps s t → Keeps s (f t x)) : Keeps s (l.foldl f t) := by
  induction l generalizing t with
  | nil => exact h
  | cons x l ih => exact ih (hf t x h)

theorem Flow.commissionZone (h : Flow s t) (z : Nat) : Flow s (t.commissionZone z) :=
  (h.modZone z _).setZoneState z _

theorem Flow.commissionCrane (h : Flow s t) (a : Nat) : Flow s (t.commissionCrane a) := by
  unfold State.commissionCrane
  split
  · exact h
  · refine .ite h ?_
    have k := h.modCrane a fun c => { c with position := none }
    split
    · exact (k.modCrane a _).sendCrane a _
    · exact k.createPark a

theorem Flow.commissionEntry (h : Flow s t) (z : Nat) : Flow s (t.commissionEntry z) := .ite (h.entryActions z) h

theorem Flow.mapConcentrators (h : Flow s t) (f : Nat → Concentrator → Concentrator)
    (hl : ∀ n x, (f n x).address = x.address ∧ (f n x).zone = x.zone ∧ (f n x).period = x.period) :
    Flow s (t.setConcentrators (t.concentrators.mapRecords f)) :=
  h.trans
    { Flow.refl t with
      loaded := by
        simp only [State.loaded, State.setConcentrators]
        rw [Table.map_mapRecords]; intro n v; rw [(hl n v).1, (hl n v).2.1, (hl n v).2.2] }

theorem Flow.mapShutters (h : Flow s t) (f : Nat → Shutter → Shutter)
    (hl : ∀ n x, (f n x).address = x.address ∧ (f n x).zone = x.zone) :
    Flow s (t.setShutters (t.shutters.mapRecords f)) :=
  h.trans
    { Flow.refl t with
      loaded := by
        simp only [State.loaded, State.setShutters]
        rw [Table.map_mapRecords]; intro n v; rw [(hl n v).1, (hl n v).2] }

theorem Keeps.commission (h : Keeps s t) : Keeps s t.commission := by
  have h0 := h.setMode .inService
  unfold State.commission
  generalize t.setMode .inService = u at h0
  refine h0.trans (Flow.keeps ?_)
  exact (((((Flow.refl u).mapConcentrators (fun _ c => c.commission) fun _ _ => ⟨rfl, rfl, rfl⟩).foldl _ _ fun _ z h =>
    h.commissionZone z).foldl _ _ fun _ a h => h.commissionCrane a).foldl _ _ fun _ z h => h.commissionEntry z).settleWing

theorem Flow.reopenZone (h : Flow s t) (z : Nat) : Flow s (t.reopenZone z) := by
  unfold State.reopenZone
  split
  · exact h
  · exact .ite (h.modZone z _) ((h.modZone z _).setZoneState z _)

theorem Keeps.reopen (h : Keeps s t) : Keeps s t.reopen := by
  have h0 := h.setMode .commissioning
  unfold State.reopen
  generalize t.setMode .commissioning = u at h0
  refine h0.trans (Flow.keeps ?_)
  exact (((Flow.refl u).foldl _ _ fun _ z h => h.reopenZone z).mapConcentrators (fun _ c => c.reopen)
    fun _ _ => ⟨rfl, rfl, rfl⟩).mapStations fun _ x => x.reopen

theorem keeps_loan (s u : State) (item reference : Nat) (h : Flow s u) :
    (refuseOr (s.loanRefusal item reference) (.accept u .empty)).keeps s := keeps_refuseOr _ h.keeps

theorem keeps_editVerdict (s : State) (n t cls : Nat) : (s.editVerdict n t cls).keeps s := by
  unfold State.editVerdict
  split
  · trivial
  · exact keeps_refuseOr _ (((Keeps.refl s).modItem n _).modHome _ _)

theorem keeps_describeVerdict (s : State) (n t cls : Nat) : (s.describeVerdict n t cls).keeps s := by
  unfold State.describeVerdict
  refine keeps_badFieldUnless _ fun _ => ?_
  split
  · trivial
  · exact keeps_badFieldUnless _ fun _ => ((Keeps.refl s).modItem n _).modHome _ _

theorem keeps_orderAckFault (s : State) (fault : Nat) (hs : s.faults.state ≠ .halted) :
    (refuseOr
      (firstRefusal
        [ (!within 1 Config.maxFaultTag fault, .badField)
        , (decide (s.faults.state = .clear), .noFault)
        , (!decide (s.faults.first.map (·.tag) = some fault), .tagMismatch) ])
      (.accept (s.setFaults s.faults.acknowledge) .empty)).keeps s := by
  by_cases hc : s.faults.state = .clear
  · have : firstRefusal
        [ (!within 1 Config.maxFaultTag fault, RefusalCode.badField)
        , (decide (s.faults.state = .clear), .noFault)
        , (!decide (s.faults.first.map (·.tag) = some fault), .tagMismatch) ] ≠ none := by
      rw [ne_eq, firstRefusal_eq_none]
      intro h
      have := h _ (List.mem_cons_of_mem _ List.mem_cons_self)
      simp [hc] at this
    cases h : firstRefusal _ with
    | none => exact absurd h this
    | some c => trivial
  · have hp : s.faults.state = .pending := by
      cases h : s.faults.state <;> simp_all
    exact keeps_refuseOr _ ((Flow.refl s).setFaults _ hs fun h => faults_acknowledge h hp).keeps

theorem State.judgeOrder_halted (s : State) (k : OrderKind) (tag : Nat) (ok : Bool) (rule : State → Verdict)
    (hk : k.takenInHalted = false) (hs : s.faults.state = .halted) :
    ∃ c, s.judgeOrder k tag ok rule = s.refuseOrder tag c 0 := by
  unfold State.judgeOrder State.orderRefusal
  by_cases hb : (decide (tag = 0) || !ok) = true
  · exact ⟨.malformed, by simp [hb]⟩
  · exact ⟨.halted, by simp [hb, State.isHalted, hs, hk]⟩

theorem Keeps.refuseOrder (h : Keeps s t) (tag : Nat) (c : RefusalCode) (d : Nat) : Keeps s (t.refuseOrder tag c d) :=
  h.reply _

theorem keeps_runOrder (i : Instr) (s : State) : Keeps s (runOrder i s) := by
  have r := Keeps.refl s
  cases i with
  | requestItem tag st items =>
    unfold runOrder orderRequestItem
    refine r.judgeOrder _ _ _ _ ?_
    exact (keeps_requestItems _ _ _ _)
  | withdrawRequest tag request =>
    unfold runOrder orderWithdrawRequest
    refine r.judgeOrder _ _ _ _ ?_
    refine (keeps_ite (fun _ => trivial) fun _ => ?_)
    split
    · trivial
    · exact keeps_ite (fun _ => trivial) fun _ => ((Flow.refl s).withdraw _).keeps
  | confirmLoan tag item reference =>
    unfold runOrder orderConfirmLoan
    refine r.judgeOrder _ _ _ _ ?_
    exact (keeps_loan _ _ _ _ ((Flow.refl s).lend item))
  | cancelLoan tag item reference =>
    unfold runOrder orderCancelLoan
    refine r.judgeOrder _ _ _ _ ?_
    exact (keeps_loan _ _ _ _ ((Flow.refl s).withhold item))
  | callBin tag n st =>
    unfold runOrder orderCallBin
    refine r.judgeOrder _ _ _ _ ?_
    refine (keeps_ite (fun _ => trivial) fun _ => ?_)
    split
    · trivial
    · split
      · trivial
      · exact keeps_callVerdict _ _ _ _ _
  | moveBin tag n slot =>
    unfold runOrder orderMoveBin
    refine r.judgeOrder _ _ _ _ ?_
    split
    · trivial
    · split
      · trivial
      · split
        · trivial
        · exact keeps_refuseOr _ ((Flow.refl s).moveBinTo _ _ _).settleWing.keeps
  | auditBin tag n =>
    unfold runOrder orderAuditBin
    refine r.judgeOrder _ _ _ _ ?_
    split
    · trivial
    · exact keeps_refuseOr _ ((Flow.refl s).auditBin _ _).settleWing.keeps
  | releaseBin tag n =>
    unfold runOrder orderReleaseBin
    refine r.judgeOrder _ _ _ _ ?_
    split
    · trivial
    · exact keeps_refuseOr _ ((Flow.refl s).releaseBin _).keeps
  | aisleOut tag a =>
    unfold runOrder orderAisleOut
    refine r.judgeOrder _ _ _ _ ?_
    refine (keeps_ite (fun _ => trivial) fun _ => ?_)
    split
    · trivial
    · exact ((Flow.refl s).aisleOut _ _).keeps
  | aisleIn tag a =>
    unfold runOrder orderAisleIn
    refine r.judgeOrder _ _ _ _ ?_
    refine (keeps_ite (fun _ => trivial) fun _ => ?_)
    split
    · trivial
    · exact keeps_ite (fun _ => trivial) fun _ => ((Flow.refl s).aisleIn _ _).keeps
  | shutZone tag z =>
    unfold runOrder orderShutZone
    refine r.judgeOrder _ _ _ _ ?_
    refine (keeps_ite (fun _ => trivial) fun _ => ?_)
    split
    · trivial
    · exact r
    · exact r
    · exact ((Flow.refl s).enterShutdown z).settleWing.keeps
  | restoreZone tag z force key =>
    unfold runOrder orderRestoreZone
    refine (r.setKeyLine key).judgeOrder _ _ _ _ ?_
    refine (keeps_ite (fun _ => trivial) fun _ => ?_)
    split
    · trivial
    · exact keeps_refuseOr _ ((Flow.refl _).enterRestoring z).settleWing.keeps
  | ackFault tag fault =>
    by_cases hs : s.faults.state = .halted
    · obtain ⟨c, hc⟩ := State.judgeOrder_halted s .ackFault tag true (fun s =>
        refuseOr
          (firstRefusal
            [ (!within 1 Config.maxFaultTag fault, .badField)
            , (decide (s.faults.state = .clear), .noFault)
            , (!decide (s.faults.first.map (·.tag) = some fault), .tagMismatch) ])
          (.accept (s.setFaults s.faults.acknowledge) .empty)) rfl hs
      show Keeps s (orderAckFault tag fault s)
      unfold orderAckFault
      rw [hc]
      exact r.reply _
    · show Keeps s (orderAckFault tag fault s)
      unfold orderAckFault
      exact r.judgeOrder _ _ _ _ (keeps_orderAckFault s fault hs)
  | loadGeometryRecord tag a g key =>
    unfold runOrder orderLoadGeometryRecord
    refine (r.setKeyLine key).judgeOrder _ _ _ _ ?_
    exact (keeps_ite (fun _ => keeps_reworkVerdict _ _ _) fun _ => keeps_badFieldUnless _ fun _ => (Keeps.refl _).storeGeometry a g)
  | loadRetryOffsetList tag a l key =>
    unfold runOrder orderLoadRetryOffsetList
    refine (r.setKeyLine key).judgeOrder _ _ _ _ ?_
    split
    · trivial
    · exact keeps_ite (fun _ => trivial) fun _ => keeps_badFieldUnless _ fun _ => (Keeps.refl _).modAisle a _ fun _ => rfl
  | loadStationRecord tag st f =>
    unfold runOrder orderLoadStationRecord
    refine r.judgeOrder _ _ _ _ ?_
    exact (keeps_lockedInService (keeps_badFieldUnless _ fun _ => r.storeStation _ _))
  | loadZoneRecord tag z w =>
    unfold runOrder orderLoadZoneRecord
    refine r.judgeOrder _ _ _ _ ?_
    exact (keeps_lockedInService (keeps_badFieldUnless _ fun _ => r.storeZone _ _))
  | loadConcentratorRecord tag n a z p =>
    unfold runOrder orderLoadConcentratorRecord
    refine r.judgeOrder _ _ _ _ ?_
    exact (keeps_lockedInService (keeps_badFieldUnless _ fun _ => r.storeConcentrator _ _ _ _))
  | loadShutterRecord tag n a z =>
    unfold runOrder orderLoadShutterRecord
    refine r.judgeOrder _ _ _ _ ?_
    exact (keeps_lockedInService (keeps_badFieldUnless _ fun _ => r.storeShutter _ _ _))
  | loadFieldAddress tag a e =>
    unfold runOrder orderLoadFieldAddress
    refine r.judgeOrder _ _ _ _ ?_
    refine (keeps_lockedInService ?_)
    split
    · exact keeps_badFieldUnless _ fun _ => r.setAddresses_remove _
    · exact keeps_badFieldUnless _ fun _ => r.setAddresses_put _ _
  | loadReportClass tag k c =>
    unfold runOrder orderLoadReportClass
    refine r.judgeOrder _ _ _ _ ?_
    exact (keeps_lockedInService (keeps_badFieldUnless _ fun _ => r.setClasses_put _ _))
  | loadWingSettings tag c p h =>
    unfold runOrder orderLoadWingSettings
    refine r.judgeOrder _ _ _ _ ?_
    exact (keeps_lockedInService (keeps_badFieldUnless _ fun _ => r.setSettings _))
  | binMapAdd tag n v c k =>
    unfold runOrder orderBinMapAdd
    refine r.judgeOrder _ _ _ _ ?_
    split
    · trivial
    · exact keeps_refuseOr _ (r.setBins_put _ _)
  | binMapEdit tag n v c k =>
    unfold runOrder orderBinMapEdit
    refine r.judgeOrder _ _ _ _ ?_
    refine (keeps_ite (fun _ => ?_) fun _ => ?_)
    · unfold State.rerateVerdict
      split
      · trivial
      · exact keeps_refuseOr _ (r.modBin _ _)
    · unfold State.redescribeVerdict
      split
      · trivial
      · exact keeps_ite (fun _ => trivial) fun _ => r.modBin _ _
  | binMapRetire tag n =>
    unfold runOrder orderBinMapRetire
    refine r.judgeOrder _ _ _ _ ?_
    refine (keeps_ite (fun _ => trivial) fun _ => ?_)
    split
    · trivial
    · exact keeps_refuseOr _ (r.setBins_remove _)
  | itemDirectoryAdd tag n t k st h =>
    unfold runOrder orderItemDirectoryAdd
    refine r.judgeOrder _ _ _ _ ?_
    split
    · trivial
    · refine keeps_refuseOr _ ?_
      split
      · exact r.storeItem _ _
      · split
        · trivial
        · exact keeps_refuseOr _ (r.storeItem _ _)
  | itemDirectoryEdit tag n t k =>
    unfold runOrder orderItemDirectoryEdit
    refine r.judgeOrder _ _ _ _ ?_
    exact (keeps_ite (fun _ => keeps_editVerdict _ _ _ _) fun _ => keeps_describeVerdict _ _ _ _)
  | itemDirectoryRemove tag n =>
    unfold runOrder orderItemDirectoryRemove
    refine r.judgeOrder _ _ _ _ ?_
    refine (keeps_ite (fun _ => trivial) fun _ => ?_)
    split
    · trivial
    · exact keeps_ite (fun _ => trivial) fun _ => (r.setItems_remove _).modHome _ _
  | readRecord tag table key =>
    unfold runOrder orderReadRecord
    refine r.judgeOrder _ _ _ _ ?_
    exact (keeps_readVerdict _ _ _)
  | closeCommissioning tag =>
    unfold runOrder orderCloseCommissioning
    refine r.judgeOrder _ _ _ _ ?_
    refine (keeps_ite (fun _ => r) fun _ => ?_)
    split
    · trivial
    · exact r.commission
  | reopenCommissioning tag key =>
    unfold runOrder orderReopenCommissioning
    refine (r.setKeyLine key).judgeOrder _ _ _ _ ?_
    exact (keeps_ite (fun _ => Keeps.refl _) fun _ => keeps_refuseOr _ (Keeps.refl _).reopen)
  | queryStatus tag scope n p key =>
    unfold runOrder orderQueryStatus
    refine (r.setKeyLine key).judgeOrder _ _ _ _ ?_
    exact (keeps_statusVerdict _ _ _ _)
  | readIdentity tag =>
    unfold runOrder orderReadIdentity
    refine r.judgeOrder _ _ _ _ ?_
    exact r
  | restart tag =>
    unfold runOrder orderRestart
    refine r.judgeOrder _ _ _ _ ?_
    exact (r.setLink _ rfl rfl)
  | unknownOrder tag why =>
    cases why with
    | kind n =>
      unfold runOrder orderUnknown
      dsimp only
      split
      · exact r.reply _
      · exact r.reply _
    | table n =>
      unfold runOrder orderUnknown
      exact r.judgeOrder _ _ _ _ trivial
  | _ => exact r

theorem keeps_drainOrders (l : List Instr) (s : State) : Keeps s (drainOrders l s) := by
  induction l generalizing s with
  | nil => exact .refl s
  | cons i l ih =>
    unfold drainOrders
    split
    · exact (Keeps.refl s).setLink _ rfl rfl
    · exact (keeps_runOrder i s).trans (ih _)

theorem Keeps.drainPort (h : Keeps s t) : Keeps s t.drainPort :=
  (h.setLink { t.link with waiting := [] } rfl rfl).trans (keeps_drainOrders t.link.waiting _)

/-! ### A restart -/

theorem numbers_foldl_release (l : List (Nat × Item)) (b : Table Bin) :
    (l.foldl releaseReturning b).numbers = b.numbers := by
  induction l generalizing b with
  | nil => rfl
  | cons e l ih =>
    rw [List.foldl_cons, ih]
    unfold releaseReturning
    split
    · exact Table.numbers_adjust _ _ _
    · rfl

theorem faults_restart {f : FaultUnit} (h : f.lawful = true) : f.restart.lawful = true := by
  simp only [FaultUnit.lawful, Bool.and_eq_true] at h
  simp [FaultUnit.lawful, FaultUnit.restart, h.2]

theorem restartRecords_secured (t : State) (c : StartCause) (h : t.securedLawful = true) :
    (t.restartRecords c).securedLawful = true := by
  rw [securedLawful_iff] at *
  simpa [State.restartRecords, State.restartStock] using h

theorem restartRecords_returns (t : State) (c : StartCause) : ((t.restartRecords c).stations.all fun e =>
    decide (e.2.returns.length ≤ Config.returnCapacity)) = true := by
  simp [State.restartRecords, State.restartStock, Table.mapRecords, Station.restart]

theorem restartRecords_stores (t : State) (c : StartCause) : (t.restartRecords c).queuesLawful = true := by
  simp [State.restartRecords, State.restartStock, State.queuesLawful, Table.mapRecords, Aisle.restart, storesFirst]

theorem wf_release (items : Table Item) (bins : Table Bin) : (items.foldl releaseReturning bins).wf = bins.wf :=
  wf_congr (numbers_foldl_release _ _)

theorem restartRecords_tables (t : State) (c : StartCause) (h : t.tablesLawful = true) :
    (t.restartRecords c).tablesLawful = true := by
  simp only [State.tablesLawful, Bool.and_eq_true] at h
  simp [State.restartRecords, State.restartStock, State.tablesLawful, wf_release, h]

theorem Keeps.restartRecords (h : Keeps s t) (c : StartCause) : Keeps s (t.restartRecords c) :=
  h.trans
    { faults := fun k => by simpa [State.restartRecords, State.restartStock] using faults_restart k
      secured := restartRecords_secured t c
      urgent := fun _ => by simp [State.restartRecords, State.restartStock, Link.restart]
      routine := fun _ => by simp [State.restartRecords, State.restartStock, Link.restart]
      returns := fun _ => restartRecords_returns t c
      requests := fun _ => by simp [State.restartRecords, State.restartStock]
      stores := fun _ => restartRecords_stores t c
      tables := restartRecords_tables t c
      jobTag := fun k => by simpa [State.restartRecords, State.restartStock] using k
      requestTag := fun k => by simpa [State.restartRecords, State.restartStock] using k }

theorem Flow.restartService (h : Flow s t) (a : Nat) : Flow s (t.restartService a) := by
  unfold State.restartService
  split
  · exact h
  · exact .ite (h.setService a _) h

theorem Flow.restartCrane (h : Flow s t) (a : Nat) : Flow s (t.restartCrane a) := by
  unfold State.restartCrane
  split
  · exact h
  · refine .ite (h.modCrane a _) (.ite (h.modCrane a _) ?_)
    split
    · exact (h.modCrane a _).sendCrane a _
    · exact h.modCrane a _
    · exact h.createPark a

theorem Flow.restartZone (h : Flow s t) (z : Nat) : Flow s (t.restartZone z) := by
  unfold State.restartZone
  split
  · exact h
  · exact .ite (h.modZone z _) ((h.modZone z _).setZoneState z _)

theorem Flow.restartZones (h : Flow s t) : Flow s t.restartZones := by
  unfold State.restartZones
  split
  · exact h
  · exact h.foldl _ _ fun _ z h => h.restartZone z

theorem Flow.restartEntry (h : Flow s t) (z : Nat) : Flow s (t.restartEntry z) := .ite (h.entryActions z) h

theorem Keeps.restart (h : Keeps s t) (c : StartCause) : Keeps s (t.restart c) := by
  have h0 := h.restartRecords c
  unfold State.restart
  generalize t.restartRecords c = u at h0
  refine h0.trans (Flow.keeps ?_)
  exact ((((((Flow.refl u).foldl _ _ fun _ a h => h.restartService a).restartZones).foldl _ _ fun _ a h =>
    h.restartCrane a).foldl _ _ fun _ z h => h.restartEntry z).judgeSecuredLine).settleWing

end Sys2Proof.Machine
end

