-- ==== Sys2Proof/Laws/OrderEffects.lean ====
section
/-! SUPPORT. What an order leaves alone: `Leaves i s t` says which records a taken order `i` does not touch, and
`runOrder_cases` says once what the taking of an ORDER frame can do. -/
namespace Sys2Proof.Machine

-- One proof after another: run at once, the proofs wait for each other on a thread each.
set_option Elab.async false

/-- The commands by which the tables that are loaded in COMMISSIONING can change in IN_SERVICE: the keyed rework (R5, R69). -/
def reworks : Instr → Prop
  | .loadGeometryRecord _ _ _ k | .loadRetryOffsetList _ _ _ k => k = true
  | _ => False

/-- What the taking of the order `i` leaves alone. -/
structure Leaves (i : Instr) (s t : State) : Prop where
  replies : t.link.replies = s.link.replies
  waiting : t.link.waiting = s.link.waiting
  sent : t.link.sent = s.link.sent
  pending : t.pending = s.pending
  faults : s.faults.state = .halted → t.faults = s.faults
  mode : orderKind i ≠ some .closeCommissioning → orderKind i ≠ some .reopenCommissioning → t.mode = s.mode
  tables : s.mode = .inService → orderKind i ≠ some .reopenCommissioning → ¬ reworks i →
    t.loaded = s.loaded ∧ t.addresses = s.addresses ∧ t.classes = s.classes ∧ t.settings = s.settings

theorem Leaves.refl (i : Instr) (s : State) : Leaves i s s :=
  ⟨rfl, rfl, rfl, rfl, fun _ => rfl, fun _ _ => rfl, fun _ _ _ => ⟨rfl, rfl, rfl, rfl⟩⟩

theorem Flow.leaves {s t : State} (h : Flow s t) (i : Instr) : Leaves i s t := by
  have hs := h.setup
  simp only [State.setup, Setup.mk.injEq] at hs
  obtain ⟨h1, _, _, h4, h5, h6, _, _, _, h10, h11, _, h13, h14⟩ := hs
  exact ⟨h10, h11, h13, h14, h.halted, fun _ _ => h1, fun _ _ _ => ⟨h.loaded, h4, h5, h6⟩⟩

/-- What a verdict does to the state that it answers. -/
def Verdict.leaves (i : Instr) (s : State) : Verdict → Prop
  | .accept t _ => Leaves i s t
  | .refuse _ _ => True

variable {i : Instr} {s t : State}

theorem leaves_refuseOr {v : Verdict} (c : Option RefusalCode) (h : c = none → v.leaves i s) : (refuseOr c v).leaves i s := by
  cases c with
  | none => exact h rfl
  | some c => trivial

theorem leaves_found (r : Option Result) (c : RefusalCode) : (found s r c).leaves i s := by
  cases r with
  | none => trivial
  | some r => exact .refl i s

theorem leaves_ite {p : Prop} [Decidable p] {v w : Verdict} (hv : p → v.leaves i s) (hw : ¬ p → w.leaves i s) :
    (if p then v else w).leaves i s := by
  split
  · exact hv ‹_›
  · exact hw ‹_›

theorem leaves_badFieldUnless (ok : Bool) {v : Verdict} (h : v.leaves i s) : (badFieldUnless ok v).leaves i s :=
  leaves_ite (fun _ => h) fun _ => trivial

theorem leaves_lockedInService {v : Verdict} (h : s.mode = .commissioning → v.leaves i s) :
    (s.lockedInService v).leaves i s := by
  refine leaves_ite (fun _ => trivial) fun hm => h ?_
  cases hm' : s.mode with
  | commissioning => rfl
  | inService => simp [State.isInService, hm'] at hm

/-- In COMMISSIONING the tables may change: only the rest is asked for. -/
theorem leaves_load (hm : s.mode = .commissioning) (hr : t.link = s.link) (hp : t.pending = s.pending)
    (hf : t.faults = s.faults) (hmode : t.mode = s.mode) : Leaves i s t :=
  ⟨by rw [hr], by rw [hr], by rw [hr], hp, fun _ => hf, fun _ _ => hmode, fun h => by rw [hm] at h; cases h⟩

/-- A change of bins, items, requests, tags alone. -/
theorem leaves_stock (hr : t.link = s.link) (hp : t.pending = s.pending) (hf : t.faults = s.faults)
    (hmode : t.mode = s.mode) (hl : t.loaded = s.loaded) (ha : t.addresses = s.addresses) (hc : t.classes = s.classes)
    (hs : t.settings = s.settings) : Leaves i s t :=
  ⟨by rw [hr], by rw [hr], by rw [hr], hp, fun _ => hf, fun _ _ => hmode, fun _ _ _ => ⟨hl, ha, hc, hs⟩⟩

theorem Leaves.trans {u : State} (h : Leaves i s t) (k : Leaves i t u) (hm : t.mode = s.mode) : Leaves i s u where
  replies := k.replies.trans h.replies
  waiting := k.waiting.trans h.waiting
  sent := k.sent.trans h.sent
  pending := k.pending.trans h.pending
  faults := fun x => (k.faults (by rw [h.faults x]; exact x)).trans (h.faults x)
  mode := fun a b => (k.mode a b).trans (h.mode a b)
  tables := fun x a b => by
    obtain ⟨p1, p2, p3, p4⟩ := h.tables x a b
    obtain ⟨q1, q2, q3, q4⟩ := k.tables (hm.trans x) a b
    exact ⟨q1.trans p1, q2.trans p2, q3.trans p3, q4.trans p4⟩

theorem Flow.travelFor (h : Flow s t) (st n : Nat) (b : Bin) (r : Request) : Flow s (t.travelFor st n b r) := by
  unfold State.travelFor
  split
  · exact .ite ((h.readyOne st r).offerPresent st) h
  · exact (h.callBin n st .request).lookAll
  · exact (h.modBin n _).reportRequest _ _ _

theorem leaves_takeItem (s : State) (order st item : Nat) :
    Leaves i s (s.takeItem order st item) ∧ (s.takeItem order st item).mode = s.mode := by
  unfold State.takeItem
  split
  · exact ⟨.refl i s, rfl⟩
  · split
    · exact ⟨.refl i s, rfl⟩
    · simp only
      rename_i n _ _ b _
      generalize s.newRequest order st item n b = r
      have k := Flow.travelFor (.refl (((s.modItem item fun i => { i with state := .requested }).setNextRequest
        (tagAfter s.requestTag)).setRequests (s.requests ++ [r]))) st n b r
      have hm : (State.travelFor (((s.modItem item fun i => { i with state := .requested }).setNextRequest
        (tagAfter s.requestTag)).setRequests (s.requests ++ [r])) st n b r).mode = s.mode := by
        have := k.setup
        simp only [State.setup, Setup.mk.injEq] at this
        exact this.1
      exact ⟨Leaves.trans (t := ((s.modItem item fun i => { i with state := .requested }).setNextRequest
        (tagAfter s.requestTag)).setRequests (s.requests ++ [r])) (leaves_stock rfl rfl rfl rfl rfl rfl rfl rfl)
        (k.leaves i) rfl, hm⟩

theorem leaves_requestItems (s : State) (order st : Nat) (items : List Nat) : (s.requestItems order st items).leaves i s := by
  show Leaves i s (items.foldl (requestOne order st) (s, [])).1
  suffices h : ∀ acc : State × List (Option RefusalCode × Nat), Leaves i s acc.1 → acc.1.mode = s.mode →
      Leaves i s (items.foldl (requestOne order st) acc).1 from h (s, []) (.refl i s) rfl
  induction items with
  | nil => exact fun _ h _ => h
  | cons j l ih =>
    intro acc h hm
    have k := leaves_takeItem (i := i) acc.1 order st j
    unfold List.foldl requestOne
    split
    · exact ih _ h hm
    · exact ih _ (h.trans k.1 hm) (k.2.trans hm)

theorem leaves_callVerdict (s : State) (n st : Nat) (x : Station) (b : Bin) : (s.callVerdict n st x b).leaves i s := by
  unfold State.callVerdict
  refine leaves_ite (fun _ => trivial) fun _ => leaves_ite (fun _ => trivial) fun _ => leaves_ite (fun _ => ?_) fun _ => ?_
  · refine leaves_stock rfl rfl rfl rfl ?_ rfl rfl rfl
    simp only [State.loaded, State.setAisles]
    rw [Table.map_mapRecords]
    intro _ _; rfl
  · exact leaves_refuseOr _ fun _ => (((Flow.refl s).callBin n st .call).settleWing).leaves i

theorem leaves_reworkVerdict (s : State) (tag a : Nat) (g : Geometry) (key : Bool) (hk : s.keyLine = key) :
    (s.reworkVerdict a g).leaves (.loadGeometryRecord tag a g key) s := by
  unfold State.reworkVerdict
  split
  · trivial
  · rename_i x hx
    refine leaves_refuseOr _ fun hc => ⟨rfl, rfl, rfl, rfl, fun _ => rfl, fun _ _ => rfl, fun _ _ hr => ?_⟩
    rw [firstRefusal_eq_none] at hc
    have h1 := hc _ List.mem_cons_self
    simp only [State.reworkOpen, hk, Bool.not_eq_false', Bool.and_eq_true] at h1
    exact absurd h1.1 hr

theorem Leaves.commission (hm : s.mode = .commissioning) (tag : Nat) : Leaves (.closeCommissioning tag) s s.commission := by
  have k : Flow (s.setMode .inService) s.commission := by
    unfold State.commission
    generalize s.setMode .inService = u
    exact (((((Flow.refl u).mapConcentrators (fun _ c => c.commission) fun _ _ => ⟨rfl, rfl, rfl⟩).foldl _ _ fun _ z h =>
      h.commissionZone z).foldl _ _ fun _ a h => h.commissionCrane a).foldl _ _ fun _ z h => h.commissionEntry z).settleWing
  have l := k.leaves (.closeCommissioning tag)
  exact ⟨l.replies, l.waiting, l.sent, l.pending, l.faults, fun h => absurd rfl h, fun h => by rw [hm] at h; cases h⟩

theorem Leaves.reopen (tag : Nat) (key : Bool) : Leaves (.reopenCommissioning tag key) s s.reopen := by
  have k : Flow (s.setMode .commissioning) s.reopen := by
    unfold State.reopen
    generalize s.setMode .commissioning = u
    exact (((Flow.refl u).foldl _ _ fun _ z h => h.reopenZone z).mapConcentrators (fun _ c => c.reopen)
      fun _ _ => ⟨rfl, rfl, rfl⟩).mapStations fun _ x => x.reopen
  have l := k.leaves (.reopenCommissioning tag key)
  exact ⟨l.replies, l.waiting, l.sent, l.pending, l.faults, fun _ h => absurd rfl h, fun _ h => absurd rfl h⟩

theorem leaves_modHome (it : Item) (f : Bin → Bin) (h : Leaves i s t) (hm : t.mode = s.mode) : Leaves i s (t.modHome it f) := by
  unfold State.modHome
  split
  · exact h
  · exact h.trans (leaves_stock rfl rfl rfl rfl rfl rfl rfl rfl) hm

theorem leaves_storeItem (s : State) (n : Nat) (it : Item) : Leaves i s (s.storeItem n it) := by
  unfold State.storeItem
  simp only
  split
  · exact leaves_stock rfl rfl rfl rfl rfl rfl rfl rfl
  · exact leaves_stock rfl rfl rfl rfl rfl rfl rfl rfl

/-- What the judgement of an order does: it is refused with its reply, or it is accepted with what its rule does. -/
theorem judgeOrder_cases (s : State) (k : OrderKind) (tag : Nat) (ok : Bool) (rule : State → Verdict)
    (h : (s.faults.state ≠ .halted ∨ k.takenInHalted = true) → (rule s).leaves i s) :
    ∃ u r, Leaves i s u ∧ s.judgeOrder k tag ok rule = u.reply r := by
  unfold State.judgeOrder
  split
  · exact ⟨s, _, .refl i s, rfl⟩
  · rename_i hn
    have hh : s.faults.state ≠ .halted ∨ k.takenInHalted = true := by
      by_contra hc
      rw [not_or, not_not] at hc
      unfold State.orderRefusal at hn
      split at hn
      · cases hn
      · simp [State.isHalted, hc.1, hc.2] at hn
    have := h hh
    unfold State.answer
    split
    · rename_i u r hv
      rw [hv] at this
      exact ⟨u, _, this, rfl⟩
    · exact ⟨s, _, .refl i s, rfl⟩

/-- What the taking of an ORDER frame can do: nothing for a command that is no ORDER frame; else one reply, on a state that
the order left as `Leaves` says. -/
theorem runOrder_cases (i : Instr) (s : State) :
    runOrder i s = s ∨ ∃ u r, Leaves i (s.keyed i) u ∧ runOrder i s = u.reply r := by
  cases i with
  | requestItem tag st items =>
    right; unfold runOrder orderRequestItem
    exact judgeOrder_cases _ _ _ _ _ fun _ => leaves_requestItems _ _ _ _
  | withdrawRequest tag request =>
    right; unfold runOrder orderWithdrawRequest
    refine judgeOrder_cases _ _ _ _ _ fun _ => leaves_ite (fun _ => trivial) fun _ => ?_
    split
    · trivial
    · exact leaves_ite (fun _ => trivial) fun _ => ((Flow.refl s).withdraw _).leaves _
  | confirmLoan tag item reference =>
    right; unfold runOrder orderConfirmLoan
    exact judgeOrder_cases _ _ _ _ _ fun _ => leaves_refuseOr _ fun _ => ((Flow.refl s).lend item).leaves _
  | cancelLoan tag item reference =>
    right; unfold runOrder orderCancelLoan
    exact judgeOrder_cases _ _ _ _ _ fun _ => leaves_refuseOr _ fun _ => ((Flow.refl s).withhold item).leaves _
  | callBin tag n st =>
    right; unfold runOrder orderCallBin
    refine judgeOrder_cases _ _ _ _ _ fun _ => leaves_ite (fun _ => trivial) fun _ => ?_
    split
    · trivial
    · split
      · trivial
      · exact leaves_callVerdict _ _ _ _ _
  | moveBin tag n slot =>
    right; unfold runOrder orderMoveBin
    refine judgeOrder_cases _ _ _ _ _ fun _ => ?_
    split
    · trivial
    · split
      · trivial
      · split
        · trivial
        · exact leaves_refuseOr _ fun _ => ((Flow.refl s).moveBinTo _ _ _).settleWing.leaves _
  | auditBin tag n =>
    right; unfold runOrder orderAuditBin
    refine judgeOrder_cases _ _ _ _ _ fun _ => ?_
    split
    · trivial
    · exact leaves_refuseOr _ fun _ => ((Flow.refl s).auditBin _ _).settleWing.leaves _
  | releaseBin tag n =>
    right; unfold runOrder orderReleaseBin
    refine judgeOrder_cases _ _ _ _ _ fun _ => ?_
    split
    · trivial
    · exact leaves_refuseOr _ fun _ => ((Flow.refl s).releaseBin _).leaves _
  | aisleOut tag a =>
    right; unfold runOrder orderAisleOut
    refine judgeOrder_cases _ _ _ _ _ fun _ => leaves_ite (fun _ => trivial) fun _ => ?_
    split
    · trivial
    · exact ((Flow.refl s).aisleOut _ _).leaves _
  | aisleIn tag a =>
    right; unfold runOrder orderAisleIn
    refine judgeOrder_cases _ _ _ _ _ fun _ => leaves_ite (fun _ => trivial) fun _ => ?_
    split
    · trivial
    · exact leaves_ite (fun _ => trivial) fun _ => ((Flow.refl s).aisleIn _ _).leaves _
  | shutZone tag z =>
    right; unfold runOrder orderShutZone
    refine judgeOrder_cases _ _ _ _ _ fun _ => leaves_ite (fun _ => trivial) fun _ => ?_
    split
    · trivial
    · exact .refl _ s
    · exact .refl _ s
    · exact ((Flow.refl s).enterShutdown z).settleWing.leaves _
  | restoreZone tag z force key =>
    right; unfold runOrder orderRestoreZone
    refine judgeOrder_cases (s.setKeyLine key) _ _ _ _ fun _ => leaves_ite (fun _ => trivial) fun _ => ?_
    split
    · trivial
    · exact leaves_refuseOr _ fun _ => ((Flow.refl _).enterRestoring z).settleWing.leaves _
  | ackFault tag fault =>
    right; unfold runOrder orderAckFault
    refine judgeOrder_cases _ _ _ _ _ fun h => leaves_refuseOr _ fun _ => ?_
    rcases h with h | h
    · exact ⟨rfl, rfl, rfl, rfl, fun k => absurd k h, fun _ _ => rfl, fun _ _ _ => ⟨rfl, rfl, rfl, rfl⟩⟩
    · cases h
  | loadGeometryRecord tag a g key =>
    right; unfold runOrder orderLoadGeometryRecord
    refine judgeOrder_cases (s.setKeyLine key) _ _ _ _ fun _ => leaves_ite (fun _ => ?_) fun hm => ?_
    · exact leaves_reworkVerdict _ tag a g key rfl
    · have hm : (s.setKeyLine key).mode = .commissioning := by
        cases h : (s.setKeyLine key).mode with
        | commissioning => rfl
        | inService => simp only [State.isInService, h, decide_true, not_true] at hm
      refine leaves_badFieldUnless _ ?_
      show Leaves _ _ (State.storeGeometry _ a g)
      unfold State.storeGeometry
      split
      · exact leaves_load hm rfl rfl rfl rfl
      · refine Leaves.trans (t := (s.setKeyLine key).setAisles ((s.setKeyLine key).aisles.put a (Aisle.created g)))
          (leaves_load hm rfl rfl rfl rfl) (((Flow.refl _).report _ _ _).leaves _) rfl
  | loadRetryOffsetList tag a l key =>
    right; unfold runOrder orderLoadRetryOffsetList
    refine judgeOrder_cases (s.setKeyLine key) _ _ _ _ fun _ => ?_
    split
    · trivial
    · refine leaves_ite (fun _ => trivial) fun hc => leaves_badFieldUnless _ ⟨rfl, rfl, rfl, rfl, fun _ => rfl, fun _ _ => rfl,
        fun hm _ hr => ?_⟩
      exfalso
      have hk : key = false := by
        cases key with
        | false => rfl
        | true => exact absurd rfl hr
      have hm2 : s.mode = .inService := hm
      apply hc
      simp [State.isInService, State.reworkOpen, State.setKeyLine, hk, hm2]
  | loadStationRecord tag st f =>
    right; unfold runOrder orderLoadStationRecord
    refine judgeOrder_cases _ _ _ _ _ fun _ => leaves_lockedInService fun hm => leaves_badFieldUnless _ ?_
    show Leaves _ _ (State.storeStation _ _ _)
    unfold State.storeStation
    split <;> exact leaves_load hm rfl rfl rfl rfl
  | loadZoneRecord tag z w =>
    right; unfold runOrder orderLoadZoneRecord
    refine judgeOrder_cases _ _ _ _ _ fun _ => leaves_lockedInService fun hm => leaves_badFieldUnless _ ?_
    show Leaves _ _ (State.storeZone _ _ _)
    unfold State.storeZone
    split <;> exact leaves_load hm rfl rfl rfl rfl
  | loadConcentratorRecord tag n a z p =>
    right; unfold runOrder orderLoadConcentratorRecord
    refine judgeOrder_cases _ _ _ _ _ fun _ => leaves_lockedInService fun hm => leaves_badFieldUnless _ ?_
    show Leaves _ _ (State.storeConcentrator _ _ _ _ _)
    unfold State.storeConcentrator
    split <;> exact leaves_load hm rfl rfl rfl rfl
  | loadShutterRecord tag n a z =>
    right; unfold runOrder orderLoadShutterRecord
    refine judgeOrder_cases _ _ _ _ _ fun _ => leaves_lockedInService fun hm => leaves_badFieldUnless _ ?_
    show Leaves _ _ (State.storeShutter _ _ _ _)
    unfold State.storeShutter
    split <;> exact leaves_load hm rfl rfl rfl rfl
  | loadFieldAddress tag a e =>
    right; unfold runOrder orderLoadFieldAddress
    refine judgeOrder_cases _ _ _ _ _ fun _ => leaves_lockedInService fun hm => ?_
    split
    · exact leaves_badFieldUnless _ (leaves_load hm rfl rfl rfl rfl)
    · exact leaves_badFieldUnless _ (leaves_load hm rfl rfl rfl rfl)
  | loadReportClass tag k c =>
    right; unfold runOrder orderLoadReportClass
    exact judgeOrder_cases _ _ _ _ _ fun _ => leaves_lockedInService fun hm =>
      leaves_badFieldUnless _ (leaves_load hm rfl rfl rfl rfl)
  | loadWingSettings tag c p h =>
    right; unfold runOrder orderLoadWingSettings
    exact judgeOrder_cases _ _ _ _ _ fun _ => leaves_lockedInService fun hm =>
      leaves_badFieldUnless _ (leaves_load hm rfl rfl rfl rfl)
  | binMapAdd tag n v c k =>
    right; unfold runOrder orderBinMapAdd
    refine judgeOrder_cases _ _ _ _ _ fun _ => ?_
    split
    · trivial
    · exact leaves_refuseOr _ fun _ => leaves_stock rfl rfl rfl rfl rfl rfl rfl rfl
  | binMapEdit tag n v c k =>
    right; unfold runOrder orderBinMapEdit
    refine judgeOrder_cases _ _ _ _ _ fun _ => leaves_ite (fun _ => ?_) fun _ => ?_
    · unfold State.rerateVerdict
      split
      · trivial
      · exact leaves_refuseOr _ fun _ => leaves_stock rfl rfl rfl rfl rfl rfl rfl rfl
    · unfold State.redescribeVerdict
      split
      · trivial
      · exact leaves_ite (fun _ => trivial) fun _ => leaves_stock rfl rfl rfl rfl rfl rfl rfl rfl
  | binMapRetire tag n =>
    right; unfold runOrder orderBinMapRetire
    refine judgeOrder_cases _ _ _ _ _ fun _ => leaves_ite (fun _ => trivial) fun _ => ?_
    split
    · trivial
    · exact leaves_refuseOr _ fun _ => leaves_stock rfl rfl rfl rfl rfl rfl rfl rfl
  | itemDirectoryAdd tag n t k st h =>
    right; unfold runOrder orderItemDirectoryAdd
    refine judgeOrder_cases _ _ _ _ _ fun _ => ?_
    split
    · trivial
    · refine leaves_refuseOr _ fun _ => ?_
      split
      · exact leaves_storeItem _ _ _
      · split
        · trivial
        · exact leaves_refuseOr _ fun _ => leaves_storeItem _ _ _
  | itemDirectoryEdit tag n t k =>
    right; unfold runOrder orderItemDirectoryEdit
    refine judgeOrder_cases _ _ _ _ _ fun _ => leaves_ite (fun _ => ?_) fun _ => ?_
    · unfold State.editVerdict
      split
      · trivial
      · exact leaves_refuseOr _ fun _ => leaves_modHome _ _ (leaves_stock rfl rfl rfl rfl rfl rfl rfl rfl) rfl
    · unfold State.describeVerdict
      refine leaves_badFieldUnless _ ?_
      split
      · trivial
      · exact leaves_badFieldUnless _ (leaves_modHome _ _ (leaves_stock rfl rfl rfl rfl rfl rfl rfl rfl) rfl)
  | itemDirectoryRemove tag n =>
    right; unfold runOrder orderItemDirectoryRemove
    refine judgeOrder_cases _ _ _ _ _ fun _ => leaves_ite (fun _ => trivial) fun _ => ?_
    split
    · trivial
    · exact leaves_ite (fun _ => trivial) fun _ => leaves_modHome _ _ (leaves_stock rfl rfl rfl rfl rfl rfl rfl rfl) rfl
  | readRecord tag table key =>
    right; unfold runOrder orderReadRecord
    refine judgeOrder_cases _ _ _ _ _ fun _ => ?_
    unfold State.readVerdict
    split
    case h_9 => exact Leaves.refl _ s
    case h_14 => trivial
    all_goals exact leaves_found _ _
  | closeCommissioning tag =>
    right; unfold runOrder orderCloseCommissioning
    refine judgeOrder_cases _ _ _ _ _ fun _ => leaves_ite (fun _ => Leaves.refl _ s) fun hm => ?_
    split
    · trivial
    · refine Leaves.commission ?_ tag
      show s.mode = .commissioning
      have hm : ¬ decide (s.mode = .inService) = true := hm
      cases h : s.mode with
      | commissioning => rfl
      | inService => simp [h] at hm
  | reopenCommissioning tag key =>
    right; unfold runOrder orderReopenCommissioning
    exact judgeOrder_cases (s.setKeyLine key) _ _ _ _ fun _ => leaves_ite (fun _ => Leaves.refl _ _) fun _ =>
      leaves_refuseOr _ fun _ => Leaves.reopen tag key
  | queryStatus tag scope n p key =>
    right; unfold runOrder orderQueryStatus
    refine judgeOrder_cases (s.setKeyLine key) _ _ _ _ fun _ => ?_
    unfold State.statusVerdict
    split
    case h_1 => exact Leaves.refl _ _
    case h_6 => exact Leaves.refl _ _
    all_goals exact leaves_found _ _
  | readIdentity tag =>
    right; unfold runOrder orderReadIdentity
    exact judgeOrder_cases _ _ _ _ _ fun _ => Leaves.refl _ s
  | restart tag =>
    right; unfold runOrder orderRestart
    exact judgeOrder_cases _ _ _ _ _ fun _ =>
      ⟨rfl, rfl, rfl, rfl, fun _ => rfl, fun _ _ => rfl, fun _ _ _ => ⟨rfl, rfl, rfl, rfl⟩⟩
  | unknownOrder tag why =>
    right
    cases why with
    | kind n =>
      unfold runOrder orderUnknown
      simp only
      split
      · exact ⟨s, _, .refl _ s, rfl⟩
      · exact ⟨s, _, .refl _ s, rfl⟩
    | table n =>
      unfold runOrder orderUnknown
      exact judgeOrder_cases _ _ _ _ _ fun _ => trivial
  | _ => left; rfl

end Sys2Proof.Machine
end

