-- ==== Sys2Proof/Laws/PerInstr.lean ====
section
/-! SUPPORT. What well-formedness says of every command's tag and sender, command by command: a tag is a two-byte field and a
field address a one-byte field (R186, Table 11.1), and no command carries both. -/
namespace Sys2Proof.Laws.Operands

/-- A well-formed command's order tag fits two bytes and its sender one byte; a command is an ORDER frame or a FIELD frame,
never both. -/
def Statement (i : Instr) : Prop :=
  i.wellFormed = true →
    (∀ t, i.orderTag = some t → t ≤ Config.maxTag) ∧ (∀ a, i.sender = some a → a ≤ 255)
      ∧ (i.orderTag = none ∨ i.sender = none)

theorem of_one_kind (i : Instr) (h : i.orderTag = none ∨ i.sender = none) : Statement i := by
  intro hw
  unfold Instr.wellFormed at hw
  simp only [Bool.and_eq_true] at hw
  refine ⟨fun t ht => ?_, fun a ha => ?_, h⟩
  · have := hw.1.1
    rw [ht] at this
    exact of_decide_eq_true this
  · have := hw.1.2
    rw [ha] at this
    exact of_decide_eq_true this

theorem powerOn (firePanel key : Bool) : Statement (.powerOn firePanel key) := of_one_kind _ (.inl rfl)
theorem resetLineAsserted : Statement .resetLineAsserted := of_one_kind _ (.inl rfl)
theorem firePanelAsserted : Statement .firePanelAsserted := of_one_kind _ (.inl rfl)
theorem firePanelNegated : Statement .firePanelNegated := of_one_kind _ (.inl rfl)
theorem badFrame (port : Port) (bytes : List Byte) : Statement (.badFrame port bytes) := of_one_kind _ (.inl rfl)
theorem unadmittedFieldTelegram (src kind : Nat) :
    Statement (.unadmittedFieldTelegram src kind) := of_one_kind _ (.inl rfl)
theorem sendNextFrame : Statement .sendNextFrame := of_one_kind _ (.inl rfl)
theorem restartTakesEffect : Statement .restartTakesEffect := of_one_kind _ (.inl rfl)
theorem requestItem (tag station : Nat) (items : List Nat) :
    Statement (.requestItem tag station items) := of_one_kind _ (.inr rfl)
theorem withdrawRequest (tag request : Nat) : Statement (.withdrawRequest tag request) := of_one_kind _ (.inr rfl)
theorem confirmLoan (tag item reference : Nat) :
    Statement (.confirmLoan tag item reference) := of_one_kind _ (.inr rfl)
theorem cancelLoan (tag item reference : Nat) : Statement (.cancelLoan tag item reference) := of_one_kind _ (.inr rfl)
theorem callBin (tag bin station : Nat) : Statement (.callBin tag bin station) := of_one_kind _ (.inr rfl)
theorem moveBin (tag bin : Nat) (slot : SlotField) : Statement (.moveBin tag bin slot) := of_one_kind _ (.inr rfl)
theorem auditBin (tag bin : Nat) : Statement (.auditBin tag bin) := of_one_kind _ (.inr rfl)
theorem releaseBin (tag bin : Nat) : Statement (.releaseBin tag bin) := of_one_kind _ (.inr rfl)
theorem aisleOut (tag aisle : Nat) : Statement (.aisleOut tag aisle) := of_one_kind _ (.inr rfl)
theorem aisleIn (tag aisle : Nat) : Statement (.aisleIn tag aisle) := of_one_kind _ (.inr rfl)
theorem shutZone (tag zone : Nat) : Statement (.shutZone tag zone) := of_one_kind _ (.inr rfl)
theorem restoreZone (tag zone : Nat) (force key : Bool) :
    Statement (.restoreZone tag zone force key) := of_one_kind _ (.inr rfl)
theorem ackFault (tag fault : Nat) : Statement (.ackFault tag fault) := of_one_kind _ (.inr rfl)
theorem loadGeometryRecord (tag aisle : Nat) (fields : Geometry) (key : Bool) :
    Statement (.loadGeometryRecord tag aisle fields key) := of_one_kind _ (.inr rfl)
theorem loadRetryOffsetList (tag aisle : Nat) (offsets : List (Int × Int)) (key : Bool) :
    Statement (.loadRetryOffsetList tag aisle offsets key) := of_one_kind _ (.inr rfl)
theorem loadStationRecord (tag station : Nat) (fields : StationFields) :
    Statement (.loadStationRecord tag station fields) := of_one_kind _ (.inr rfl)
theorem loadZoneRecord (tag zone window : Nat) :
    Statement (.loadZoneRecord tag zone window) := of_one_kind _ (.inr rfl)
theorem loadConcentratorRecord (tag concentrator address zone period : Nat) :
    Statement (.loadConcentratorRecord tag concentrator address zone period) := of_one_kind _ (.inr rfl)
theorem loadShutterRecord (tag shutter address zone : Nat) :
    Statement (.loadShutterRecord tag shutter address zone) := of_one_kind _ (.inr rfl)
theorem loadFieldAddress (tag address : Nat) (entry : Option Device) :
    Statement (.loadFieldAddress tag address entry) := of_one_kind _ (.inr rfl)
theorem loadReportClass (tag kind : Nat) (cls : ReportClass) :
    Statement (.loadReportClass tag kind cls) := of_one_kind _ (.inr rfl)
theorem loadWingSettings (tag confirm stop shutter : Nat) :
    Statement (.loadWingSettings tag confirm stop shutter) := of_one_kind _ (.inr rfl)
theorem binMapAdd (tag bin : Nat) (home : SlotField) (capacity sizeClass : Nat) :
    Statement (.binMapAdd tag bin home capacity sizeClass) := of_one_kind _ (.inr rfl)
theorem binMapEdit (tag bin : Nat) (home : SlotField) (capacity sizeClass : Nat) :
    Statement (.binMapEdit tag bin home capacity sizeClass) := of_one_kind _ (.inr rfl)
theorem binMapRetire (tag bin : Nat) : Statement (.binMapRetire tag bin) := of_one_kind _ (.inr rfl)
theorem itemDirectoryAdd (tag item thickness sizeClass : Nat) (state : Option ItemState) (home : Option Nat) :
    Statement (.itemDirectoryAdd tag item thickness sizeClass state home) := of_one_kind _ (.inr rfl)
theorem itemDirectoryEdit (tag item thickness sizeClass : Nat) :
    Statement (.itemDirectoryEdit tag item thickness sizeClass) := of_one_kind _ (.inr rfl)
theorem itemDirectoryRemove (tag item : Nat) : Statement (.itemDirectoryRemove tag item) := of_one_kind _ (.inr rfl)
theorem readRecord (tag table key : Nat) : Statement (.readRecord tag table key) := of_one_kind _ (.inr rfl)
theorem closeCommissioning (tag : Nat) : Statement (.closeCommissioning tag) := of_one_kind _ (.inr rfl)
theorem reopenCommissioning (tag : Nat) (key : Bool) :
    Statement (.reopenCommissioning tag key) := of_one_kind _ (.inr rfl)
theorem queryStatus (tag : Nat) (scope : Scope) (number position : Nat) (key : Bool) :
    Statement (.queryStatus tag scope number position key) := of_one_kind _ (.inr rfl)
theorem readIdentity (tag : Nat) : Statement (.readIdentity tag) := of_one_kind _ (.inr rfl)
theorem restart (tag : Nat) : Statement (.restart tag) := of_one_kind _ (.inr rfl)
theorem passDown (station : Nat) (text : List Byte) : Statement (.passDown station text) := of_one_kind _ (.inl rfl)
theorem phase (src : Nat) (phase : Phase) (bay level : Nat) :
    Statement (.phase src phase bay level) := of_one_kind _ (.inl rfl)
theorem done (src : Nat) : Statement (.done src) := of_one_kind _ (.inl rfl)
theorem pickFailed (src : Nat) (reason : PickReason) : Statement (.pickFailed src reason) := of_one_kind _ (.inl rfl)
theorem auditResult (src : Nat) (reading : Reading) : Statement (.auditResult src reading) := of_one_kind _ (.inl rfl)
theorem stopped (src : Nat) (phase : Phase) (load forks : Bool) :
    Statement (.stopped src phase load forks) := of_one_kind _ (.inl rfl)
theorem parked (src : Nat) (reading : Reading) : Statement (.parked src reading) := of_one_kind _ (.inl rfl)
theorem craneFault (src : Nat) : Statement (.craneFault src) := of_one_kind _ (.inl rfl)
theorem binArrived (src label : Nat) : Statement (.binArrived src label) := of_one_kind _ (.inl rfl)
theorem itemOutScan (src item : Nat) : Statement (.itemOutScan src item) := of_one_kind _ (.inl rfl)
theorem itemInScan (src item : Nat) : Statement (.itemInScan src item) := of_one_kind _ (.inl rfl)
theorem returnScan (src item : Nat) : Statement (.returnScan src item) := of_one_kind _ (.inl rfl)
theorem binDone (src label : Nat) : Statement (.binDone src label) := of_one_kind _ (.inl rfl)
theorem mouthOccupied (src : Nat) : Statement (.mouthOccupied src) := of_one_kind _ (.inl rfl)
theorem mouthClear (src : Nat) : Statement (.mouthClear src) := of_one_kind _ (.inl rfl)
theorem stationFault (src : Nat) : Statement (.stationFault src) := of_one_kind _ (.inl rfl)
theorem terminalKey (src : Nat) (data : List Byte) : Statement (.terminalKey src data) := of_one_kind _ (.inl rfl)
theorem closed (src : Nat) : Statement (.closed src) := of_one_kind _ (.inl rfl)
theorem opened (src : Nat) : Statement (.opened src) := of_one_kind _ (.inl rfl)
theorem jammed (src : Nat) : Statement (.jammed src) := of_one_kind _ (.inl rfl)
theorem beat (src token : Nat) : Statement (.beat src token) := of_one_kind _ (.inl rfl)
theorem prealarm (src detector : Nat) : Statement (.prealarm src detector) := of_one_kind _ (.inl rfl)
theorem alarm (src detector : Nat) : Statement (.alarm src detector) := of_one_kind _ (.inl rfl)
theorem clear (src detector : Nat) : Statement (.clear src detector) := of_one_kind _ (.inl rfl)
theorem trouble (src detector : Nat) : Statement (.trouble src detector) := of_one_kind _ (.inl rfl)
theorem craneDeadlineExpiry (aisle : Nat) : Statement (.craneDeadlineExpiry aisle) := of_one_kind _ (.inl rfl)
theorem inTransitDeadlineExpiry (station bin : Nat) :
    Statement (.inTransitDeadlineExpiry station bin) := of_one_kind _ (.inl rfl)
theorem confirmWindowExpiry (request : Nat) : Statement (.confirmWindowExpiry request) := of_one_kind _ (.inl rfl)
theorem alertWindowExpiry (zone : Nat) : Statement (.alertWindowExpiry zone) := of_one_kind _ (.inl rfl)
theorem supervisionExpiry (concentrator : Nat) :
    Statement (.supervisionExpiry concentrator) := of_one_kind _ (.inl rfl)
theorem shutterWaitExpiry (shutter : Nat) : Statement (.shutterWaitExpiry shutter) := of_one_kind _ (.inl rfl)
theorem stopWaitExpiry (aisle : Nat) : Statement (.stopWaitExpiry aisle) := of_one_kind _ (.inl rfl)
theorem unknownOrder (tag : Nat) (why : Unreadable) : Statement (.unknownOrder tag why) := of_one_kind _ (.inr rfl)

end Sys2Proof.Laws.Operands
end

