-- ==== Sys2Proof/Tests/Slice0.lean ====
section
/-! SUPPORT. Tests: the well-formedness checks refuse ill-formed commands; the worked figures and sequences of the spec come
out as it prints them, one command at a time; and, for each statement of Certificates/Slice0 with hypotheses, a concrete state
and operands that meet the hypotheses of each of its clauses (`witness_<Name>`). -/
open Sys2Proof Sys2Proof.Machine
set_option maxRecDepth 10000
set_option synthInstance.maxSize 2000
namespace Sys2Proof.Tests

/-! ### The well-formedness checks, each with a term it refuses -/

def geom : Geometry :=
  { bays := 40, levels := 12, h0 := 12, h1 := 4, v0 := 8, v1 := 6, handling := 35, margin := 33, grace := 60, zone := 8 }

def slotField : SlotField := { aisle := 6, bay := 37, level := 9, side := 1 }

def fields : StationFields :=
  { address := 10, zone := 8, lending := true, returns := true, depth := 2, conveyor := 90, linked := [6], shutter := some 8 }

theorem test_orders_are_checked :
    ∀ i ∈ [Instr.auditBin 65536 0, .unknownOrder 1 (.kind 256), .unknownOrder 1 (.table 11), .requestItem 1 256 [1],
           .requestItem 1 4 [4294967296], .requestItem 1 4 (List.replicate 16 1), .withdrawRequest 1 65536,
           .confirmLoan 1 4294967296 1, .cancelLoan 1 1 65536, .callBin 1 65536 4, .callBin 1 0 256,
           .moveBin 1 0 { slotField with bay := 256 }, .moveBin 1 0 { slotField with side := 256 }, .releaseBin 1 65536,
           .aisleOut 1 256, .aisleIn 1 256, .shutZone 1 256, .restoreZone 1 256 true true, .ackFault 1 256,
           .readRecord 1 256 0, .readRecord 1 1 4294967296, .queryStatus 1 .aisle 256 0 true,
           .queryStatus 1 .queue 1 65536 true], i.wellFormed = false := by decide

theorem test_loads_are_checked :
    ∀ i ∈ [Instr.loadGeometryRecord 1 256 geom true, .loadGeometryRecord 1 6 { geom with margin := 65536 } true,
           .loadRetryOffsetList 1 6 [(128, 0)] true, .loadRetryOffsetList 1 6 [(0, -129)] true,
           .loadStationRecord 1 256 fields, .loadStationRecord 1 4 { fields with conveyor := 65536 },
           .loadStationRecord 1 4 { fields with linked := [9] }, .loadStationRecord 1 4 { fields with linked := [6, 6] },
           .loadStationRecord 1 4 { fields with shutter := some 256 }, .loadZoneRecord 1 8 65536,
           .loadConcentratorRecord 1 16 63 8 65536, .loadShutterRecord 1 256 62 8,
           .loadFieldAddress 1 63 (some { role := .crane, index := 256 }), .loadReportClass 1 256 .urgent,
           .loadWingSettings 1 65536 50 50, .binMapAdd 1 0 { slotField with level := 256 } 50 0,
           .binMapEdit 1 0 slotField 65536 0, .binMapRetire 1 65536, .itemDirectoryAdd 1 1 256 0 (some .lent) none,
           .itemDirectoryAdd 1 1 1 0 none (some 65536), .itemDirectoryEdit 1 1 1 256,
           .itemDirectoryRemove 1 4294967296], i.wellFormed = false := by decide

theorem test_telegrams_and_events_are_checked :
    ∀ i ∈ [Instr.done 256, .phase 1 .picking 256 1, .phase 1 .picking 1 256, .auditResult 1 (.label 65535),
           .parked 1 (.label 65535), .binArrived 10 65536, .binDone 10 65536, .itemOutScan 10 4294967296,
           .itemInScan 10 4294967296, .returnScan 10 4294967296, .terminalKey 10 (List.replicate 65 0#8), .passDown 256 [],
           .passDown 4 (List.replicate 65 0#8), .beat 63 256, .prealarm 63 256, .alarm 63 256, .clear 63 256,
           .trouble 63 256, .unadmittedFieldTelegram 1 256, .craneDeadlineExpiry 0, .stopWaitExpiry 7,
           .inTransitDeadlineExpiry 5 0, .inTransitDeadlineExpiry 4 16384, .confirmWindowExpiry 0, .alertWindowExpiry 9,
           .supervisionExpiry 17, .shutterWaitExpiry 9,
           .badFrame .circulation (Frame.bytes { destination := 0, source := 0, cls := 1, kind := 14, tag := 1, body := [] })],
      i.wellFormed = false := by decide

theorem test_commands_of_the_spec_are_well_formed :
    ∀ i ∈ [Instr.requestItem 65535 4 [1, 4294967295], .loadGeometryRecord 1 6 geom true,
           .loadRetryOffsetList 1 6 [(40, -40)] true, .loadStationRecord 1 4 fields, .auditResult 1 (.label 16383),
           .parked 1 .none, .badFrame .fieldLink [0xA5#8]], i.wellFormed = true := by decide

/-! ### Worked figures -/

/-- R186: the divisor, the start value and the bit order are those of the catalogued check CRC-16/IBM-3740, whose value over
the text "123456789" is 29B1 hexadecimal. -/
theorem test_frame_check :
    frameCheck [0x31#8, 0x32#8, 0x33#8, 0x34#8, 0x35#8, 0x36#8, 0x37#8, 0x38#8, 0x39#8] = 0x29B1#16 := by decide

/-- R186, Table 11.1: UNSTAGE (kind 3) of job 259 to the crane at address 1, byte by byte, and RETRY (kind 4) by (+15, -1). -/
theorem test_field_frames :
    (fieldFrame 1 (.unstage 259)).covered = [1#8, 0#8, 6#8, 3#8, 0#8, 0#8, 2#8, 1#8, 3#8]
    ∧ (fieldFrame 63 (.retry (15, -1))).covered = [63#8, 0#8, 6#8, 4#8, 0#8, 0#8, 2#8, 15#8, 255#8]
    ∧ (fieldFrame 10 (.present 7 1 0 [258])).body = [0#8, 7#8, 1#8, 0#8, 0#8, 0#8, 1#8, 2#8]
    ∧ frameBad .fieldLink (fieldFrame 62 (.closeShutter true)).bytes = false := by decide

/-- Section 3.5.1: the RETRIEVE from the front port. -/
theorem test_retrieve_estimate :
    let j : Job :=
      { tag := 1, kind := .retrieve, bin := some 0, source := some (.slot { aisle := 3, bay := 37, level := 9, side := .left })
        destination := .frontPort, station := some 2, purpose := some .request }
    (estimate geom 90 j frontPort, deadlineFor geom 480, extendDeadline geom 399) = (480, 699, 469)
    ∧ (estimate geom 90 j { bay := 14, level := 3 }, deadlineFor geom 424) = (424, 624) := by decide

/-- Table 3.4. -/
theorem test_rounding_cases :
    let g := { geom with margin := 20, grace := 0 }
    [500, 501, 1].map (deadlineFor g) = [600, 602, 2] ∧ deadlineFor { g with margin := 0 } 480 = 480
    ∧ [leg geom frontPort frontPort, leg geom (positionPoint geom none) frontPort] = [0, 172]
    ∧ [0, 172].map (deadlineFor geom) = [1, 289] := by decide

/-- Section 3.5.4. -/
theorem test_saturation :
    let g := { geom with bays := 120, levels := 24, h0 := 100, h1 := 50, v0 := 100, v1 := 50, handling := 200, margin := 400
                         grace := 3000 }
    leg g frontPort { bay := 120, level := 24 } = 6100 ∧ [13200, 12507, 12508].map (deadlineFor g) = [65535, 65535, 65535]
    ∧ extendDeadline g 65500 = 65535 := by decide

/-! ### A small wing, with the largest number of every record -/

def crane : Crane :=
  { state := .idle, phase := none, position := some { bay := 0, level := 1 }, active := none, staged := none
    retryIndex := 0, deadline := none, stopWait := none, suspension := none }

def bin : Bin :=
  { home := { aisle := 6, bay := 37, level := 9, side := .left }, pendingHome := none, capacity := 400, sizeClass := 2
    fill := 28, reserved := 0, count := 1, state := .stored, trip := none, next := none }

/-- One aisle, station, zone, concentrator and shutter; a full bin 0 with item 1, an empty bin 16,383, and a LENT item. -/
def wing : State :=
  { State.reset with
    mode := .inService
    aisles := [(6, { geom := geom, service := .inService, retry := [(15, 0)], queue := [], crane := crane })]
    stations := [(4, { loaded := fields, lane := [], inTransit := [], overdue := [], returns := [], hold := false
                       mouthOccupied := false })]
    zones := [(8, { window := 300, state := .normal, causes := Causes.empty, windowLeft := none })]
    concentrators := [(16, { address := 63, zone := 8, period := 100, health := .healthy, token := some 255
                             supervision := some 100, detectors := [] })]
    shutters := [(8, { address := 62, zone := 8, state := .opened, wait := none })]
    addresses := [(1, { role := .crane, index := 6 }), (10, { role := .station, index := 4 }),
                  (62, { role := .shutter, index := 8 }), (63, { role := .concentrator, index := 16 })]
    bins := [(0, bin), (16383, { bin with home := { aisle := 6, bay := 14, level := 3, side := .right }, fill := 0, count := 0 })]
    items := [(1, { thickness := 28, sizeClass := 2, state := .shelved, home := some 0, target := none }),
              (4294967295, { thickness := 250, sizeClass := 2, state := .lent, home := none, target := none })]
    nextRequest := 65535
    nextJob := 65535 }

/-- A job on bin 0. -/
def job (k : JobKind) : Job :=
  { tag := 80, kind := k, bin := some 0
    source := match k with
      | .store => some .frontPort
      | .retrieve | .transfer | .audit | .park => some (.slot bin.home)
    destination := match k with
      | .retrieve => .frontPort
      | .store | .transfer | .audit | .park => .slot bin.home
    station := match k with
      | .retrieve | .store => some 4
      | .transfer | .audit | .park => none
    purpose := if k = .retrieve then some .request else none }

/-- A PARK. -/
def park : Job :=
  { tag := 81, kind := .park, bin := none, source := none, destination := .frontPort, station := none, purpose := none }

/-- The wing with its crane active on a job. -/
def active (v : CraneState) (j : Job) (p : Phase) : State :=
  wing.modCrane 6 fun c =>
    { c with state := v, active := some j, phase := some p, deadline := some { left := 212, running := true } }

/-- The same at the last ds of the deadline. -/
def lastDs (v : CraneState) (j : Job) (p : Phase) : State :=
  (active v j p).modCrane 6 fun c => { c with deadline := some { left := 1, running := true } }

/-- Bin 0 presented at station 4. -/
def shown : State :=
  (wing.modBin 0 fun b => { b with state := .inLane, trip := some 4 }).modStation 4 fun x => { x with lane := [.bin 0] }

/-- Item 1 requested, and its request. -/
def request (v : RequestState) : Request := { tag := 65535, order := 1, item := 1, station := 4, state := v, window := none }
def requested (s : State) (v : RequestState) : State :=
  { s.modItem 1 (fun i => { i with state := if v = .picked then .picked else .requested }) with requests := [request v] }

/-- The wing with zone 8 in a state. -/
def inZone (s : State) (v : ZoneState) : State := s.modZone 8 fun x => { x with state := v }

/-- The next state of a command, where it answers one. -/
def after (c : Instr) (s : State) : Option State :=
  match exec c s with
  | .next t => some t
  | .fault _ | .refused _ => none

/-! ### Worked sequences, one command each -/

/-- The wing of 11.9 before its close: address 21 names a concentrator that has no record. -/
def unclosed : State :=
  { State.reset with
    aisles := [(1, { geom := { geom with zone := 1 }, service := .inService, retry := [], queue := []
                     crane := { crane with state := .parking, position := none } })]
    stations := [(1, { loaded := { fields with zone := 1, linked := [1], shutter := none }, lane := [], inTransit := []
                       overdue := [], returns := [], hold := false, mouthOccupied := false })]
    zones := [(1, { window := 300, state := .normal, causes := Causes.empty, windowLeft := none })]
    concentrators := [(1, { address := 20, zone := 1, period := 100, health := .unheard, token := none, supervision := none
                            detectors := [] })]
    addresses := [(5, { role := .crane, index := 1 }), (10, { role := .station, index := 1 }),
                  (20, { role := .concentrator, index := 1 }), (21, { role := .concentrator, index := 2 })] }

/-- 11.9, step 1. -/
theorem test_close_check_five :
    after (.closeCommissioning 400) unclosed
      = some (unclosed.reply { tag := 400, refusal := some .checkFailed, detail := 5, result := .empty }) := by decide

/-- 11.9, step 2. -/
theorem test_load_field_address_none :
    (after (.loadFieldAddress 401 21 none) unclosed).map (fun t => (t.addresses.numbers, t.link.replies))
      = some ([5, 10, 20], [{ tag := 401, refusal := none, detail := 0, result := .empty }]) := by decide

/-- 11.9, step 3. -/
theorem test_close_sets_up :
    (after (.closeCommissioning 402) { unclosed with addresses := unclosed.addresses.remove 21 }).map (fun t =>
        (t.mode, t.zones.look 1, (t.concentrators.look 1).map fun c => (c.health, c.supervision),
         (t.aisles.look 1).map fun x => (x.crane.state, x.crane.active.map (·.kind)), t.link.urgent.length))
      = some (.inService,
          some { window := 300, state := .alert, causes := { Causes.empty with start := true }, windowLeft := some 300 },
          some (.unheard, some 100), some (.parking, some .park), 1) := by decide

/-- 11.9, step 4. -/
theorem test_load_zone_locked :
    after (.loadZoneRecord 403 8 50) wing
      = some (wing.reply { tag := 403, refusal := some .locked, detail := 0, result := .empty }) := by decide

/-- The wing of 9.8: RETRIEVE 80 in PICKING, bin 1400 presented, the mouth OCCUPIED. -/
def caught : State :=
  let retrieve : Job :=
    { tag := 80, kind := .retrieve, bin := some 2060, source := some (.slot { aisle := 2, bay := 1, level := 1, side := .left })
      destination := .frontPort, station := some 1, purpose := some .request }
  { wing with
    aisles := [(2, { geom := { geom with zone := 1, handling := 40, margin := 25, grace := 50 }, service := .inService
                     retry := [], queue := []
                     crane := { crane with state := .busy, phase := some .picking, active := some retrieve
                                           deadline := some { left := 212, running := true } } })]
    stations := [(1, { loaded := { fields with zone := 1, conveyor := 120, linked := [2], shutter := some 3 }
                       lane := [.bin 1400], inTransit := [], overdue := [], returns := [], hold := false
                       mouthOccupied := true })]
    zones := [(1, { window := 300, state := .normal, causes := Causes.empty, windowLeft := none })]
    concentrators := [(1, { address := 63, zone := 1, period := 100, health := .healthy, token := some 1
                            supervision := some 100, detectors := [] })]
    shutters := [(3, { address := 61, zone := 1, state := .opened, wait := none }),
                 (4, { address := 62, zone := 1, state := .opened, wait := none })]
    addresses := [(1, { role := .crane, index := 2 }), (10, { role := .station, index := 1 }),
                  (61, { role := .shutter, index := 3 }), (62, { role := .shutter, index := 4 }),
                  (63, { role := .concentrator, index := 1 })]
    bins := [(1400, { bin with home := { aisle := 2, bay := 2, level := 1, side := .left }, state := .inLane, trip := some 1 }),
             (2060, { bin with home := { aisle := 2, bay := 1, level := 1, side := .left }, state := .called, trip := some 1 })]
    items := [(7, { thickness := 28, sizeClass := 2, state := .requested, home := some 1400, target := none })]
    requests := [{ tag := 330, order := 1, item := 7, station := 1, state := .presented, window := none }] }

/-- 9.8 between the steps: zone 1 in SHUTDOWN, shutter 4 CLOSING, shutter 3 and the crane as given. -/
def closing (v : ShutterState) (w : Option Nat) (f : Crane → Crane) : State :=
  { inZone { caught with zones := [(1, { window := 300, state := .shutdown, causes := Causes.empty, windowLeft := none })] }
      .shutdown with
    shutters := [(3, { address := 61, zone := 1, state := v, wait := w }),
                 (4, { address := 62, zone := 1, state := .closed, wait := none })] }.modCrane 2 f

/-- 9.8, step 1. -/
theorem test_alarm_shuts_the_zone :
    (after (.alarm 63 5) caught).map (fun t =>
        (t.zoneState 1, t.shutters.map (fun e => (e.2.state, e.2.wait)),
         (t.aisles.look 2).map fun x => (x.crane.state, x.crane.stopWait),
         t.link.field))
      = some (some .shutdown, [(.waitingMouth, some 300), (.closing, none)], some (.stopping, some 150),
          [fieldFrame 10 .hold, fieldFrame 10 .retract, fieldFrame 1 .stop, fieldFrame 62 (.closeShutter false)]) := by decide

/-- 9.8, step 2: the phase at stop is raised by the load; the paused deadline is 200. -/
theorem test_stopped_suspends_the_job :
    (after (.stopped 1 .picking true true) (closing .waitingMouth (some 300) fun c =>
        { c with state := .stopping, stopWait := some 138, deadline := some { left := 200, running := true } })).bind
        (fun t => (t.aisles.look 2).bind fun x => x.crane.suspension.map fun r =>
          (x.crane.state, x.crane.active, r.job.tag, r.phaseAtStop, r.recoverable, r.pausedLeft, r.parkLabel))
      = some (.stopped, none, 80, .toDest, false, 200, none) := by decide

/-- 9.8, step 4. -/
theorem test_shutter_wait_locks_the_bin_out :
    (after (.shutterWaitExpiry 3) (closing .waitingMouth (some 1) id)).map (fun t =>
        ((t.shutters.look 3).map (·.state), t.binState 1400, t.requests.map (·.state), t.link.field))
      = some (some .closing, some .lockedOut, [.atStation], [fieldFrame 61 (.closeShutter true)]) := by decide

/-- 9.8, step 5. -/
theorem test_last_closed_secures :
    (after (.closed 61) (closing .closing none fun c => { c with state := .stopped, active := none })).map
        (fun t => (t.zoneState 1, t.securedLine, t.link.urgent.map (·.code)))
      = some (some .secured, true, [some (.zoneState .secured)]) := by decide

/-- 9.8, steps 8 and 9: the last OPENED ends the restoration, and RETRIEVE 80 is resumed with D = 250. -/
theorem test_opened_resumes_the_job :
    let s := { caught with
      zones := [(1, { window := 300, state := .restoring, causes := Causes.empty, windowLeft := none })]
      shutters := [(3, { address := 61, zone := 1, state := .opening, wait := none }),
                   (4, { address := 62, zone := 1, state := .opened, wait := none })] }
    let held := s.modCrane 2 fun c =>
      { c with state := .idle, active := none, phase := none, deadline := none
               suspension := c.active.map fun j =>
                 { job := j, phaseAtStop := .toDest, load := true, forks := true, recoverable := false, pausedLeft := 200
                   parkLabel := some (.label 2060) } }
    (after (.opened 61) (held.modBin 1400 fun b => { b with state := .lockedOut })).map (fun t =>
        (t.zoneState 1, t.binState 2060, (t.aisles.look 2).map fun x =>
          (x.crane.state, x.crane.phase, x.crane.deadline, x.crane.suspension), t.claims 1))
      = some (some .normal, some .onCrane,
          some (.busy, some .toDest, some { left := 250, running := true }, none), 2) := by decide

/-- R93, R87: bin 0, which stands at the top of the lane, arrives again. The place below is laid bare and presented, and then
covered by the push. -/
theorem test_rearrival_presents_the_place_below :
    let s := (shown.modBin 16383 fun b => { b with state := .inLane, trip := some 4 }).modStation 4 fun x =>
      { x with lane := [.bin 0, .bin 16383] }
    (after (.binArrived 10 0) s).map (fun t => ((t.stations.look 4).map (·.lane), t.binState 0, t.link.routine))
      = some (some [.bin 0, .bin 16383], some .inDoubt,
          [.report { kind := .binPresented, subject := .bin 16383, order := none, code := some (.number 4) },
           .report { kind := .binInDoubt, subject := .bin 0, order := none, code := none },
           .report { kind := .unexpectedBin, subject := .bin 0, order := none, code := some (.number 4) }]) := by decide

/-- R172, R151: a restored zone with a cause posts NORMAL, makes its actions (here bin 16383 on the forks, which no job
accounts for, in a wing where all reports are URGENT), and posts ALERT last. -/
theorem test_alert_is_posted_after_the_normal_actions :
    let s := { (wing.modZone 8 fun x => { x with state := .restoring, causes := { Causes.empty with trouble := true } }) with
      classes := (List.range' 1 22).map fun n => (n, ReportClass.urgent) }
    let held := s.modCrane 6 fun c =>
      { c with suspension := some
                { job := job .retrieve, phaseAtStop := .toDest, load := true, forks := true, recoverable := false
                  pausedLeft := 200, parkLabel := some (.label 16383) } }
    let l := ((held.judgeZone 8).link.urgent).map (·.code)
    l.head? = some (some (.zoneState .normal)) ∧ l.getLast? = some (some (.zoneState .alert))
      ∧ some (.service .outOfService) ∈ l := by decide

/-- R31, R32: an ADD with a state other than SHELVED or LENT, or with one that its field does not name, is BAD_FIELD. -/
theorem test_add_of_another_state_is_bad_field :
    ∀ s ∈ [wing, { wing with mode := .commissioning }], ∀ v ∈ [none, some ItemState.held, some .overflow],
      after (.itemDirectoryAdd 1 2 28 2 v none) s
        = some (s.reply { tag := 1, refusal := some .badField, detail := 0, result := .empty }) := by decide

/-- 4.11, step 6: RETRY with the pair (+15, 0); the deadline rises by 2 K = 70. -/
theorem test_pick_failed_retries :
    (after (.pickFailed 1 .emptySlot) (active .busy (job .retrieve) .picking)).bind (fun t =>
        (t.aisles.look 6).map fun x =>
          (x.crane.retryIndex, x.crane.deadline.map (·.left), t.link.field))
      = some (1, some 282, [fieldFrame 1 (.retry (15, 0))]) := by decide

/-- 4.11, step 7: past the list, ABANDON; the bin is MISSING, its request fails and its item is SHELVED. -/
theorem test_pick_failed_abandons :
    (after (.pickFailed 1 .emptySlot)
        (requested (((active .busy (job .retrieve) .picking).modCrane 6 fun c => { c with retryIndex := 1 }).modBin 0
          fun b => { b with state := .called, trip := some 4 }) .awaitingBin)).map (fun t =>
        (t.bins.look 0 |>.map fun b => (b.state, b.trip), t.requests, (t.items.look 1).map (·.state),
         t.link.field, (t.aisles.look 6).map fun x => (x.crane.state, x.crane.position)))
      = some (some (.missing, none), [], some .shelved, [fieldFrame 1 (.abandon 80)],
          some (.idle, some { bay := 37, level := 9 })) := by decide

/-- 10.6, step 1. -/
theorem test_deadline_expiry_raises_crane_overdue :
    (after (.craneDeadlineExpiry 6)
        { lastDs .busy (job .retrieve) .toSource with faults := { FaultUnit.reset with nextTag := 12 } }).bind (fun t =>
        (t.aisles.look 6).map fun x => (t.faults.state, t.faults.first, t.faults.nextTag, x.service, x.crane.state, x.queue))
      = some (.pending,
          some { tag := 12, kind := .craneOverdue, subject := 6, jobTag := some 80, bin := some 0, detail := none
                 recoverable := true }, 13, .outOfService, .faulted, [job .retrieve]) := by decide

/-- R44, R45, R144: the telegram or beat that is taken first leaves no expiry behind. -/
theorem test_races_end_without_expiry :
    (let s := (lastDs .busy (job .store) .placing).modCrane 6 fun c => { c with staged := some { job .audit with tag := 82 } }
     ((after (.done 1) s).bind (after (.craneDeadlineExpiry 6))).map (·.faults.state) = some .clear)
    ∧ ((after (.pickFailed 1 .emptySlot) (lastDs .busy (job .retrieve) .picking)).bind (after (.craneDeadlineExpiry 6))).bind
        (fun t => (t.aisles.look 6).map fun x => (x.crane.state, x.crane.deadline.map (·.left))) = some (.busy, some 71)
    ∧ ((after (.beat 63 0) (wing.modConcentrator 16 fun c => { c with supervision := some 1 })).bind
        (after (.supervisionExpiry 16))).bind (fun t => (t.concentrators.look 16).map (·.health)) = some .healthy := by decide

/-- The fault record of 10.6. -/
def first : FaultRecord :=
  { tag := 12, kind := .craneOverdue, subject := 6, jobTag := none, bin := none, detail := none, recoverable := true }

def faulty (s : State) : State :=
  { s with faults := { FaultUnit.reset with state := .pending, first := some first, nextTag := 13 } }

def halted (s : State) : State :=
  { s with faults := { state := .halted, first := some first, halting := some { first with tag := 13 }, nextTag := 255
                       haltedLine := true } }

/-- 10.6, step 2. -/
theorem test_ack_fault_mismatch :
    after (.ackFault 1 11) (faulty wing)
      = some ((faulty wing).reply { tag := 1, refusal := some .tagMismatch, detail := 0, result := .empty }) := by decide

/-- R180, in its order. -/
theorem test_ack_fault_checks :
    [after (.ackFault 1 0) (halted wing), after (.ackFault 1 256) wing, after (.ackFault 1 255) wing].map
        (fun t => t.bind fun t => t.link.replies.map (·.refusal) |>.head?)
      = [some (some .halted), some (some .badField), some (some .noFault)] := by decide

/-- 10.6, step 3. -/
theorem test_jammed_halts_the_wing :
    (after (.jammed 62) (faulty (active .busy (job .store) .toDest))).bind (fun t =>
        (t.aisles.look 6).map fun x => (t.faults.state, t.faults.haltedLine, t.faults.halting.map (·.tag), x.crane.state,
          x.crane.deadline, x.crane.stopWait, t.link.urgent.map (·.kind)))
      = some (.halted, true, some 13, .stopping, some { left := 212, running := false }, some 150, [.fault, .halted]) := by
  decide

/-- The bins and the item of 2.6, in the wing. -/
def returning (i : Item) (b : Bin) (c : Bin) (lane : List Place) (l : List ReturnEntry) : State :=
  { wing with bins := [(1107, b), (4015, c)], items := [(50312, i)]
              stations := wing.stations.adjust 4 fun x => { x with lane := lane, returns := l } }

def shelf : Bin := { bin with fill := 380, count := 14 }
def other : Bin :=
  { bin with home := { aisle := 6, bay := 6, level := 10, side := .left }, capacity := 300, fill := 270, count := 9 }
def book (v : ItemState) (t : Option Nat) : Item :=
  { thickness := 28, sizeClass := 2, state := v, home := some 1107, target := t }

/-- The figures of a bin: fill, reserved, count. -/
def figures (s : State) (n : Nat) : Option (Nat × Nat × Nat) := (s.bins.look n).map fun b => (b.fill, b.reserved, b.count)

/-- 2.6: ITEM_OUT_SCAN. -/
theorem test_item_out_scan :
    (after (.itemOutScan 10 50312)
        { returning (book .requested none) { shelf with state := .inLane, trip := some 4 } other [.bin 1107] [] with
          requests := [{ request .presented with item := 50312 }] }).map (fun t =>
        ((t.items.look 50312).map (·.state), figures t 1107, t.requests.map (·.window)))
      = some (some .picked, some (352, 28, 13), [some 1200]) := by decide

/-- 2.6: RETURN_SCAN of a HELD item whose home bin is MISSING. -/
theorem test_return_scan :
    (after (.returnScan 10 50312)
        (returning (book .held none) { shelf with fill := 352, reserved := 28, count := 13, state := .missing } other [] [])).map
        (fun t => (t.items.look 50312, figures t 1107, figures t 4015))
      = some (some (book .returning (some 4015)), some (352, 0, 13), some (270, 28, 9)) := by decide

/-- 2.6: ITEM_IN_SCAN. -/
theorem test_item_in_scan :
    (after (.itemInScan 10 50312)
        (returning (book .returning (some 4015)) { shelf with fill := 352, count := 13, state := .missing }
          { other with reserved := 28, state := .inLane, trip := some 4 } [.bin 4015] [{ item := 50312, target := 4015 }])).map
        (fun t => ((t.items.look 50312).map fun i => (i.state, i.home, i.target), figures t 4015))
      = some (some (.shelved, some 4015, none), some (298, 0, 10)) := by decide

/-- 1.7: MOVE_BIN to a bay that is out of bounds. -/
theorem test_move_bin_out_of_bounds :
    after (.moveBin 1 0 { aisle := 6, bay := 44, level := 7, side := 2 }) wing
      = some (wing.reply { tag := 1, refusal := some .outOfBounds, detail := 0, result := .empty }) := by decide

/-- 1.7: MOVE_BIN to the home slot of another bin. -/
theorem test_move_bin_slot_taken :
    after (.moveBin 1 0 { aisle := 6, bay := 14, level := 3, side := 2 }) wing
      = some (wing.reply { tag := 1, refusal := some .slotTaken, detail := 0, result := .empty }) := by decide

/-- 1.7: DONE of the TRANSFER, and the follow-on call. -/
theorem test_done_of_a_transfer :
    let v : Slot := { aisle := 6, bay := 38, level := 11, side := .right }
    let s := requested ((active .busy { job .transfer with destination := .slot v } .placing).modBin 0
      fun b => { b with state := .onCrane, pendingHome := some v, next := some 4 }) .awaitingBin
    (after (.done 1) s).map (fun t => (t.bins.look 0).map fun b => (b.home, b.pendingHome, b.state, b.next, b.trip))
      = some (some (v, none, .called, none, some 4)) := by decide

/-- 8.7, step 11: PREALARM of a second detector of the zone shuts it. -/
theorem test_coincidence :
    (after (.prealarm 63 7) (wing.modConcentrator 16 fun c => { c with detectors := [(12, .pre)] })).map
        (fun t => (t.zoneState 8, (t.zones.look 8).map (·.windowLeft)))
      = some (some .shutdown, some none) := by decide

/-- 8.7, step 4: a token out of sequence. -/
theorem test_beat_out_of_sequence :
    (after (.beat 63 19) (wing.modConcentrator 16 fun c => { c with token := some 17 })).map
        (fun t => ((t.concentrators.look 16).map fun c => (c.health, c.token), (t.zones.look 8).map (·.causes)))
      = some (some (.tokenFault, some 19), some { Causes.empty with token := true }) := by decide

/-- R108 to R110: a taken item is REQUESTED, and its bin is called by a RETRIEVE that the IDLE crane takes at once. -/
theorem test_request_item :
    (after (.requestItem 1 4 [1]) wing).map (fun t =>
        ((t.items.look 1).map (·.state), (t.bins.look 0).map fun b => (b.state, b.trip), t.nextRequest,
         (t.aisles.look 6).map fun x => (x.crane.state, x.crane.deadline.map (·.left)), t.link.replies.map (·.result)))
      = some (some .requested, some (.called, some 4), 1, some (.busy, some 699), [.outcomes [(none, 65535)]]) := by decide

/-! ### Witnesses: the hypotheses of each statement, clause by clause, met by a concrete state and operands

`∃ x ∈ t.look n, p x` reads "the table holds the record `x` of number `n`, and `p x`": `x ∈ o` of an `Option` is `o = some x`. -/

/-- The wing in COMMISSIONING. -/
def commissioning : State := { wing with mode := .commissioning }

/-- Every timer of the wing, at `n`. -/
def timed (n : Nat) (running : Bool) : State :=
  { wing with
    aisles := wing.aisles.adjust 6 fun x =>
      { x with crane := { x.crane with deadline := some { left := n, running := running }, stopWait := some n } }
    stations := wing.stations.adjust 4 fun x =>
      { x with inTransit := [{ bin := 16383, deadline := { left := n, running := running } }] }
    zones := wing.zones.adjust 8 fun x => { x with windowLeft := some n }
    concentrators := wing.concentrators.adjust 16 fun c => { c with supervision := some n }
    shutters := wing.shutters.adjust 8 fun h => { h with wait := some n }
    requests := [{ request .picked with window := some n }] }

theorem witness_StepRunsFrontCommand :
    ({ wing with pending := [.restart 1, .done 1] } : State).pending = .restart 1 :: [.done 1] := rfl

theorem witness_EmptyQueuePassesOneDs :
    (commissioning.pending = [] ∧ commissioning.mode = .commissioning)
    ∧ ∀ n ∈ [1, 2], ∀ r ∈ [true, false], (timed n r).pending = [] ∧ (timed n r).mode = .inService := by decide

/-- A wing that takes a STATION_FAULT next. -/
def faulting : State := { wing with pending := [.stationFault 10] }

theorem witness_StepKeepsFaultUnitAndSecuredLine :
    (faulting.faults.lawful = true ∧ ∃ t, step faulting = .next t)
    ∧ ({ inZone wing .secured with securedLine := true, pending := [.opened 62] } : State).securedLawful = true
    ∧ ∃ t, step { inZone wing .secured with securedLine := true, pending := [.opened 62] } = .next t :=
  ⟨⟨by decide, _, rfl⟩, by decide, _, rfl⟩

theorem witness_StepKeepsListsTablesAndTags :
    faulting.link.lawful = true ∧ faulting.listsLawful = true ∧ faulting.queuesLawful = true ∧ faulting.tablesLawful = true
    ∧ faulting.tagsLawful = true ∧ ∃ t, step faulting = .next t :=
  ⟨by decide, by decide, by decide, by decide, by decide, _, rfl⟩

/-- The wing, its crane BUSY with a job and another staged, takes a DONE next. -/
def working : State :=
  { wing.modCrane 6 fun c =>
      { c with state := .busy, phase := some .placing, active := some (job .store), staged := some { job .audit with tag := 82 }
               deadline := some { left := 5, running := true } } with
    pending := [.done 1] }

/-- The wing whose crane carries bin 0 to its new home, the last slot of the aisle, and takes the DONE next. -/
def moving : State :=
  { (active .busy (job .transfer) .placing).modBin 0 fun b =>
      { b with pendingHome := some { aisle := 6, bay := geom.bays, level := geom.levels, side := .right } } with
    pending := [.done 1] }

theorem witness_StepKeepsCraneRecordsAndHomeSlots :
    (working.cranesLawful = true ∧ working.tablesLawful = true ∧ ∃ t, step working = .next t)
    ∧ (moving.cranesLawful = true ∧ moving.tablesLawful = true ∧ moving.homesLawful = true ∧ ∃ t, step moving = .next t) :=
  ⟨⟨by decide, by decide, _, rfl⟩, by decide, by decide, by decide, _, rfl⟩

/-- R10: the DONE makes the pending home the home slot, and frees the old one. -/
theorem test_done_frees_the_old_slot :
    (match step moving with
     | .next t => (t.bins.look 0).map Bin.slots
     | _ => none) = some [{ aisle := 6, bay := geom.bays, level := geom.levels, side := .right }] := by decide

/-- R10: two bins on one slot, a slot past the last bay, and a pending home that no TRANSFER carries break the law. -/
theorem test_home_slots_are_judged :
    (wing.modBin 16383 fun b => { b with home := bin.home }).homesLawful = false
    ∧ (wing.modBin 0 fun b => { b with home := { bin.home with bay := geom.bays + 1 } }).homesLawful = false
    ∧ (wing.modBin 0 fun b => { b with pendingHome := some { bin.home with bay := 1 } }).homesLawful = false
    ∧ wing.homesLawful = true := by decide

/-- The wing with item 1 requested at the presented bin 0, scanned out next. -/
def picking : State := { requested shown .presented with pending := [.itemOutScan 10 1] }

theorem witness_StepKeepsShelfSpaceFigures :
    picking.stockLawful = true ∧ picking.tablesLawful = true ∧ picking.listsLawful = true ∧ picking.tagsLawful = true
    ∧ ∃ t, step picking = .next t := ⟨by decide, by decide, by decide, by decide, _, rfl⟩

/-- R25: the pick moves 28 mm of bin 0 from fill to reserved, and its one item out of the count. -/
theorem test_pick_moves_the_figures :
    (match step picking with
     | .next t => (t.bins.look 0).map fun b => (b.fill, b.reserved, b.count)
     | _ => none) = some (0, 28, 0) := by decide

theorem witness_HaltEndsOnlyByRestart :
    (halted wing).isHalted = true ∧ (∃ t, exec (.stationFault 10) (halted wing) = .next t)
    ∧ (∀ p k, Instr.stationFault 10 ≠ .powerOn p k) ∧ Instr.stationFault 10 ≠ .resetLineAsserted
    ∧ Instr.stationFault 10 ≠ .restartTakesEffect :=
  ⟨by decide, ⟨_, rfl⟩, nofun, nofun, nofun⟩

theorem witness_CommissioningDropsTheField :
    commissioning.mode = .commissioning
    ∧ (∀ c ∈ [Instr.done 1, .beat 63 255, .unadmittedFieldTelegram 1 1], c.sender.isSome = true)
    ∧ ∀ c ∈ [Instr.passDown 4 [], .craneDeadlineExpiry 6, .inTransitDeadlineExpiry 4 16383, .confirmWindowExpiry 65535,
             .alertWindowExpiry 8, .supervisionExpiry 16, .shutterWaitExpiry 8, .stopWaitExpiry 6],
        (∃ st l, c = .passDown st l) ∨ (∃ a, c = .craneDeadlineExpiry a) ∨ (∃ st n, c = .inTransitDeadlineExpiry st n)
        ∨ (∃ k, c = .confirmWindowExpiry k) ∨ (∃ z, c = .alertWindowExpiry z) ∨ (∃ n, c = .supervisionExpiry n)
        ∨ (∃ n, c = .shutterWaitExpiry n) ∨ ∃ a, c = .stopWaitExpiry a :=
  ⟨by decide, by decide, by simp⟩

theorem witness_OrderChecksRefuseInOrder :
    (wing.portOpen = true ∧ orderKind (.releaseBin 0 0) = some .releaseBin ∧ (Instr.releaseBin 0 0).orderTag = some 0)
    ∧ ((halted wing).portOpen = true ∧ (halted wing).isHalted = true
      ∧ orderKind (.ackFault 65535 1) = some .ackFault ∧ (Instr.ackFault 65535 1).orderTag = some 65535
      ∧ OrderKind.ackFault.takenInHalted = false)
    ∧ (commissioning.portOpen = true ∧ commissioning.isHalted = false ∧ commissioning.mode = .commissioning
      ∧ orderKind (.requestItem 1 4 [1]) = some .requestItem ∧ (Instr.requestItem 1 4 [1]).orderTag = some 1
      ∧ OrderKind.requestItem.wingWork = true) := by decide

/-- A reply that waits. -/
def reply : Reply := { tag := 1, refusal := none, detail := 0, result := .empty }

/-- The wing with its reply queue full and one ORDER frame waiting. -/
def full : State :=
  { wing with link := { wing.link with replies := List.replicate 8 reply, waiting := [.readIdentity 9] } }

theorem witness_OrderWaitsForAReplyPlace :
    orderKind (.readIdentity 9) = some .readIdentity
    ∧ Config.replyCapacity ≤ full.link.replies.length
    ∧ ({ wing with link := { wing.link with restartPending := true } } : State).link.restartPending = true
    ∧ full.link.waiting = [.readIdentity 9] ∧ full.link.replies.length = Config.replyCapacity
    ∧ full.link.restartPending = false := by decide

theorem witness_ModeChangesOnlyByCloseOrReopen :
    (∃ t, exec .sendNextFrame full = .next t) ∧ (∀ p k, Instr.sendNextFrame ≠ .powerOn p k)
    ∧ ∀ i ∈ Instr.sendNextFrame :: full.link.waiting,
        orderKind i ≠ some .closeCommissioning ∧ orderKind i ≠ some .reopenCommissioning :=
  ⟨⟨_, rfl⟩, nofun, by decide⟩

theorem witness_LoadedTablesStandInService :
    full.isInService = true ∧ (∃ t, exec .sendNextFrame full = .next t) ∧ (∀ p k, Instr.sendNextFrame ≠ .powerOn p k)
    ∧ ∀ i ∈ Instr.sendNextFrame :: full.link.waiting, orderKind i ≠ some .reopenCommissioning
      ∧ (∀ tag a g, i ≠ .loadGeometryRecord tag a g true) ∧ ∀ tag a l, i ≠ .loadRetryOffsetList tag a l true := by
  refine ⟨by decide, ⟨_, rfl⟩, nofun, fun i h => ?_⟩
  obtain rfl | rfl : i = .sendNextFrame ∨ i = .readIdentity 9 := by simpa [full] using h
  all_goals exact ⟨by decide, nofun, nofun⟩

/-- Table 1.1, every field at the end of its range. -/
def largest : Geometry :=
  { bays := 120, levels := 24, h0 := 100, h1 := 50, v0 := 100, v1 := 50, handling := 200, margin := 400, grace := 3000
    zone := 8 }

theorem witness_LegTimeIsTheLargerOfTwo :
    geometryInRange largest = true ∧ (120 : Nat) ≤ 120 ∧ (0 : Nat) ≤ 120 ∧ within 1 24 24 = true ∧ within 1 24 1 = true
    ∧ leg largest { bay := 120, level := 24 } { bay := 0, level := 1 } = 6100 := by decide

theorem witness_DeadlineFollowsFromEstimate :
    (0 < 1 ∧ 1 * geom.margin ≤ 100 * 1 ∧ 100 * 1 < 1 * geom.margin + 100)
    ∧ 100 * largest.margin % 100 = 0 ∧ ({ geom with margin := 0 } : Geometry).margin = 0
    ∧ 65535 < 12508 + 50032 + largest.grace ∧ 12507 + 50028 + largest.grace ≤ 65535
    ∧ geometryInRange largest = true ∧ 13200 ≤ 13200
    ∧ (∀ k ∈ [JobKind.retrieve, .transfer], (job k).kind = k ∧ (job k).source = some (.slot bin.home))
    ∧ (∀ k ∈ [JobKind.store, .transfer, .audit], (job k).kind = k ∧ (job k).destination = .slot bin.home)
    ∧ park.kind = .park ∧ park.kind ≠ .retrieve
    ∧ ((job .retrieve).station = some 4 ∧ ∃ x ∈ wing.stations.look 4, wing.conveyorOf (job .retrieve) = x.loaded.conveyor)
    ∧ (600 ≤ 600 ∧ 120 ≤ 120 ∧ within 1 24 24 = true ∧ bin.home.bay ≤ 120 ∧ within 1 24 bin.home.level = true) := by decide

/-- The largest estimates of Table 3.2. -/
theorem test_largest_estimates :
    let slot : Locus := .slot { aisle := 6, bay := 120, level := 24, side := .left }
    let near : Point := { bay := 0, level := 1 }
    estimate largest 600 { job .retrieve with source := some slot } near = 13200
    ∧ estimate largest 600 { job .store with destination := slot } { bay := 120, level := 24 } = 13200
    ∧ estimate largest 0 { job .transfer with source := some slot, destination := .slot { bin.home with bay := 0, level := 1 } } near = 12600
    ∧ estimate largest 0 { job .audit with destination := slot } near = 6300
    ∧ estimate largest 0 park { bay := 120, level := 24 } = 6100 ∧ estimate largest 0 park near = 0 := by decide

/-- Two bins in the rack and one in the lane for an item of 28 mm. -/
def offered : State := wing.modBin 0 fun b => { b with capacity := 56 }

theorem witness_ReturnTargetIsTheFirstChoice :
    offered.bins.wf = true ∧ offered.chooseTarget 4 28 7 none = none
    ∧ (offered.chooseTarget 4 28 2 (some 0) = some 0 ∧ offered.isCandidate 4 28 2 0 = true)
    ∧ (offered.chooseTarget 4 29 2 (some 0) = some 16383 ∧ offered.isCandidate 4 29 2 0 = false
      ∧ ∀ m ∈ [0, 16383], offered.isLaneCandidate 4 29 2 m = false)
    ∧ (offered.chooseTarget 4 28 2 none = some 16383 ∧ offered.isRackCandidate 4 28 2 0 = true
      ∧ ∃ b ∈ offered.bins.look 16383, ∃ c ∈ offered.bins.look 0, offered.rackCost b < offered.rackCost c)
    ∧ shown.chooseTarget 4 28 2 none = some 0 ∧ shown.isLaneCandidate 4 28 2 0 = true
    ∧ (offered.aisles.look bin.home.aisle).isSome = true := by decide

theorem witness_NewTagsAreNotHeld :
    let s := requested (active .busy { job .retrieve with tag := 65535 } .picking) .awaitingBin
    s.tagsLawful = true ∧ s.heldJobTags.length < Config.maxTag ∧ s.requests.length ≤ Config.requestCapacity
    ∧ s.heldJobTags = [s.nextJob] ∧ s.requests.map (·.tag) = [s.nextRequest] := by decide

theorem witness_FramesCarryTheirBodiesAndCheck :
    (List.replicate 64 0#8).length ≤ Config.bodyCapacity ∧ classAllowed .circulation (BitVec.ofNat 8 1) = true
    ∧ classAllowed .circulation (BitVec.ofNat 8 5) = true ∧ classAllowed .fieldLink (BitVec.ofNat 8 6) = true
    ∧ 0#16 ≠ frameCheck ({ destination := 0, source := 0, cls := 1, kind := 19, tag := 1, body := [] } : Frame).covered
    ∧ (List.replicate 15 4294967295).length ≤ 15 ∧ (List.replicate 64 0#8).length ≤ 64 := by decide

/-- The idle crane, with a RETRIEVE for a full station before an AUDIT in its queue. -/
def waiting : State :=
  { shown with
    aisles := wing.aisles.adjust 6 fun x => { x with queue := [job .retrieve, { job .audit with tag := 82 }] }
    stations := shown.stations.adjust 4 fun x => { x with lane := [.bin 0, .tray 9] } }

/-- The crane with a suspension record whose park label is its bin's. -/
def resumable : Suspension :=
  { job := job .retrieve, phaseAtStop := .toDest, load := true, forks := true, recoverable := false, pausedLeft := 200
    parkLabel := some (.label 0) }

theorem witness_DispatcherHandsJobsToCranes :
    (∃ x ∈ waiting.aisles.look 6, x.crane.state = .idle ∧ x.crane.suspension = none
      ∧ waiting.firstEligible x = some { job .audit with tag := 82 })
    ∧ (let s := waiting.modCrane 6 fun c => { c with state := .busy, active := some (job .store) }
       ∃ x ∈ s.aisles.look 6, x.crane.state = .busy ∧ x.crane.staged = none ∧ x.service = .inService
         ∧ s.firstEligible x = some { job .audit with tag := 82 })
    ∧ (∃ x ∈ wing.aisles.look 6, wing.firstEligible x = none ∧ x.crane.state ≠ .busy ∧ x.crane.staged = none
        ∧ ∀ j ∈ x.queue, j.kind ≠ .park)
    ∧ (∀ k ∈ [JobKind.store, .audit],
       let s := (active .busy (job .transfer) .picking).modCrane 6 fun c => { c with staged := some (job k) }
       (∃ x ∈ s.aisles.look 6, x.crane.staged = some (job k) ∧ s.eligible x 1 (job k) = true)
       ∧ ∃ x ∈ (inZone s .alert).aisles.look 6, x.crane.staged = some (job k) ∧ (inZone s .alert).eligible x 1 (job k) = false)
    ∧ (∀ v ∈ [ZoneState.normal, .alert, .restoring],
       let s := inZone (wing.modAisle 6 fun x =>
         { x with queue := [job .store, park], crane := { x.crane with state := .parking } }) v
       s.isHalted = false ∧ s.mode = .inService ∧ s.zoneState 8 = some v
       ∧ ∃ x ∈ s.aisles.look 6, x.crane.active = none ∧ x.service = .inService ∧ x.queue = [job .store] ++ park :: []
         ∧ park.kind = .park ∧ ∀ k ∈ [job .store], k.kind ≠ .park)
    ∧ (∀ v ∈ [Service.inService, .draining], ∀ r ∈ [resumable, { resumable with job := job .store }],
       let s := wing.modAisle 6 fun x => { x with service := v, crane := { x.crane with suspension := some r } }
       s.zoneState 8 = some .normal ∧ s.isHalted = false ∧ s.mode = .inService ∧ s.claims 4 < 2
       ∧ (s.bins.look 0).isSome = true ∧ r.job.bin = some 0 ∧ r.parkLabel = some (.label 0) ∧ r.job.station = some 4
       ∧ (∃ y ∈ s.stations.look 4, y.hold = false ∧ y.loaded.zone = 8 ∧ y.loaded.depth = 2)
       ∧ ∃ x ∈ s.aisles.look 6, x.crane.suspension = some r ∧ x.service = v)
    ∧ { resumable with parkLabel := none }.resumes = false
    ∧ (∃ x ∈ waiting.aisles.look 6, waiting.claims 4 = 2 ∧ ∃ y ∈ waiting.stations.look 4, y.loaded.depth = 2
        ∧ waiting.eligible x 0 (job .retrieve) = false ∧ waiting.eligible x 1 (job .retrieve) = true)
    ∧ ∀ v ∈ [ZoneState.alert, .shutdown], ∃ x ∈ (inZone waiting v).aisles.look 6,
        (inZone waiting v).firstEligible x = none ∧ ∃ k ∈ x.queue, k.kind ≠ .park := by decide

/-- A report that waits. -/
def told : Report := { kind := .binStored, subject := .bin 0, order := none, code := none }

theorem witness_ArbiterSendsOldestReplyFirst :
    ∀ l ∈ [{ Link.reset with replies := [reply], urgent := [told], routine := [.report told] },
           { Link.reset with urgent := [told], routine := [.report told], urgentOverrun := true },
           { Link.reset with routine := [.report told, .passUp 4 []], routineOverrun := true },
           { Link.reset with routine := [.passUp 4 [], .report told] }, Link.reset],
      ({ wing with link := l } : State).link.waiting = [] := by decide

theorem witness_RecordLoadsSetLoadedFields :
    commissioning.receives 65535 = true ∧ commissioning.isHalted = false ∧ commissioning.mode = .commissioning
    ∧ commissioning.tablesLawful = true
    ∧ stationFieldsInRange { fields with depth := 4, conveyor := 600, shutter := some 7 } = true ∧ within 1 4 1 = true
    ∧ (∀ e ∈ commissioning.stations, ∀ k, e.2.loaded.shutter = some k → (some 7 : Option Nat) = some k → e.1 = 1)
    ∧ stationFieldsInRange { fields with depth := 5 } = false ∧ within 1 4 5 = false
    ∧ ∃ x ∈ commissioning.stations.look 4, x.loaded.shutter = some 8 ∧ fields.shutter = some 8 ∧ 4 ≠ 1 := by
  refine ⟨by decide, by decide, by decide, by decide, by decide, by decide, fun e h k h1 h2 => ?_, by decide, by decide, by decide⟩
  simp only [Option.some.injEq] at h2
  subst h2
  simp [commissioning, wing, fields] at h
  subst h
  simp at h1

/-- Aisle 6 OUT_OF_SERVICE. -/
def outOfService : State := wing.modAisle 6 fun x =>
  { x with service := .outOfService, crane := { x.crane with state := .outOfService } }

theorem witness_GeometryLoadsCreateAndRework :
    (commissioning.receives 1 = true ∧ commissioning.isHalted = false ∧ commissioning.tablesLawful = true
      ∧ commissioning.mode = .commissioning
      ∧ (within 1 6 6 && geometryInRange largest) = true ∧ (within 1 6 1 && geometryInRange largest) = true
      ∧ (within 1 6 6 && geometryInRange { largest with bays := 121 }) = false
      ∧ (commissioning.aisles.look 6).isSome = true ∧ commissioning.aisles.look 1 = none
      ∧ commissioning.aisles.look 7 = none)
    ∧ (outOfService.receives 1 = true ∧ outOfService.isHalted = false ∧ outOfService.tablesLawful = true
      ∧ outOfService.mode = .inService
      ∧ ∃ x ∈ outOfService.aisles.look 6, x.service = .outOfService ∧ largest.zone = x.geom.zone
        ∧ ({ geom with bays := 37, levels := 9 } : Geometry).zone = x.geom.zone
        ∧ geometryInRange { geom with bays := 37, levels := 9 } = true ∧ geometryInRange { geom with bays := 36 } = true)
    ∧ (∀ e ∈ outOfService.bins, within 1 37 e.2.home.bay = true ∧ within 1 9 e.2.home.level = true ∧ e.2.pendingHome = none)
    ∧ (∃ b ∈ outOfService.bins.look 0, b.home.aisle = 6 ∧ within 1 36 b.home.bay = false)
    ∧ (wing.receives 1 = true ∧ wing.isHalted = false ∧ wing.mode = .inService
      ∧ (∃ x ∈ wing.aisles.look 6, x.service ≠ .outOfService) ∧ wing.aisles.look 1 = none)
    ∧ (∃ x ∈ outOfService.aisles.look 6, ({ geom with zone := 7 } : Geometry).zone ≠ x.geom.zone
      ∧ geometryInRange { geom with bays := 121 } = false)
    ∧ offsetsInRange [(40, -40), (-40, 40), (0, 0), (0, 0), (0, 0), (0, 0)] = true ∧ offsetsInRange [(41, 0)] = false := by
  decide

theorem witness_AddressClassAndSettingsLoads :
    commissioning.receives 1 = true ∧ commissioning.isHalted = false ∧ commissioning.tablesLawful = true
    ∧ (within 1 63 2 && deviceInRange { role := .concentrator, index := 1 }) = true
    ∧ (∀ p ∈ [(Role.crane, 6), (.station, 4), (.shutter, 8), (.concentrator, 16)],
        within 1 p.2 p.2 = true ∧ within 1 p.2 (p.2 + 1) = false ∧ within 1 p.2 0 = false)
    ∧ (within 1 63 63 = true ∧ within 1 63 0 = false ∧ within 1 63 64 = false)
    ∧ (∀ e ∈ commissioning.addresses, e.2 ≠ { role := .concentrator, index := 1 })
    ∧ commissioning.addresses.look 63 = some { role := .concentrator, index := 16 } ∧ 63 ≠ 2
    ∧ wing.receives 1 = true ∧ wing.isHalted = false ∧ wing.tablesLawful = true ∧ wing.mode = .inService := by decide

theorem witness_BinMapLoadsAddEditRetire :
    (∀ s ∈ [commissioning, wing], s.receives 1 = true ∧ s.isHalted = false ∧ s.tablesLawful = true
      ∧ 16382 ≤ 16383 ∧ within 50 1000 1000 = true ∧ 7 ≤ 7
      ∧ slotOf { aisle := 6, bay := 40, level := 12, side := 2 } = some { aisle := 6, bay := 40, level := 12, side := .right }
      ∧ s.bins.look 16382 = none
      ∧ s.slotInBounds { aisle := 6, bay := 40, level := 12, side := .right } = true
      ∧ ∀ e ∈ s.bins, e.2.home ≠ { aisle := 6, bay := 40, level := 12, side := .right } ∧ e.2.pendingHome = none)
    ∧ (slotOf slotField = some bin.home ∧ wing.slotInBounds bin.home = true
      ∧ ∃ b ∈ wing.bins.look 0, b.home = bin.home ∧ b.sizeClass = 2 ∧ b.fill + b.reserved ≤ 50 ∧ 7 ≠ b.sizeClass
        ∧ b.state = .stored ∧ wing.named 0 = false ∧ b.count ≠ 0)
    ∧ slotOf { slotField with bay := 36 } ≠ some bin.home
    ∧ (∃ b ∈ wing.bins.look 16383, b.count = 0 ∧ b.reserved = 0 ∧ b.state = .stored ∧ wing.named 16383 = false)
    ∧ ∃ b ∈ (wing.modBin 0 fun b => { b with reserved := 28 }).bins.look 0, ¬b.fill + b.reserved ≤ 50 := by decide

/-- The refusals of that statement: fields past the ends of their ranges, slots out of bounds or taken, a number that is or is
not in the Bin Map, and a bin that a job names or whose state bars its removal. -/
theorem witness_BinMapLoadsAddEditRetire_refusals :
    (16383 < 16384 ∧ within 50 1000 49 = false ∧ within 50 1000 1001 = false ∧ ¬8 ≤ 7
      ∧ ∀ f ∈ [{ slotField with aisle := 0 }, { slotField with aisle := 7 }, { slotField with bay := 0 },
               { slotField with bay := 121 }, { slotField with level := 0 }, { slotField with level := 25 },
               { slotField with side := 0 }, { slotField with side := 3 }], slotOf f = none)
    ∧ (∀ s ∈ [commissioning, wing], ∀ n ∈ [0, 16383], (s.bins.look n).isSome = true)
    ∧ (∀ f ∈ [{ slotField with bay := 41 }, { slotField with aisle := 1 }],
        ∃ v ∈ slotOf f, wing.bins.look 16382 = none ∧ wing.slotInBounds v = false)
    ∧ (∃ x ∈ wing.aisles.look 6, x.geom.bays = 40)
    ∧ (slotOf slotField = some bin.home ∧ wing.slotInBounds bin.home = true ∧ ∃ b ∈ wing.bins.look 0, b.home = bin.home)
    ∧ (let s := wing.modBin 0 fun b => { b with pendingHome := some { bin.home with bay := 1 } }
       slotOf { slotField with bay := 1 } = some { bin.home with bay := 1 } ∧ s.slotInBounds { bin.home with bay := 1 } = true
       ∧ ∃ b ∈ s.bins.look 0, b.pendingHome = some { bin.home with bay := 1 })
    ∧ (∃ b ∈ (wing.modBin 0 fun b => { b with state := .inDoubt }).bins.look 0, b.state = .inDoubt)
    ∧ (∀ v ∈ [BinState.called, .lockedOut], ∃ b ∈ (wing.modBin 0 fun b => { b with state := v }).bins.look 0,
        b.state ≠ .inDoubt ∧ b.state ≠ .stored ∧ b.state ≠ .missing)
    ∧ (let s := wing.modAisle 6 fun x => { x with queue := [job .audit] }
       (∃ b ∈ s.bins.look 0, b.state = .stored) ∧ ∃ e ∈ s.aisles, ∃ j ∈ e.2.jobs, j.bin = some 0)
    ∧ ∃ b ∈ (wing.modBin 16383 fun b => { b with reserved := 1 }).bins.look 16383, ¬(b.count = 0 ∧ b.reserved = 0) := by
  decide

theorem witness_ItemDirectoryLoadsMoveTheFigures :
    (∀ s ∈ [commissioning, wing], s.receives 1 = true ∧ s.isHalted = false ∧ s.tablesLawful = true
      ∧ within 1 4294967295 2 = true ∧ within 1 4294967295 4294967295 = true ∧ within 1 250 250 = true ∧ 7 ≤ 7
      ∧ s.items.look 2 = none ∧ s.items.length < 262144
      ∧ (∃ b ∈ s.bins.look 16383, b.state = .stored ∧ b.fill + b.reserved + 250 ≤ b.capacity ∧ b.fill + 250 ≤ 1000)
      ∧ ∃ i ∈ s.items.look 1, i.state = .shelved ∧ i.home = some 0 ∧ i.sizeClass = 2
        ∧ ∃ b ∈ s.bins.look 0, b.fill + 250 + b.reserved ≤ b.capacity + i.thickness ∧ b.fill + 250 - i.thickness ≤ 1000)
    ∧ (∃ i ∈ (commissioning.modItem 1 fun i => { i with state := .held }).items.look 1, i.state = .held ∧ i.home = some 0
      ∧ ∃ b ∈ commissioning.bins.look 0, b.reserved + 250 - i.thickness ≤ 1000)
    ∧ (∃ i ∈ wing.items.look 4294967295, i.state ≠ .shelved ∧ i.sizeClass = 2)
    ∧ (∀ n ∈ [1, 4294967295], (wing.items.look n).isSome = true)
    ∧ (wing.items.look 2 = none ∧ wing.items.length < 262144 ∧ wing.bins.look 1 = none ∧ wing.bins.look 16382 = none
      ∧ ∃ b ∈ wing.bins.look 16383, b.state = .stored)
    ∧ (∀ v ∈ [BinState.missing, .inDoubt, .called, .inLane], ∃ b ∈ (wing.modBin 16383 fun b => { b with state := v }).bins.look 16383,
        b.state = v ∧ v ≠ .stored)
    ∧ ∀ s ∈ [wing, commissioning], ∃ b ∈ (s.modBin 0 fun b => { b with capacity := 1000, fill := 751 }).bins.look 0,
        b.state = .stored ∧ b.capacity < b.fill + b.reserved + 250 ∧ 1000 < b.fill + 250 := by decide

/-- The other clauses of that statement: fields out of range, an unknown number, items without figures, and the refusals of an
EDIT. -/
theorem witness_ItemDirectoryLoadsMoveTheFigures_edits :
    (within 1 4294967295 0 = false ∧ within 1 4294967295 4294967296 = false ∧ within 1 250 0 = false
      ∧ within 1 250 251 = false ∧ 7 < 8 ∧ 16383 < 16384)
    ∧ (commissioning.items.look 2 = none ∧ commissioning.mode = .commissioning)
    ∧ (∀ v ∈ [ItemState.lent, .overflow], ∃ i ∈ (commissioning.modItem 1 fun i => { i with state := v }).items.look 1, i.state = v)
    ∧ (∀ s ∈ [wing, commissioning], ∃ i ∈ s.items.look 1, i.state = .shelved ∧ i.home = some 0 ∧ 2 = i.sizeClass ∧ 3 ≠ i.sizeClass
        ∧ ∃ b ∈ (s.modBin 0 fun b => { b with capacity := 1000, fill := 1000 }).bins.look 0,
          1000 < b.fill + 29 - i.thickness ∧ b.capacity + i.thickness < b.fill + 29 + b.reserved)
    ∧ ∃ i ∈ (commissioning.modItem 1 fun i => { i with state := .held }).items.look 1, i.state = .held ∧ i.home = some 0
        ∧ ∃ b ∈ (commissioning.modBin 0 fun b => { b with reserved := 1000 }).bins.look 0, 1000 < b.reserved + 29 - i.thickness := by
  decide

/-- A directory that is full: 262,144 LENT items. -/
def crowded : State :=
  { commissioning with items := (List.range' 1 262144).map fun n =>
      (n, { thickness := 1, sizeClass := 0, state := .lent, home := none, target := none }) }

theorem witness_ItemDirectoryLoadsMoveTheFigures_full :
    crowded.receives 1 = true ∧ crowded.isHalted = false ∧ crowded.tablesLawful = true ∧ within 1 4294967295 262145 = true
    ∧ crowded.items.length = 262144 ∧ crowded.items.look 262145 = none := by
  have h : ∀ (l : List Nat) (i : Item), 262145 ∉ l → Table.look (l.map fun n => (n, i)) 262145 = none := by
    intro l i
    induction l with
    | nil => intro _; rfl
    | cons a l ih =>
      intro h
      simp only [List.mem_cons, not_or] at h
      simp only [List.map_cons, Table.look]
      rw [if_neg (fun e => h.1 e.symm)]
      exact ih h.2
  have w : crowded.items.wf = true := by
    rw [Table.wf_eq]
    simp [crowded, Table.numbers, Function.comp_def, List.pairwise_lt_range']
  refine ⟨by decide, by decide, ?_, by decide, by simp [crowded], h _ _ ?_⟩
  · have t : (commissioning.tablesLawful) = true := by decide
    simp only [State.tablesLawful, Bool.and_eq_true] at t ⊢
    exact ⟨t.1, w⟩
  · simp only [List.mem_range'_1, not_and, not_lt]
    omega

theorem witness_ReadsReturnRecordsAndChangeNothing :
    wing.receives 65535 = true ∧ (halted wing).receives 1 = true ∧ commissioning.receives 1 = true := by decide

theorem witness_UnreadableFramesAndTheRestartOrder :
    wing.receives 1 = true ∧ wing.link.restartPending = false
    ∧ (let l := { Link.reset with restartPending := true }
       (({ wing with link := l } : State).link.restartPending = true ∧ ({ wing with link := l } : State).link.replies = []
         ∧ ({ wing with link := l } : State).link.waiting = [])
       ∧ ({ wing with link := { l with replies := [reply] } } : State).link.replies ≠ [])
    ∧ wing.portOpen = true ∧ within 1 11 12 = false ∧ within 1 11 0 = false
    ∧ ([] : List Nat).length = 0 ∧ 8 < (List.replicate 9 1).length
    ∧ wing.addresses.look 2 = none ∧ wing.addresses.look 63 = some { role := .concentrator, index := 16 }
    ∧ wing.addresses.look 62 = some { role := .shutter, index := 8 } ∧ wing.mode = .inService := by decide

theorem witness_TerminalTextPassesInOpenZones :
    commissioning.mode = .commissioning ∧ wing.stations.look 1 = none ∧ wing.mode = .inService ∧ wing.admits 10 .station 4 = true
    ∧ (∃ x ∈ wing.stations.look 4, ∃ z ∈ wing.zones.look x.loaded.zone, z.state = .normal)
    ∧ (∃ z ∈ (inZone wing .alert).zones.look 8, z.state = .alert) ∧ (inZone wing .alert).admits 10 .station 4 = true
    ∧ ∀ v ∈ [ZoneState.shutdown, .secured, .restoring], (inZone wing v).mode = .inService
      ∧ (inZone wing v).admits 10 .station 4 = true
      ∧ ∃ x ∈ (inZone wing v).stations.look 4, ∃ z ∈ (inZone wing v).zones.look x.loaded.zone, z.state = v := by decide

theorem witness_RestartConvertsEveryRecord :
    (∀ v ∈ [ZoneState.normal, .alert, .shutdown, .secured, .restoring], ∀ p ∈ [true, false],
      let s := { inZone (requested shown .picked) v with firePanel := p }
      s.tablesLawful = true ∧ s.link.waiting = [] ∧ s.mode = .inService
      ∧ (∃ x ∈ s.aisles.look 6, s.zoneState x.geom.zone = some v)
      ∧ (∃ z ∈ s.zones.look 8, z.state = v) ∧ ∃ h ∈ s.shutters.look 8, (s.zones.look h.zone).isSome = true)
    ∧ (commissioning.mode = .commissioning ∧ (∃ z ∈ commissioning.zones.look 8, z.state = .normal)
      ∧ ∃ x ∈ commissioning.aisles.look 6, commissioning.zoneState x.geom.zone ≠ some .shutdown)
    ∧ (∀ p ∈ [true, false], ∃ t ∈ after .resetLineAsserted { wing with firePanel := p }, ∃ y ∈ t.aisles.look 6,
        y.crane.state = (if p then .stopped else .parking) ∧ wing.craneAddress 6 = some 1)
    ∧ ({ wing with link := { Link.reset with restartPending := true } } : State).link.restartPending = true
    ∧ ({ wing with link := { Link.reset with urgent := [told], routine := [.report told] } } : State).link.urgent ≠ []
    ∧ ({ wing with link := { Link.reset with routine := [.report told] } } : State).link.routine ≠ [] := by decide

/-- The six checks of R197, as `CloseMakesSixChecks` gives them, in a form that can be decided. -/
def checks (s : State) : List Bool :=
  [ decide (∀ e ∈ s.bins, s.slotInBounds e.2.home = true ∧ ∀ f ∈ s.bins, f.2.home = e.2.home → f.1 = e.1),
    decide ((∀ e ∈ s.aisles, (s.zones.look e.2.geom.zone).isSome = true)
      ∧ (∀ e ∈ s.stations, (s.zones.look e.2.loaded.zone).isSome = true
        ∧ ∀ k ∈ e.2.loaded.shutter, ∃ h ∈ s.shutters.look k, h.zone = e.2.loaded.zone)
      ∧ (∀ e ∈ s.concentrators, (s.zones.look e.2.zone).isSome = true)
      ∧ ∀ e ∈ s.shutters, (s.zones.look e.2.zone).isSome = true),
    decide (∀ e ∈ s.stations, e.2.loaded.linked ≠ []),
    decide (∀ e ∈ s.zones, ∃ c ∈ s.concentrators, c.2.zone = e.1),
    decide ((∀ e ∈ s.addresses,
        (e.2.role = .crane → (s.aisles.look e.2.index).isSome = true)
        ∧ (e.2.role = .station → (s.stations.look e.2.index).isSome = true)
        ∧ (e.2.role = .shutter → (s.shutters.look e.2.index).isSome = true)
        ∧ (e.2.role = .concentrator → (s.concentrators.look e.2.index).isSome = true))
      ∧ (∀ e ∈ s.stations, s.addresses.look e.2.loaded.address = some { role := .station, index := e.1 })
      ∧ (∀ e ∈ s.concentrators, s.addresses.look e.2.address = some { role := .concentrator, index := e.1 })
      ∧ (∀ e ∈ s.shutters, s.addresses.look e.2.address = some { role := .shutter, index := e.1 })
      ∧ ∀ e ∈ s.aisles, ∃ d ∈ s.addresses, d.2 = { role := .crane, index := e.1 }),
    decide (∀ e ∈ s.bins, e.2.fill + e.2.reserved ≤ e.2.capacity) ]

theorem witness_CloseMakesSixChecks :
    ∀ p ∈ [(commissioning.modBin 0 fun b => { b with home := { b.home with bay := 41 } },
              [false, true, true, true, true, true]),
           (commissioning.modShutter 8 fun h => { h with zone := 7 }, [true, false, true, true, true, true]),
           (commissioning.modStation 4 fun x => { x with loaded := { x.loaded with linked := [] } },
              [true, true, false, true, true, true]),
           ({ commissioning with zones := (1, { window := 50, state := .normal, causes := Causes.empty, windowLeft := none })
                                  :: commissioning.zones }, [true, true, true, false, true, true]),
           ({ commissioning with addresses := commissioning.addresses.remove 1 }, [true, true, true, true, false, true]),
           (commissioning.modBin 0 fun b => { b with reserved := 373 }, [true, true, true, true, true, false]),
           (commissioning, [true, true, true, true, true, true])],
      p.1.receives 1 = true ∧ p.1.isHalted = false ∧ p.1.mode = .commissioning ∧ p.1.tablesLawful = true
      ∧ checks p.1 = p.2 := by decide

theorem witness_CloseSetsUpTheWing :
    (wing.receives 1 = true ∧ wing.isHalted = false ∧ wing.tablesLawful = true ∧ wing.securedLawful = true
      ∧ wing.mode = .inService)
    ∧ (∀ p ∈ [true, false], let s := { commissioning with firePanel := p }
        s.receives 1 = true ∧ s.isHalted = false ∧ s.tablesLawful = true ∧ s.securedLawful = true ∧ s.mode = .commissioning ∧ s.failingCheck = none
        ∧ s.craneAddress 6 = some 1
        ∧ (∃ x ∈ s.aisles.look 6, x.service = .inService ∧ x.crane.active = none ∧ x.crane.staged = none
            ∧ ∀ j ∈ x.queue, j.kind ≠ .park))
    ∧ (let s := { outOfService with mode := .commissioning }
       s.failingCheck = none ∧ ∃ x ∈ s.aisles.look 6, x.crane.state = .outOfService ∧ x.service = .outOfService)
    ∧ let s : State := { outOfService with mode := .commissioning, firePanel := true }
      s.failingCheck = none ∧ s.zones.map (·.1) = [8]
      ∧ ∀ b ∈ [true, false],
        let t := (inZone s .shutdown).modShutter 8 fun h => { h with state := if b then .closed else .waitingMouth }
        t.securedCondition 8 = b := by decide

theorem witness_ReopenReturnsToCommissioning :
    (∀ s ∈ [commissioning, wing, shown, inZone wing .alert], s.receives 1 = true ∧ s.isHalted = false
      ∧ s.tablesLawful = true ∧ s.securedLawful = true)
    ∧ commissioning.mode = .commissioning ∧ wing.mode = .inService
    ∧ (∃ x ∈ shown.stations.look 4, x.lane ≠ [])
    ∧ ∀ s ∈ [wing, inZone wing .alert], (∀ e ∈ s.aisles, e.2.jobs = []) ∧ s.requests = []
      ∧ (∀ e ∈ s.stations, e.2.returns = [] ∧ e.2.lane = [] ∧ e.2.inTransit = [])
      ∧ (∀ e ∈ s.bins, e.2.state = .stored) ∧ ∀ e ∈ s.zones, e.2.state = .normal ∨ e.2.state = .alert := by decide

/-- The wing with zone 8, its shutter and its crane in given states. -/
def zoned (v : ZoneState) (h : ShutterState) (c : CraneState) : State :=
  ((inZone wing v).modShutter 8 fun x => { x with state := h }).modCrane 6 fun x => { x with state := c }

theorem witness_ZoneConditionsEndShutdownAndRestoration :
    (∀ p ∈ [(ZoneState.shutdown, ShutterState.closed, CraneState.stopped, true), (.shutdown, .closed, .faulted, true),
            (.shutdown, .closed, .outOfService, true), (.shutdown, .jammed, .stopped, false),
            (.shutdown, .closed, .stopping, false)],
      let s := zoned p.1 p.2.1 p.2.2.1
      s.tablesLawful = true ∧ (∃ x ∈ s.zones.look 8, x.state = .shutdown)
      ∧ ((∀ e ∈ s.shutters, e.2.zone = 8 → e.2.state = .closed)
          ∧ (∀ e ∈ s.aisles, e.2.geom.zone = 8 → e.2.crane.state ∈ [CraneState.stopped, .faulted, .outOfService])
          ↔ p.2.2.2 = true))
    ∧ (∀ p ∈ [(ZoneState.restoring, ShutterState.opened, CraneState.idle, true), (.restoring, .opened, .outOfService, true),
              (.restoring, .opening, .idle, false), (.restoring, .opened, .parking, false)],
      let s := zoned p.1 p.2.1 p.2.2.1
      s.tablesLawful = true ∧ (∃ x ∈ s.zones.look 8, x.state = .restoring)
      ∧ ((∀ e ∈ s.shutters, e.2.zone = 8 → e.2.state = .opened)
          ∧ (∀ e ∈ s.aisles, e.2.geom.zone = 8 → e.2.crane.state ∈ [CraneState.idle, .busy, .faulted, .outOfService])
          ↔ p.2.2.2 = true))
    ∧ (∀ e ∈ (zoned .restoring .opened .idle).aisles, e.2.crane.suspension = none)
    ∧ (∀ c ∈ [Causes.empty, { Causes.empty with trouble := true }], ∃ x ∈ ((zoned .restoring .opened .idle).modZone 8 fun x =>
        { x with causes := c }).zones.look 8, x.causes = c ∧ (x.causes.isEmpty = true ↔ c = Causes.empty))
    ∧ ∀ v ∈ [ZoneState.normal, .alert, .secured], ∃ x ∈ (inZone wing v).zones.look 8, x.state = v := by decide

/-- The idle crane with a suspension record. -/
def record (k : JobKind) (p : Phase) (whole : Bool) (l : Option Reading) : Suspension :=
  { job := job k, phaseAtStop := p, load := decide (p = .toDest), forks := !whole, recoverable := whole, pausedLeft := 200
    parkLabel := l }
def suspended (r : Suspension) : State := wing.modCrane 6 fun c => { c with suspension := some r }

theorem witness_SuspensionRecordsResolveByParkLabel :
    (∀ r ∈ [record .retrieve .toDest false none, record .retrieve .toDest false (some (.label 0)),
            record .audit .toSource true (some .none), record .store .toSource true (some .none),
            record .retrieve .toDest false (some .none), record .retrieve .picking true (some .none),
            record .retrieve .toDest false (some (.label 16383)), record .audit .picking true (some (.label 0))],
      ∀ v ∈ [Service.inService, .draining], let s := (suspended r).modAisle 6 fun x => { x with service := v }
      s.tablesLawful = true ∧ ∃ x ∈ s.aisles.look 6, x.crane.suspension = some r ∧ x.crane.active = none ∧ x.service = v)
    ∧ (record .retrieve .toDest false (some (.label 0))).resumes = true
    ∧ (record .retrieve .toDest false (some (.label 16383))).resumes = false
    ∧ (record .audit .picking true (some (.label 0))).resumes = false
    ∧ (let r := record .retrieve .picking true (some .none)
       r.job.kind ≠ .audit ∧ r.phaseAtStop ≠ .toSource ∧ r.job.bin = some 0 ∧ ((suspended r).bins.look 0).isSome = true)
    ∧ (∃ x ∈ outOfService.aisles.look 6, x.service = .outOfService)
    ∧ (∃ x ∈ wing.aisles.look 6, x.crane.suspension = none) := by decide

/-- What `RequestItemTakesAShelvedItem` asks of a state, for item 1 in bin 0 at station 4. -/
def lendable (s : State) (p : Bin → Prop) : Prop :=
  s.receivesWork 65535 = true ∧ within 1 4294967295 1 = true ∧ within 1 4 4 = true ∧ s.requests.length < 64
  ∧ ∃ i ∈ s.items.look 1, i.state = .shelved ∧ i.home = some 0 ∧ ∃ b ∈ s.bins.look 0, ∃ x ∈ s.stations.look 4,
      x.loaded.lending = true ∧ b.home.aisle ∈ x.loaded.linked ∧ b.state ≠ .missing ∧ b.state ≠ .inDoubt ∧ p b

theorem witness_RequestItemTakesAShelvedItem :
    lendable shown (fun b => b.trip = some 4 ∧ shown.presentedBin 4 = some 0)
    ∧ (let s := shown.modStation 4 fun x => { x with lane := [.tray 9, .bin 0] }
       lendable s fun b => b.trip = some 4 ∧ s.presentedBin 4 ≠ some 0 ∧ s.laneOf 0 = some 4)
    ∧ lendable wing (fun b => b.trip ≠ some 4 ∧ b.state = .stored ∧ wing.steady = true
        ∧ ∀ y ∈ wing.aisles.look b.home.aisle, y.queue.length < 32)
    ∧ lendable (wing.modBin 0 fun b => { b with state := .homebound })
        (fun b => b.trip ≠ some 4 ∧ b.state ≠ .stored ∧ b.next = none)
    ∧ lendable (wing.modBin 0 fun b => { b with state := .homebound, next := some 4 })
        (fun b => b.trip ≠ some 4 ∧ b.state ≠ .stored ∧ b.next = some 4)
    ∧ lendable (wing.modBin 0 fun b => { b with state := .homebound, next := some 1 })
        (fun b => b.trip ≠ some 4 ∧ b.state ≠ .stored ∧ ∃ o ∈ b.next, o ≠ 4) := by
  unfold lendable
  decide

theorem witness_RequestItemsAreJudgedInTurn :
    wing.receivesWork 1 = true ∧ within 1 7 [1, 1, 1, 1, 1, 1, 1].length = true ∧ within 1 7 [1].length = true
    ∧ wing.items.look 2 = none
    ∧ (∃ i ∈ wing.items.look 4294967295, within 1 4294967295 4294967295 = true ∧ i.state ≠ .shelved)
    ∧ (∃ i ∈ wing.items.look 1, i.state = .shelved ∧ i.home = some 0) ∧ wing.stations.look 1 = none ∧ within 1 4 5 = false
    ∧ (∃ x ∈ (wing.modStation 4 fun x => { x with loaded := { x.loaded with lending := false } }).stations.look 4,
        x.loaded.lending = false)
    ∧ (∃ x ∈ (wing.modStation 4 fun x => { x with loaded := { x.loaded with linked := [1] } }).stations.look 4,
        x.loaded.lending = true ∧ ∃ b ∈ wing.bins.look 0, b.home.aisle ∉ x.loaded.linked)
    ∧ (∀ v ∈ [BinState.missing, .inDoubt], ∃ b ∈ (wing.modBin 0 fun b => { b with state := v }).bins.look 0, b.state = v)
    ∧ 64 ≤ ({ wing with requests := List.replicate 64 (request .awaitingBin) } : State).requests.length
    ∧ (let s := wing.modAisle 6 fun x => { x with queue := List.replicate 32 (job .audit) }
       s.receivesWork 1 = true ∧ s.requests.length < 64
       ∧ ∃ b ∈ s.bins.look 0, b.state = .stored ∧ b.trip ≠ some 4 ∧ ∃ y ∈ s.aisles.look b.home.aisle, 32 ≤ y.queue.length) := by
  decide

theorem witness_LoanDecisionsEndTheRequest :
    (let s := requested shown .picked
     s.receivesWork 1 = true ∧ within 1 4294967295 1 = true ∧ request .picked ∈ s.requests ∧ within 1 65535 65535 = true
     ∧ ∃ i ∈ s.items.look 1, i.home = some 0 ∧ i.state = .picked)
    ∧ (∀ v ∈ [ItemState.held, .lent],
        ∃ i ∈ (wing.modItem 1 fun i => { i with state := v }).items.look 1, i.home = some 0 ∧ i.state = v)
    ∧ wing.receivesWork 1 = true
    ∧ ∀ w ∈ [none, some 2, some 1],
      let r := { request .picked with window := w }
      let s := { requested shown .picked with requests := [r] }
      s.mode = .inService ∧ (s.requests.find? fun q => decide (q.tag = r.tag)) = some r := by decide

/-- A request on bin 0, CALLED for station 4 by a RETRIEVE that is queued or staged. -/
def called (queued : Bool) (v : RequestState) : State :=
  requested ((wing.modBin 0 fun b => { b with state := .called, trip := some 4 }).modAisle 6 fun x =>
    if queued then { x with queue := [job .retrieve] }
    else { x with crane := { x.crane with state := .busy, staged := some (job .retrieve) } }) v

/-- The state that `WithdrawRequestSettlesTheTrip` calls `v`, for a request that is not PRESENTED. -/
def withdrawn (s : State) : State :=
  { s with requests := s.requests.filter fun q => !decide (q.item = 1)
           items := s.items.adjust 1 fun i => { i with state := .shelved } }

theorem witness_WithdrawRequestSettlesTheTrip :
    (∀ s ∈ [called true .awaitingBin, called false .awaitingBin, requested shown .picked, requested shown .presented,
            requested (wing.modBin 0 fun b => { b with state := .homebound, next := some 4 }) .awaitingBin],
      s.receivesWork 1 = true ∧ within 1 65535 65535 = true
      ∧ ∃ r ∈ s.requests.find? fun q => decide (q.tag = 65535), ∃ i ∈ s.items.look r.item, i.home = some 0)
    ∧ (let v := withdrawn (called true .awaitingBin)
       v.stillNeeded 0 4 = false ∧ v.queuedFor 0 4 = some 6
       ∧ ∃ b ∈ (called true .awaitingBin).bins.look 0, b.state = .called ∧ b.next = none)
    ∧ (let v := withdrawn (called false .awaitingBin)
       v.stillNeeded 0 4 = false ∧ v.queuedFor 0 4 = none ∧ v.stagedFor 0 4 = some 6
       ∧ ∃ x ∈ (called false .awaitingBin).aisles.look 6, x.crane.staged = some (job .retrieve))
    ∧ (let v := withdrawn ((called true .awaitingBin).modStation 4 fun x => { x with returns := [{ item := 9, target := 0 }] })
       v.stillNeeded 0 4 = true)
    ∧ (let v := withdrawn (requested (wing.modBin 0 fun b => { b with state := .homebound, next := some 4 }) .awaitingBin)
       v.stillNeeded 0 4 = false ∧ v.queuedFor 0 4 = none ∧ v.stagedFor 0 4 = none)
    ∧ (∀ q ∈ [true, false],
        -- the bin is not CALLED
        (let s := (called q .awaitingBin).modBin 0 fun b => { b with state := .inDoubt }
         (withdrawn s).stillNeeded 0 4 = false ∧ ∃ b ∈ s.bins.look 0, b.state ≠ .called)
        -- another station is its next, with nothing, a request, or a return entry on it
        ∧ ∀ w ∈ [(([] : List Request), ([] : List ReturnEntry)), ([{ request .awaitingBin with tag := 7, item := 5, station := 3 }], []),
                 ([], [{ item := 9, target := 0 }])],
          let s := (called q .awaitingBin).modBin 0 fun b => { b with next := some 3 }
          let u : State :=
            { s with
              stations := [(3, { loaded := fields, lane := [], inTransit := [], overdue := [], returns := w.2, hold := false
                                 mouthOccupied := false })] ++ s.stations
              items := s.items.put 5 { thickness := 28, sizeClass := 2, state := .requested, home := some 0, target := none }
              requests := s.requests ++ w.1 }
          let v := withdrawn u
          u.receivesWork 1 = true ∧ v.stillNeeded 0 4 = false ∧ (q = true ↔ v.queuedFor 0 4 = some 6)
          ∧ (q = false ↔ v.queuedFor 0 4 = none ∧ v.stagedFor 0 4 = some 6)
          ∧ (∃ b ∈ u.bins.look 0, b.state = .called ∧ b.next = some 3)
          ∧ ((∃ r ∈ v.requests, r.state ≠ .picked ∧ r.station = 3 ∧ ∃ i ∈ v.items.look r.item, i.home = some 0) ↔ w.1 ≠ [])
          ∧ ∃ y ∈ v.stations.look 3, (∃ e ∈ y.returns, e.target = 0) ↔ w.2 ≠ []) := by decide

theorem witness_BinOrdersQueueOneJob :
    (∀ s ∈ [wing, shown], s.receivesWork 65535 = true ∧ 0 ≤ 16383 ∧ (s.bins.look 0).isSome = true
      ∧ within 1 4 4 = true ∧ (s.stations.look 4).isSome = true)
    ∧ (∃ b ∈ shown.bins.look 0, b.trip = some 4 ∧ b.state ≠ .missing ∧ b.state ≠ .inDoubt)
    ∧ (∃ b ∈ wing.bins.look 16383, b.trip ≠ some 4 ∧ b.state = .stored ∧ (∃ x ∈ wing.stations.look 4, b.home.aisle ∈ x.loaded.linked)
      ∧ (∀ y ∈ wing.aisles.look b.home.aisle, y.queue.length < 32) ∧ wing.named 16383 = false ∧ wing.inLane 16383 = false
      ∧ slotOf { slotField with bay := 1, level := 1 } = some { bin.home with bay := 1, level := 1 }
      ∧ wing.slotInBounds { bin.home with bay := 1, level := 1 } = true
      ∧ wing.slotTaken { bin.home with bay := 1, level := 1 } = false
      ∧ slotOf slotField = some bin.home ∧ bin.home.aisle = b.home.aisle ∧ wing.slotInBounds bin.home = true
      ∧ wing.slotTaken bin.home = true)
    ∧ (∃ x ∈ (wing.modStation 4 fun x => { x with loaded := { x.loaded with linked := [1] } }).stations.look 4,
        ∃ b ∈ wing.bins.look 0, b.home.aisle ∉ x.loaded.linked)
    ∧ ∀ v ∈ [BinState.missing, .inDoubt],
      let s := wing.modBin 0 fun b => { b with state := v }
      s.receivesWork 1 = true ∧ (∃ b ∈ s.bins.look 0, b.state = v) ∧ s.named 0 = false ∧ s.inLane 0 = false := by decide

theorem witness_PresentationAndReleaseOfABin :
    (∃ x ∈ shown.stations.look 4, x.lane = [.bin 0] ∧ shown.binState 0 = some .inLane ∧ shown.presentedBin 4 = some 0)
    ∧ (∃ x ∈ wing.stations.look 4, x.lane = [] ∧ wing.presentedBin 4 = none)
    ∧ (∀ v ∈ [BinState.lockedOut, .inDoubt, .inLane], let s := shown.modBin 0 fun b => { b with state := v }
        s.receivesWork 1 = true ∧ s.named 0 = false ∧ s.laneOf 0 = some 4 ∧ ∃ b ∈ s.bins.look 0, b.state = v)
    ∧ ∀ v ∈ [BinState.missing, .inDoubt], let s := wing.modBin 0 fun b => { b with state := v }
        s.receivesWork 1 = true ∧ s.named 0 = false ∧ s.laneOf 0 = none ∧ ∃ b ∈ s.bins.look 0, b.state = v := by decide

theorem witness_AisleOrdersChangeTheService :
    (∀ s ∈ [wing, outOfService, active .busy (job .retrieve) .picking, suspended (record .retrieve .toDest false none)],
      s.receivesWork 1 = true ∧ within 1 6 6 = true ∧ (s.aisles.look 6).isSome = true)
    ∧ (∃ x ∈ wing.aisles.look 6, x.service = .inService ∧ x.crane.active = none ∧ x.crane.suspension = none)
    ∧ (∃ x ∈ (active .busy (job .retrieve) .picking).aisles.look 6, x.service = .inService ∧ x.crane.active ≠ none)
    ∧ (∃ x ∈ (suspended (record .retrieve .toDest false none)).aisles.look 6, x.service = .inService ∧ x.crane.suspension ≠ none)
    ∧ (∃ x ∈ outOfService.aisles.look 6, x.service = .outOfService)
    ∧ (∀ v ∈ [ZoneState.shutdown, .secured],
        ∃ x ∈ (inZone outOfService v).aisles.look 6, x.service = .outOfService
          ∧ (inZone outOfService v).zoneState x.geom.zone = some v)
    ∧ ∃ x ∈ outOfService.aisles.look 6, outOfService.zoneState x.geom.zone = some .normal := by decide

theorem witness_FireShutsTheZone :
    (∀ v ∈ [ZoneState.normal, .alert, .shutdown, .restoring],
      let s := zoned v (if v = .restoring then .opening else .opened) .idle
      s.tablesLawful = true ∧ s.securedLawful = true ∧ s.steady = true ∧ s.admits 63 .concentrator 16 = true
      ∧ within 1 32 1 = true ∧ within 1 32 32 = true ∧ s.receivesWork 1 = true ∧ within 1 8 8 = true
      ∧ (∃ c ∈ s.concentrators.look 16, c.detectors.look 32 = none) ∧ (∃ x ∈ s.zones.look 8, x.state = v)
      ∧ s.mode = .inService)
    ∧ (let s := wing.modConcentrator 16 fun c => { c with detectors := [(1, .pre), (32, .trouble)] }
       s.tablesLawful = true ∧ s.securedLawful = true ∧ s.steady = true
       ∧ ∃ c ∈ s.concentrators.look 16, c.detectors.look 32 = some .trouble ∧ (1, Condition.pre) ∈ c.detectors ∧ c.zone = 8)
    ∧ (let s := wing.modAisle 6 fun x => { x with service := .outOfService, crane := { x.crane with suspension := some resumable } }
       s.tablesLawful = true ∧ s.securedLawful = true ∧ s.steady = false)
    ∧ commissioning.tablesLawful = true ∧ commissioning.securedLawful = true ∧ commissioning.steady = true
    ∧ commissioning.mode = .commissioning := by decide

theorem witness_RestoreZoneBeginsRestoration :
    (∀ v ∈ [ZoneState.normal, .secured, .shutdown], let s := zoned v .closed .stopped
      s.receivesWork 1 = true ∧ within 1 8 8 = true ∧ s.tablesLawful = true ∧ ∃ x ∈ s.zones.look 8, x.state = v)
    ∧ (¬(ZoneState.normal = .shutdown ∧ (true && true) = true) ∧ ¬(ZoneState.shutdown = .shutdown ∧ (true && false) = true))
    ∧ (({ zoned .secured .closed .stopped with firePanel := true } : State).firePanel = true ∧ (true && false) = false)
    ∧ (∃ c ∈ ((zoned .secured .closed .stopped).modConcentrator 16 fun c => { c with detectors := [(5, .alarm)] }).concentrators.look
        16, c.zone = 8 ∧ c.detectors ≠ [])
    ∧ ((zoned .secured .closed .stopped).firePanel = false
      ∧ ∀ e ∈ (zoned .secured .closed .stopped).concentrators, e.2.detectors = []) := by decide

theorem witness_FaultsMoveFromClearToHalted :
    (∀ s ∈ [wing, faulty wing, halted wing], s.tablesLawful = true ∧ s.receives 1 = true)
    ∧ wing.faults.state = .clear ∧ wing.isHalted = false ∧ (faulty wing).faults.state = .pending
    ∧ (faulty wing).isHalted = false ∧ (faulty wing).faults.first = some first ∧ first.tag = 12
    ∧ (halted wing).faults.state = .halted ∧ (halted wing).faults.nextTag = 255
    ∧ within 1 255 1 = true ∧ within 1 255 255 = true ∧ within 1 255 0 = false ∧ within 1 255 256 = false := by decide

theorem witness_PhaseMovesTheCraneAndItsBin :
    (∀ s ∈ [wing, active .busy (job .retrieve) .toSource, active .stopped (job .retrieve) .picking,
            active .busy (job .store) .placing, active .busy (job .audit) .toSource, active .parking park .toDest],
      s.admits 1 .crane 6 = true ∧ (s.aisles.look 6).isSome = true)
    ∧ (∃ x ∈ wing.aisles.look 6, x.crane.active = none)
    ∧ (∃ x ∈ (active .stopped (job .retrieve) .picking).aisles.look 6, x.crane.active = some (job .retrieve) ∧ x.crane.state = .stopped)
    ∧ (∃ x ∈ (active .busy (job .store) .placing).aisles.look 6, x.crane.active = some (job .store) ∧ x.crane.state ≠ .stopped
      ∧ ∀ o ∈ x.crane.phase, ¬phaseRank o ≤ phaseRank .toSource ∧ phaseRank o ≤ phaseRank .placing)
    ∧ (∃ x ∈ (active .busy (job .audit) .toSource).aisles.look 6, x.crane.active = some (job .audit)
      ∧ ∀ o ∈ x.crane.phase, phaseRank o ≤ phaseRank .picking)
    ∧ (∃ x ∈ (active .parking park .toDest).aisles.look 6, x.crane.active = some park ∧ x.crane.state ≠ .stopped)
    ∧ (∃ x ∈ (active .busy (job .retrieve) .toSource).aisles.look 6, x.crane.active = some (job .retrieve)
      ∧ (job .retrieve).bin = some 0 ∧ ∀ o ∈ x.crane.phase, phaseRank o ≤ phaseRank .toDest) := by decide

theorem witness_CraneResultsSettleTheBin :
    (∀ k ∈ [JobKind.retrieve, .store, .transfer, .audit], ∀ v ∈ [CraneState.busy, .stopping],
      let s := active v (job k) .toDest
      s.admits 1 .crane 6 = true ∧ s.inLane 0 = false
      ∧ ∃ x ∈ s.aisles.look 6, x.crane.state = v ∧ x.crane.active = some (job k) ∧ (job k).bin = some 0)
    ∧ (∀ v ∈ [BinState.called, .onCrane, .homebound], ∃ b ∈ (wing.modBin 0 fun b => { b with state := v }).bins.look 0, b.state = v)
    ∧ (job .retrieve).station = some 4
    ∧ (∀ v ∈ [BinState.inLane, .lockedOut, .inDoubt], let s := shown.modBin 0 fun b => { b with state := v }
        s.inLane 0 = true ∧ ∃ b ∈ s.bins.look 0, b.state = v)
    ∧ (0 : Nat) ≠ 16383 := by decide

/-- The second part of that statement: a DONE or AUDIT_RESULT that is dropped, and one out of turn. -/
theorem witness_CraneResultsSettleTheBin_outOfTurn :
    (∀ v ∈ [CraneState.faulted, .outOfService], let s := wing.modCrane 6 fun c => { c with state := v }
      s.admits 1 .crane 6 = true ∧ ∃ x ∈ s.aisles.look 6, x.crane.state = v)
    ∧ (∀ v ∈ [CraneState.idle, .parking], let s := wing.modCrane 6 fun c => { c with state := v }
      s.admits 1 .crane 6 = true ∧ ∃ x ∈ s.aisles.look 6, x.crane.state ≠ .busy ∧ x.crane.state ≠ .stopping ∧ x.crane.state = v)
    ∧ (∀ k ∈ [JobKind.retrieve, .audit], ∃ x ∈ (active .stopped (job k) .toDest).aisles.look 6,
        x.crane.state ≠ .busy ∧ x.crane.state ≠ .stopping ∧ x.crane.active = some (job k))
    ∧ (∀ j ∈ [job .audit, park], ∃ x ∈ (active .stopping j .toDest).aisles.look 6, x.crane.state = .stopping
        ∧ x.crane.active = some j ∧ (j.kind = .audit ∨ j.kind = .park))
    ∧ (∀ j ∈ [job .retrieve, job .store, job .transfer], ∃ x ∈ (active .busy j .toDest).aisles.look 6, x.crane.state = .busy
        ∧ x.crane.active = some j ∧ j.kind ≠ .audit)
    ∧ ∃ x ∈ (wing.modCrane 6 fun c => { c with state := .stopping }).aisles.look 6, x.crane.state = .stopping
        ∧ x.crane.active = none := by decide

theorem witness_JobEndPromotesOrIdlesTheCrane :
    (∃ x ∈ (active .stopping (job .store) .placing).aisles.look 6, x.crane.state ≠ .busy)
    ∧ (∃ x ∈ ((active .busy (job .store) .placing).modCrane 6 fun c => { c with staged := some (job .audit) }).aisles.look 6,
        x.crane.state = .busy ∧ x.crane.staged = some (job .audit))
    ∧ (∃ x ∈ (active .busy (job .store) .placing).aisles.look 6,
        x.crane.state = .busy ∧ x.crane.staged = none ∧ x.service ≠ .draining)
    ∧ (∃ x ∈ ((active .busy (job .store) .placing).modAisle 6 fun x => { x with service := .draining }).aisles.look 6,
        x.crane.state = .busy ∧ x.crane.staged = none ∧ x.service = .draining)
    ∧ (∃ b ∈ wing.bins.look 0, b.next = none)
    ∧ (let s := requested (wing.modBin 0 fun b => { b with next := some 4 }) .awaitingBin
       (∃ b ∈ s.bins.look 0, b.next = some 4)
       ∧ ∃ r ∈ s.requests, r.state ≠ .picked ∧ r.station = 4 ∧ (s.items.look r.item).bind (·.home) = some 0)
    ∧ (let s := (wing.modBin 0 fun b => { b with next := some 4 }).modStation 4 fun x =>
         { x with returns := [{ item := 4294967295, target := 0 }] }
       (∃ b ∈ s.bins.look 0, b.next = some 4) ∧ s.requests = [] ∧ s.awaitedAt 0 4 = true)
    ∧ (let s := wing.modBin 0 fun b => { b with next := some 4 }
       (∃ b ∈ s.bins.look 0, b.next = some 4) ∧ s.requests = [] ∧ s.awaitedAt 0 4 = false) := by decide

theorem witness_PickFailureRetriesThenAbandons :
    (∀ v ∈ [CraneState.stopping, .faulted, .outOfService, .idle, .parking, .stopped],
      let s := wing.modCrane 6 fun c => { c with state := v }
      s.admits 1 .crane 6 = true ∧ ∃ x ∈ s.aisles.look 6, x.crane.state = v)
    ∧ (∀ k ∈ [JobKind.retrieve, .store, .transfer], ∀ n ∈ [0, 1],
      let s := (active .busy (job k) .picking).modCrane 6 fun c => { c with retryIndex := n }
      s.admits 1 .crane 6 = true ∧ s.inLane 0 = false ∧ (job k).bin = some 0
      ∧ (∃ b ∈ s.bins.look 0, b.state ≠ .inDoubt)
      ∧ ∃ x ∈ s.aisles.look 6, x.crane.state = .busy ∧ x.crane.active = some (job k)
        ∧ x.crane.phase ≠ some .toDest ∧ x.crane.phase ≠ some .placing
        ∧ x.retry[x.crane.retryIndex]? = if n = 0 then some (15, 0) else none)
    ∧ (∀ p ∈ [Phase.toDest, .placing], ∃ x ∈ (active .busy (job .store) p).aisles.look 6,
        x.crane.state = .busy ∧ x.crane.phase = some p)
    ∧ (∀ j ∈ [job .audit, park], ∃ x ∈ (active .busy j .picking).aisles.look 6,
        x.crane.state = .busy ∧ x.crane.active = some j ∧ (j.kind = .audit ∨ j.kind = .park))
    ∧ shown.inLane 0 = true := by decide

theorem witness_LossFailsRequestsAndDisplacesReturns :
    let s := { requested wing .awaitingBin with
      items := wing.items.adjust 4294967295 fun i => { i with state := .returning, target := some 0 }
      stations := wing.stations.adjust 4 fun x => { x with returns := [{ item := 4294967295, target := 0 }], overdue := [0] } }
    s.tablesLawful = true ∧ (BinState.missing = .missing ∨ BinState.missing = .inDoubt)
    ∧ (BinState.inDoubt = .missing ∨ BinState.inDoubt = .inDoubt)
    ∧ (∃ r ∈ s.requests, r.state ≠ .picked ∧ (s.items.look r.item).bind (·.home) = some 0)
    ∧ ∃ x ∈ s.stations.look 4, ∃ q ∈ x.returns, q.target = 0 := by decide

theorem witness_StoppedCraneSuspendsItsJob :
    (∀ v ∈ [CraneState.faulted, .outOfService, .stopped, .idle, .parking, .busy],
      let s := wing.modCrane 6 fun c => { c with state := v }
      s.admits 1 .crane 6 = true ∧ ∃ x ∈ s.aisles.look 6, x.crane.state = v)
    ∧ (∃ x ∈ (wing.modCrane 6 fun c => { c with state := .stopping }).aisles.look 6,
        x.crane.state = .stopping ∧ x.crane.active = none)
    ∧ (∃ x ∈ (active .stopping park .toDest).aisles.look 6, x.crane.active = some park ∧ park.kind = .park)
    ∧ (∃ x ∈ (active .stopping (job .store) .toDest).aisles.look 6, x.crane.active = some (job .store)
        ∧ (job .store).kind ≠ .park ∧ wing.zoneClosed x.geom.zone = false)
    ∧ ∀ v ∈ [ZoneState.shutdown, .secured, .restoring],
      let s := inZone (active .stopping (job .store) .toDest) v
      s.admits 1 .crane 6 = true
      ∧ ∃ x ∈ s.aisles.look 6, x.crane.state = .stopping ∧ x.crane.active = some (job .store) ∧ s.zoneClosed x.geom.zone = true := by
  decide

theorem witness_ParkedCraneWritesItsLabel :
    (∀ v ∈ [CraneState.faulted, .outOfService, .idle, .busy, .stopped],
      let s := wing.modCrane 6 fun c => { c with state := v }
      s.admits 1 .crane 6 = true ∧ ∃ x ∈ s.aisles.look 6, x.crane.state = v)
    ∧ (∀ v ∈ [CraneState.parking, .stopping], ∃ x ∈ (wing.modCrane 6 fun c => { c with state := v }).aisles.look 6,
        x.crane.state = v ∧ x.crane.active = none)
    ∧ (∃ x ∈ (active .stopping (job .store) .toDest).aisles.look 6, x.crane.active = some (job .store)
        ∧ (job .store).kind ≠ .park)
    ∧ ∀ v ∈ [CraneState.parking, .stopping], ∀ r ∈ [none, some (record .retrieve .toDest false none)],
      let s := (active v park .toDest).modCrane 6 fun c => { c with suspension := r }
      s.admits 1 .crane 6 = true
      ∧ ∃ x ∈ s.aisles.look 6, x.crane.state = v ∧ x.crane.active = some park ∧ park.kind = .park ∧ x.crane.suspension = r := by
  decide

theorem witness_LostCraneEndsTheAislesService :
    (∀ v ∈ [CraneState.faulted, .outOfService], let s := wing.modCrane 6 fun c => { c with state := v }
      s.admits 1 .crane 6 = true ∧ ∃ x ∈ s.aisles.look 6, x.crane.state = v)
    ∧ (∃ x ∈ (active .busy (job .store) .picking).aisles.look 6, x.crane.deadline = some { left := 212, running := true }
        ∧ 1 < 212 ∧ x.crane.stopWait = none)
    ∧ (∀ j ∈ [job .retrieve, job .store, job .transfer, job .audit, park], ∀ p ∈ [Phase.toSource, .picking],
        ∀ v ∈ [CraneState.busy, .parking, .stopping],
        let s := (lastDs v j p).modCrane 6 fun c => { c with stopWait := some 1 }
        s.mode = .inService ∧ s.tablesLawful = true ∧ s.admits 1 .crane 6 = true
        ∧ s.inLane 0 = false ∧ (∃ b ∈ s.bins.look 0, b.state ≠ .inDoubt)
        ∧ ∃ x ∈ s.aisles.look 6, x.crane.state = v ∧ x.crane.active = some j ∧ x.crane.phase = some p
          ∧ x.crane.suspension = none ∧ x.crane.stopWait = some 1 ∧ ∃ d ∈ x.crane.deadline, d.running = true ∧ d.left ≤ 1)
    ∧ (∃ x ∈ wing.aisles.look 6, x.crane.active = none ∧ x.crane.suspension = none)
    ∧ (∀ r ∈ [record .audit .picking true none, record .store .toSource true none, record .retrieve .toDest false none,
              record .transfer .toSource false none], ∀ o ∈ [none, some park],
        let s := wing.modCrane 6 fun c =>
          { c with state := .parking, suspension := some r, active := o, deadline := o.map fun _ => { left := 1, running := true } }
        s.mode = .inService ∧ s.tablesLawful = true ∧ s.admits 1 .crane 6 = true ∧ r.job.kind ≠ .park ∧ r.job.bin = some 0
        ∧ (s.bins.look 0).isSome = true
        ∧ ∃ x ∈ s.aisles.look 6, x.crane.state = .parking ∧ x.crane.suspension = some r ∧ x.crane.active = o
          ∧ ∀ j ∈ o, j.kind = .park ∧ j.bin = none)
    ∧ shown.inLane 0 = true ∧ park.bin = none
    ∧ ∃ b ∈ (wing.modBin 0 fun b => { b with state := .inDoubt }).bins.look 0, b.state = .inDoubt := by decide

/-- The wing with bin 0 expected, overdue, neither, or standing in a full lane of station 4. -/
def arriving (l : List Place) (t o : List Nat) : State :=
  wing.modStation 4 fun x =>
    { x with lane := l, overdue := o, inTransit := t.map fun n => { bin := n, deadline := { left := 1, running := true } } }

theorem witness_ArrivalsJoinTheLane :
    (∀ s ∈ [wing, shown], s.tablesLawful = true)
    ∧ (∀ e ∈ wing.stations, e.1 ≠ 1 → Place.bin 0 ∉ e.2.lane)
    ∧ (4 ≠ 1 ∧ (∃ y ∈ shown.stations.look 4, Place.bin 0 ∈ y.lane ∧ y.lane.head? = some (.bin 0))
      ∧ ∀ e ∈ shown.stations, e.1 ≠ 1 → e.1 ≠ 4 → Place.bin 0 ∉ e.2.lane)
    ∧ (∀ s ∈ [arriving [] [0] [], arriving [.tray 9] [] [0], arriving [.tray 9] [] [], arriving [.bin 0, .tray 9] [] []],
      s.admits 10 .station 4 = true ∧ (s.bins.look 0).isSome = true
      ∧ ∃ x ∈ s.stations.look 4, (x.lane.filter fun p => !decide (p = .bin 0)).length < x.loaded.depth)
    ∧ (∃ x ∈ (arriving [] [0] []).stations.look 4, x.lane.length < x.loaded.depth ∧ ∃ e ∈ x.inTransit, e.bin = 0)
    ∧ (∃ x ∈ (arriving [.tray 9] [] [0]).stations.look 4,
        x.lane.length < x.loaded.depth ∧ (∀ e ∈ x.inTransit, e.bin ≠ 0) ∧ 0 ∈ x.overdue)
    ∧ (∃ x ∈ (arriving [.tray 9] [] []).stations.look 4, x.lane.length < x.loaded.depth
        ∧ (∀ e ∈ x.inTransit, e.bin ≠ 0 ∧ e.bin ≠ 65534) ∧ 0 ∉ x.overdue ∧ 65534 ∉ x.overdue ∧ wing.bins.look 65534 = none)
    ∧ (∀ t ∈ [[0], []], ∀ o ∈ [[0], []], let s := arriving [.tray 9, .tray 9] t o
        s.admits 10 .station 4 = true ∧ (s.bins.look 0).isSome = true
        ∧ ∃ x ∈ s.stations.look 4, x.loaded.depth ≤ (x.lane.filter fun p => !decide (p = .bin 0)).length
          ∧ x.overdue = o ∧ x.inTransit.map (·.bin) = t) := by decide

theorem witness_ItemScansMoveTheItem :
    (∀ s ∈ [wing, halted wing, inZone wing .secured], s.admits 10 .station 4 = true ∧ (s.stations.look 4).isSome = true
      ∧ (s.items.look 1).isSome = true)
    ∧ ((halted wing).isHalted = true ∧ (inZone wing .secured).isHalted = false
      ∧ (inZone wing .secured).zoneClosed 8 = true ∧ wing.isHalted = false ∧ wing.zoneClosed 8 = false)
    ∧ (∃ x ∈ (wing.modStation 4 fun x => { x with loaded := { x.loaded with lending := false, returns := false } }).stations.look 4,
        x.loaded.lending = false ∧ x.loaded.returns = false)
    ∧ (∀ s ∈ [requested shown .presented, requested wing .awaitingBin,
              (requested shown .atStation).modBin 0 fun b => { b with state := .lockedOut }],
        s.isHalted = false ∧ s.zoneClosed 8 = false ∧ s.admits 10 .station 4 = true
        ∧ (∃ i ∈ s.items.look 1, i.state = .requested ∧ i.home = some 0)
        ∧ (s.requests.find? fun q => decide (q.item = 1) && decide (q.station = 4)).isSome = true)
    ∧ ((requested shown .presented).presentedBin 4 = some 0 ∧ (requested wing .awaitingBin).presentedBin 4 ≠ some 0
      ∧ (requested wing .awaitingBin).binState 0 ≠ some .lockedOut
      ∧ shown.laneOf 0 = some 4)
    ∧ (∃ i ∈ wing.items.look 1, i.state ≠ .requested ∧ i.state ≠ .returning)
    ∧ (wing.items.look 2 = none ∧ ∃ x ∈ wing.stations.look 4, x.loaded.lending = true ∧ x.loaded.returns = true)
    ∧ (let s := { requested shown .presented with requests := [{ request .presented with station := 3 }] }
       (∃ i ∈ s.items.look 1, i.state = .requested) ∧ ∀ q ∈ s.requests, q.item = 1 → q.station ≠ 4)
    ∧ (let s := shown.modItem 1 fun i => { i with state := .returning, target := some 0 }
       (∃ i ∈ s.items.look 1, i.state = .returning) ∧ ∃ x ∈ s.stations.look 4, ∀ e ∈ x.returns, e.item ≠ 1)
    ∧ (let s := (requested shown .atStation).modBin 0 fun b => { b with state := .lockedOut }
       s.binState 0 = some .lockedOut ∧ ∃ x ∈ s.stations.look 4, Place.bin 0 ∈ x.lane)
    ∧ (let s := arriving [.tray 9, .bin 0] [] []
       s.presentedBin 4 ≠ some 0 ∧ s.binState 0 ≠ some .lockedOut ∧ ∃ x ∈ s.stations.look 4, Place.bin 0 ∈ x.lane)
    ∧ ∀ s ∈ [shown, wing],
      let t := (s.modItem 4294967295 fun i => { i with state := .returning, target := some 0 }).modStation 4 fun x =>
        { x with returns := [{ item := 4294967295, target := 0 }] }
      t.admits 10 .station 4 = true ∧ t.isHalted = false ∧ t.zoneClosed 8 = false
      ∧ (∃ i ∈ t.items.look 4294967295, i.state = .returning ∧ i.target = some 0)
      ∧ ∃ x ∈ t.stations.look 4, x.loaded.returns = true ∧ (∃ e ∈ x.returns, e.item = 4294967295)
        ∧ (t.presentedBin 4 = some 0 ∨ t.presentedBin 4 ≠ some 0 ∧ Place.bin 0 ∉ x.lane) := by decide

/-- Item 1 HELD, and bin 0 as given. -/
def held (s : State) (v : ItemState) (f : Bin → Bin) : State :=
  (s.modItem 1 fun i => { i with state := v }).modBin 0 f

theorem witness_ReturnScanFindsATarget :
    (∀ v ∈ [ItemState.returning, .shelved, .requested, .picked, .held, .lent, .overflow], let s := held wing v id
      s.admits 10 .station 4 = true ∧ s.isHalted = false ∧ s.zoneClosed 8 = false
      ∧ (∃ i ∈ s.items.look 1, i.state = v) ∧ ∃ x ∈ s.stations.look 4, x.loaded.returns = true ∧ x.returns.length < 8)
    ∧ wing.items.look 2 = none
    ∧ (∃ x ∈ (wing.modStation 4 fun x => { x with returns := List.replicate 8 { item := 9, target := 0 } }).stations.look 4,
        8 ≤ x.returns.length)
    ∧ (∀ f ∈ [(id : Bin → Bin), fun b => { b with state := .homebound }, fun b => { b with state := .homebound, next := some 4 },
              fun b => { b with state := .homebound, next := some 1 }, fun b => { b with state := .inLane, trip := some 4 }],
        ∃ b ∈ (held wing .held f).bins.look 0, b.state ≠ .missing ∧ b.state ≠ .inDoubt ∧ b.state ≠ .lockedOut
          ∧ ∃ x ∈ wing.stations.look 4, b.trip = some 4 ∨ b.home.aisle ∈ x.loaded.linked)
    ∧ (∃ b ∈ (held wing .held fun b => { b with state := .missing }).bins.look 0, b.state = .missing)
    ∧ (held wing .held fun b => { b with state := .missing }).chooseTarget 4 28 2 (some 0) = some 16383
    ∧ (held wing .overflow id).chooseTarget 4 28 2 (some 0) = some 0
    ∧ wing.chooseTarget 4 250 7 none = none := by decide

theorem witness_BinDoneSendsTheBinHome :
    (∀ s ∈ [shown, inZone shown .secured, arriving [.tray 9] [] [], arriving [.tray 9, .bin 0] [] []],
      s.admits 10 .station 4 = true ∧ (s.stations.look 4).isSome = true)
    ∧ (inZone shown .secured).zoneClosed 8 = true ∧ shown.zoneClosed 8 = false
    ∧ (∃ x ∈ (arriving [.tray 9] [] []).stations.look 4, x.lane.head? = some (.tray 9) ∧ Place.bin 0 ∉ x.lane ∧ Place.tray 0 ∉ x.lane)
    ∧ (∃ x ∈ (arriving [.tray 9, .bin 0] [] []).stations.look 4,
        x.lane.head? ≠ some (.tray 0) ∧ x.lane.head? ≠ some (.bin 0) ∧ Place.bin 0 ∈ x.lane)
    ∧ (∃ x ∈ (arriving [.bin 0, .tray 9] [] []).stations.look 4,
        x.lane.head? ≠ some (.tray 9) ∧ Place.bin 9 ∉ x.lane ∧ Place.tray 9 ∈ x.lane)
    ∧ (∃ x ∈ shown.stations.look 4, x.lane.head? = some (.bin 0))
    ∧ (shown.modBin 0 fun b => { b with state := .lockedOut }).binState 0 = some .lockedOut
    ∧ (shown.modBin 0 fun b => { b with state := .inDoubt }).binState 0 = some .inDoubt
    ∧ (let s := shown.modAisle 6 fun x => { x with queue := [job .audit] }
       s.binState 0 = some .inLane ∧ s.named 0 = true)
    ∧ ∀ o ∈ [none, some 4, some 1], ∀ q ∈ [true, false],
      let s := (if q then requested shown .presented else shown).modBin 0 fun b => { b with next := o }
      s.named 0 = false ∧ s.admits 10 .station 4 = true
      ∧ (s.requests.any fun r => !decide (r.state = .picked) && decide (r.station = 4)
          && decide ((s.items.look r.item).bind (·.home) = some 0)) = q
      ∧ ∃ b ∈ s.bins.look 0, b.state = .inLane ∧ b.next = o := by decide

theorem witness_StationFaultAndConveyorOverdue :
    (∀ s ∈ [wing, faulty wing, halted wing], s.admits 10 .station 4 = true ∧ s.mode = .inService)
    ∧ (∀ d ∈ [(⟨1, false⟩ : Deadline), ⟨2, true⟩], let s := wing.modStation 4 fun x => { x with inTransit := [{ bin := 0, deadline := d }] }
        s.mode = .inService ∧ ∃ x ∈ s.stations.look 4, ∀ e ∈ x.inTransit, e.bin = 0 ∧ (e.deadline.running = false ∨ 1 < e.deadline.left))
    ∧ ∀ s ∈ [arriving [] [0] [], faulty (arriving [] [0] [])], s.mode = .inService
      ∧ ∃ x ∈ s.stations.look 4, ∃ e ∈ x.inTransit, e.bin = 0 ∧ e.deadline.running = true ∧ e.deadline.left ≤ 1 := by decide

theorem witness_ShuttersFollowTheirZone :
    (∀ v ∈ [ShutterState.opened, .waitingMouth], ∀ w ∈ [none, some 2, some 1],
      let s := shown.modShutter 8 fun h => { h with state := v, wait := w }
      s.admits 10 .station 4 = true ∧ s.mode = .inService ∧ (∃ x ∈ s.stations.look 4, x.loaded.shutter = some 8)
      ∧ s.boundStation 8 = some 4 ∧ s.presentedBin 4 = some 0 ∧ ∃ h ∈ s.shutters.look 8, h.state = v ∧ h.wait = w)
    ∧ (∃ x ∈ (wing.modStation 4 fun x => { x with loaded := { x.loaded with shutter := none } }).stations.look 4,
        x.loaded.shutter = none)
    ∧ wing.presentedBin 4 = none
    ∧ (∀ v ∈ [ZoneState.normal, .alert, .shutdown, .secured, .restoring], ∀ h ∈ [ShutterState.opened, .closed, .jammed],
      let s := zoned v h .idle
      s.admits 62 .shutter 8 = true ∧ s.mouthOccupiedAt 8 = false
      ∧ ∃ k ∈ s.shutters.look 8, k.state = h ∧ ∃ z ∈ s.zones.look k.zone, z.state = v)
    ∧ (wing.modStation 4 fun x => { x with mouthOccupied := true }).mouthOccupiedAt 8 = true := by decide

theorem witness_CausesBringTheZoneToAlert :
    (∀ v ∈ [ZoneState.normal, .alert, .shutdown],
      let s := if v = .shutdown then zoned v .opened .idle else (inZone wing v).modZone 8 fun x => { x with windowLeft := some 1 }
      s.securedLawful = true ∧ s.steady = true ∧ s.mode = .inService ∧ s.tablesLawful = true
      ∧ s.admits 63 .concentrator 16 = true ∧ (∃ c ∈ s.concentrators.look 16, c.supervision = some 100 ∧ 1 < 100 ∧ c.token = some 255 ∧ 255 ≤ 255)
      ∧ ∃ x ∈ s.zones.look 8, x.state = v)
    ∧ (∃ c ∈ (wing.modConcentrator 16 fun c => { c with supervision := none, token := none }).concentrators.look 16,
        c.supervision = none ∧ c.token = none)
    ∧ (∃ c ∈ (wing.modConcentrator 16 fun c => { c with supervision := some 1 }).concentrators.look 16, c.supervision = some 1)
    ∧ (∃ z ∈ ((inZone wing .alert).modZone 8 fun x => { x with windowLeft := some 2 }).zones.look 8, z.windowLeft = some 2)
    ∧ within 1 32 1 = true ∧ within 1 32 32 = true ∧ within 1 32 0 = false ∧ within 1 32 33 = false ∧ (0 + 255) % 256 = 255
    ∧ (∀ o ∈ [none, some Condition.pre, some .alarm, some .trouble],
        ∃ c ∈ (wing.modConcentrator 16 fun c => { c with detectors := o.toList.map fun v => (32, v) }).concentrators.look 16,
          c.detectors.look 32 = o)
    ∧ (∀ e ∈ wing.concentrators, e.2.zone = 8 → ∀ d ∈ e.2.detectors, d.2 ≠ .pre)
    ∧ (∃ z ∈ (inZone wing .alert).zones.look 8, z.windowLeft = none)
    ∧ (let s := (inZone wing .alert).modZone 8 fun x => { x with windowLeft := some 1 }
       ∃ z ∈ s.zones.look 8, z.state = .alert ∧ z.windowLeft = some 1 ∧ z.causes.isEmpty = true
         ∧ ∀ e ∈ s.concentrators, e.2.zone = 8 → e.2.health = .healthy)
    ∧ ∃ z ∈ (wing.modZone 8 fun x => { x with causes := { x.causes with silent := true } }).zones.look 8,
        ¬z.causes.isEmpty = true := by decide

end Sys2Proof.Tests
end

section
/-! The arithmetic of the Travel Calculator (chapter 3): the leg time, the estimates of Table 3.2 and the deadline. The
lemmas say once how each function of the calculator behaves; the two theorems at the end settle O15 and O16. -/
namespace Sys2Proof.Machine

/-! ### Ranges -/

theorem within_iff {lo hi n : Nat} : within lo hi n = true ↔ lo ≤ n ∧ n ≤ hi := by simp [within]

/-- The ranges of Table 1.1 on which the times depend. -/
theorem geometryInRange_bounds {g : Geometry} (h : geometryInRange g = true) :
    g.h0 ≤ 100 ∧ (1 ≤ g.h1 ∧ g.h1 ≤ 50) ∧ g.v0 ≤ 100 ∧ (1 ≤ g.v1 ∧ g.v1 ≤ 50)
    ∧ g.handling ≤ 200 ∧ g.margin ≤ 400 ∧ g.grace ≤ 3000 := by
  simp only [geometryInRange, Bool.and_eq_true, within_iff] at h
  omega

/-- A point of the largest aisle that Table 1.1 allows, bay 0 of the front port included. -/
def Point.InLargestAisle (p : Point) : Prop := p.bay ≤ 120 ∧ within 1 24 p.level = true

theorem frontPort_inLargestAisle : frontPort.InLargestAisle := by simp [Point.InLargestAisle, frontPort, within]

/-! ### Leg times (R37) -/

theorem distance_eq_natAbs (a b : Nat) : distance a b = ((a : Int) - (b : Int)).natAbs := by
  unfold distance
  split <;> omega

theorem distance_comm (a b : Nat) : distance a b = distance b a := by
  rw [distance_eq_natAbs, distance_eq_natAbs]
  omega

/-- Two numbers of one range lie no further apart than its ends. -/
theorem distance_le {a b lo hi : Nat} (ha : lo ≤ a ∧ a ≤ hi) (hb : lo ≤ b ∧ b ≤ hi) : distance a b ≤ hi - lo := by
  rw [distance_eq_natAbs]
  omega

theorem distance_pos {a b : Nat} (h : a ≠ b) : 0 < distance a b := by
  rw [distance_eq_natAbs]
  omega

/-- The time along one axis from `a` to `b`, of which R37 gives two: none without a change, else `t₀` and `t₁` for each
bay or level passed. -/
def axisTime (t₀ t₁ a b : Nat) : Nat := if a = b then 0 else t₀ + t₁ * distance a b

theorem legH_eq_axisTime (g : Geometry) (p q : Point) : legH g p q = axisTime g.h0 g.h1 p.bay q.bay := rfl

theorem legV_eq_axisTime (g : Geometry) (p q : Point) : legV g p q = axisTime g.v0 g.v1 p.level q.level := rfl

theorem axisTime_comm (t₀ t₁ a b : Nat) : axisTime t₀ t₁ a b = axisTime t₀ t₁ b a := by
  simp only [axisTime, distance_comm a b, eq_comm (a := a)]

theorem axisTime_le {t₀ t₁ a b m₀ m₁ d : Nat} (h₀ : t₀ ≤ m₀) (h₁ : t₁ ≤ m₁) (hd : distance a b ≤ d) :
    axisTime t₀ t₁ a b ≤ m₀ + m₁ * d := by
  have hm : t₁ * distance a b ≤ m₁ * d := Nat.mul_le_mul h₁ hd
  unfold axisTime
  split <;> omega

/-- With a time for each bay or level, only a move that stays in place takes none. -/
theorem axisTime_eq_zero_iff {t₀ t₁ a b : Nat} (h₁ : 1 ≤ t₁) : axisTime t₀ t₁ a b = 0 ↔ a = b := by
  by_cases h : a = b
  · simp [axisTime, h]
  · have hm : 0 < t₁ * distance a b := Nat.mul_pos h₁ (distance_pos h)
    rw [axisTime, if_neg h]
    omega

theorem leg_comm (g : Geometry) (p q : Point) : leg g p q = leg g q p := by
  simp only [leg, legH_eq_axisTime, legV_eq_axisTime, axisTime_comm _ _ p.bay, axisTime_comm _ _ p.level]

@[simp] theorem leg_self (g : Geometry) (p : Point) : leg g p p = 0 := by simp [leg, legH, legV]

section
variable {g : Geometry} {p q : Point} (hg : geometryInRange g = true)
include hg

theorem legH_le (hp : p.InLargestAisle) (hq : q.InLargestAisle) : legH g p q ≤ 6100 := by
  obtain ⟨hh0, ⟨-, hh1⟩, -⟩ := geometryInRange_bounds hg
  exact axisTime_le hh0 hh1 (distance_le ⟨Nat.zero_le _, hp.1⟩ ⟨Nat.zero_le _, hq.1⟩)

theorem legV_le (hp : p.InLargestAisle) (hq : q.InLargestAisle) : legV g p q ≤ 1250 := by
  obtain ⟨-, -, hv0, ⟨-, hv1⟩, -⟩ := geometryInRange_bounds hg
  exact axisTime_le hv0 hv1 (distance_le (within_iff.1 hp.2) (within_iff.1 hq.2))

theorem leg_le (hp : p.InLargestAisle) (hq : q.InLargestAisle) : leg g p q ≤ 6100 :=
  Nat.max_le.2 ⟨legH_le hg hp hq, (legV_le hg hp hq).trans (by decide)⟩

theorem leg_eq_zero_iff : leg g p q = 0 ↔ p = q := by
  obtain ⟨-, ⟨hh1, -⟩, -, ⟨hv1, -⟩, -⟩ := geometryInRange_bounds hg
  rw [leg, Nat.max_eq_zero_iff, legH_eq_axisTime, legV_eq_axisTime, axisTime_eq_zero_iff hh1, axisTime_eq_zero_iff hv1,
    Point.mk.injEq]

end

/-! ### Estimates (Table 3.2, R41) -/

theorem Job.sourcePoint_of_slot {j : Job} {v : Slot} (h : j.source = some (.slot v)) : j.sourcePoint = v.point := by
  simp [Job.sourcePoint, h, Locus.point]

theorem Job.destinationPoint_of_slot {j : Job} {v : Slot} (h : j.destination = .slot v) :
    j.destinationPoint = v.point := by
  simp [Job.destinationPoint, h, Locus.point]

/-- A source is a slot or the front port, and a job without one stands at the front port. -/
theorem Job.sourcePoint_inLargestAisle {j : Job}
    (h : ∀ v, j.source = some (.slot v) → v.point.InLargestAisle) : j.sourcePoint.InLargestAisle := by
  match hs : j.source with
  | some (.slot v) => exact Job.sourcePoint_of_slot hs ▸ h v hs
  | some .frontPort | none => simpa [Job.sourcePoint, hs, Locus.point] using frontPort_inLargestAisle

theorem Job.destinationPoint_inLargestAisle {j : Job}
    (h : ∀ v, j.destination = .slot v → v.point.InLargestAisle) : j.destinationPoint.InLargestAisle := by
  match hd : j.destination with
  | .slot v => exact Job.destinationPoint_of_slot hd ▸ h v hd
  | .frontPort => simpa [Job.destinationPoint, hd, Locus.point] using frontPort_inLargestAisle

section
variable (g : Geometry) (c : Nat) {j : Job} (p : Point)

theorem estimate_of_retrieve (h : j.kind = .retrieve) :
    estimate g c j p
      = leg g p j.sourcePoint + g.handling + leg g j.sourcePoint frontPort + g.handling + c := by
  rw [estimate, h]

theorem estimate_of_store (h : j.kind = .store) :
    estimate g c j p
      = leg g p frontPort + g.handling + leg g frontPort j.destinationPoint + g.handling + c := by
  rw [estimate, h]

theorem estimate_of_transfer (h : j.kind = .transfer) :
    estimate g c j p
      = leg g p j.sourcePoint + g.handling + leg g j.sourcePoint j.destinationPoint + g.handling := by
  rw [estimate, h]

theorem estimate_of_audit (h : j.kind = .audit) :
    estimate g c j p = leg g p j.destinationPoint + g.handling := by
  rw [estimate, h]

theorem estimate_of_park (h : j.kind = .park) : estimate g c j p = leg g p frontPort := by
  rw [estimate, h]

/-- A RETRIEVE resumed at the front port has no way left to go. -/
theorem resumeEstimate_of_retrieve (h : j.kind = .retrieve) : resumeEstimate g c j = g.handling + c := by
  simp [resumeEstimate, h]

theorem resumeEstimate_of_store_or_transfer (h : j.kind = .store ∨ j.kind = .transfer) :
    resumeEstimate g c j = leg g frontPort j.destinationPoint + g.handling := by
  obtain h | h := h <;> rw [resumeEstimate, h]

/-- Every kind but PARK handles a bin at least once. -/
theorem handling_le_estimate (h : j.kind ≠ .park) : g.handling ≤ estimate g c j p := by
  cases hk : j.kind with
  | retrieve => rw [estimate_of_retrieve g c p hk]; omega
  | store => rw [estimate_of_store g c p hk]; omega
  | transfer => rw [estimate_of_transfer g c p hk]; omega
  | audit => rw [estimate_of_audit g c p hk]; omega
  | park => exact absurd hk h

end

/-- The largest estimate of each kind under Tables 1.1 and 5.1: a leg of 6,100, a handling time of 200 and a conveyor
time of 600 wherever Table 3.2 counts one. -/
def largestEstimate : JobKind → Nat
  | .retrieve | .store => 13200
  | .transfer => 12600
  | .audit => 6300
  | .park => 6100

theorem estimate_le_largestEstimate {g : Geometry} {c : Nat} {j : Job} {p : Point} (hg : geometryInRange g = true)
    (hc : c ≤ 600) (hp : p.InLargestAisle) (hs : j.sourcePoint.InLargestAisle)
    (hd : j.destinationPoint.InLargestAisle) : estimate g c j p ≤ largestEstimate j.kind := by
  obtain ⟨-, -, -, -, hk, -, -⟩ := geometryInRange_bounds hg
  have hf := frontPort_inLargestAisle
  cases h : j.kind with
  | retrieve =>
    have toSource := leg_le hg hp hs
    have toPort := leg_le hg hs hf
    rw [estimate_of_retrieve g c p h, largestEstimate]
    omega
  | store =>
    have toPort := leg_le hg hp hf
    have toSlot := leg_le hg hf hd
    rw [estimate_of_store g c p h, largestEstimate]
    omega
  | transfer =>
    have toSource := leg_le hg hp hs
    have toSlot := leg_le hg hs hd
    rw [estimate_of_transfer g c p h, largestEstimate]
    omega
  | audit =>
    have toSlot := leg_le hg hp hd
    rw [estimate_of_audit g c p h, largestEstimate]
    omega
  | park =>
    rw [estimate_of_park g c p h]
    exact leg_le hg hp hf

theorem State.conveyorOf_of_look {s : State} {j : Job} {st : Nat} {x : Station} (hst : j.station = some st)
    (hx : s.stations.look st = some x) : s.conveyorOf j = x.loaded.conveyor := by
  simp [State.conveyorOf, hst, hx]

/-! ### Deadlines (R42) -/

/-- The margin is E × M / 100 rounded up: its hundredfold is the least multiple of 100 from E × M on. -/
theorem marginOf_rounds_up (e m : Nat) : e * m ≤ 100 * marginOf e m ∧ 100 * marginOf e m < e * m + 100 := by
  unfold marginOf
  omega

theorem marginOf_of_whole {e m : Nat} (h : e * m % 100 = 0) : marginOf e m = e * m / 100 := by
  unfold marginOf
  omega

@[simp] theorem marginOf_zero_percent (e : Nat) : marginOf e 0 = 0 := by simp [marginOf]

@[simp] theorem deadlineFor_zero (g : Geometry) : deadlineFor g 0 = 1 := rfl

theorem deadlineFor_of_pos (g : Geometry) {e : Nat} (h : 0 < e) :
    deadlineFor g e = min (e + marginOf e g.margin + g.grace) 65535 := by
  rw [deadlineFor, if_neg h.ne', Config.maxDeadline]

theorem deadlineFor_bounds (g : Geometry) (e : Nat) : 1 ≤ deadlineFor g e ∧ deadlineFor g e ≤ 65535 := by
  obtain rfl | h := Nat.eq_zero_or_pos e
  · simp
  · rw [deadlineFor_of_pos g h]
    omega

theorem le_deadlineFor (g : Geometry) {e : Nat} (h : e ≤ 65535) : e ≤ deadlineFor g e := by
  obtain rfl | h := Nat.eq_zero_or_pos e
  · exact Nat.zero_le _
  · rw [deadlineFor_of_pos g h]
    omega

/-- Under Table 1.1 neither the product of R42 nor its sum needs more than the largest estimate allows. -/
theorem margin_product_and_sum_le {g : Geometry} {e : Nat} (hg : geometryInRange g = true) (he : e ≤ 13200) :
    e * g.margin ≤ 5280000 ∧ e + marginOf e g.margin + g.grace ≤ 69000 := by
  obtain ⟨-, -, -, -, -, hm, hgrace⟩ := geometryInRange_bounds hg
  have hprod : e * g.margin ≤ 13200 * 400 := Nat.mul_le_mul he hm
  have hround := marginOf_rounds_up e g.margin
  omega

/-! ### The obligations -/

/-- Settles O15 (R37). -/
theorem legTimeIsTheLargerOfTwo : Obligations.LegTimeIsTheLargerOfTwo := by
  intro g p q
  refine ⟨?larger, leg_comm g p q, leg_self g p, ?bounds⟩
  case larger => rw [leg, legH, legV, distance_eq_natAbs, distance_eq_natAbs]
  case bounds =>
    intro hg hpBay hqBay hpLevel hqLevel
    have hp : p.InLargestAisle := ⟨hpBay, hpLevel⟩
    have hq : q.InLargestAisle := ⟨hqBay, hqLevel⟩
    exact ⟨legH_le hg hp hq, legV_le hg hp hq, leg_le hg hp hq⟩

/-- Settles O16 (R40 to R42): the deadline from the rounding of its margin, the estimates kind by kind from Table 3.2. -/
theorem deadlineFollowsFromEstimate : Obligations.DeadlineFollowsFromEstimate := by
  intro g e
  obtain ⟨hlow, hhigh⟩ := deadlineFor_bounds g e
  refine ⟨?zero, ?positive, hlow, hhigh, fun he => le_deadlineFor g (he.trans (by decide)), fun c j p s => ?_⟩
  case zero => rintro rfl; exact deadlineFor_zero g
  case positive =>
    intro he
    obtain ⟨hge, hlt⟩ := marginOf_rounds_up e g.margin
    refine ⟨marginOf e g.margin, hge, hlt, marginOf_of_whole, fun hm => by rw [hm, marginOf_zero_percent],
      fun hover => ?_, fun hfits => ?_, margin_product_and_sum_le⟩
    · rw [deadlineFor_of_pos g he, min_eq_right hover.le]
    · rw [deadlineFor_of_pos g he, min_eq_left hfits]
  refine ⟨?retrieve, ?store, ?transfer, ?audit, estimate_of_park g c p, resumeEstimate_of_retrieve g c, ?resumed,
    fun _ _ => State.conveyorOf_of_look, handling_le_estimate g c p, ?bounds⟩
  case retrieve =>
    intro hk v hv
    rw [estimate_of_retrieve g c p hk, Job.sourcePoint_of_slot hv]; rfl
  case store =>
    intro hk v hv
    rw [estimate_of_store g c p hk, Job.destinationPoint_of_slot hv]; rfl
  case transfer =>
    intro hk v w hv hw
    rw [estimate_of_transfer g c p hk, Job.sourcePoint_of_slot hv, Job.destinationPoint_of_slot hw]; rfl
  case audit =>
    intro hk v hv
    rw [estimate_of_audit g c p hk, Job.destinationPoint_of_slot hv]; rfl
  case resumed =>
    intro hk v hv
    rw [resumeEstimate_of_store_or_transfer g c hk, Job.destinationPoint_of_slot hv]; rfl
  case bounds =>
    intro hg hc hBay hLevel hsource hdestination
    refine ⟨estimate_le_largestEstimate hg hc ⟨hBay, hLevel⟩ (Job.sourcePoint_inLargestAisle hsource)
      (Job.destinationPoint_inLargestAisle hdestination), fun hk => ?_⟩
    rw [estimate_of_park g c p hk]
    exact leg_eq_zero_iff hg

end Sys2Proof.Machine
end

section
/-! Terminal traffic (R103): the zone that a station's traffic is judged against, and what PASS_DOWN and TERMINAL_KEY do by
it. The theorem at the end settles O29. -/
namespace Sys2Proof.Machine

variable {s : State} {st src : Nat} {l : List Byte} {x : Station} {z : Zone}

/-! ### The zone of a station -/

theorem ZoneState.isOpen_iff {v : ZoneState} : v.isOpen = true ↔ v = .normal ∨ v = .alert := by
  cases v <;> simp [ZoneState.isOpen]

theorem ZoneState.isOpen_eq_false_iff {v : ZoneState} :
    v.isOpen = false ↔ v = .shutdown ∨ v = .secured ∨ v = .restoring := by
  cases v <;> simp [ZoneState.isOpen]

theorem State.stationOpen_of_look_none (hx : s.stations.look st = none) : s.stationOpen st = false := by
  simp [State.stationOpen, State.stationZone, hx]

/-- With both records loaded, a station is open as the state of its own zone is (R139). -/
theorem State.stationOpen_of_look (hx : s.stations.look st = some x) (hz : s.zones.look x.loaded.zone = some z) :
    s.stationOpen st = z.state.isOpen := by
  simp [State.stationOpen, State.stationZone, State.zoneOpen, State.zoneState, hx, hz]

theorem State.sendStation_of_look (hx : s.stations.look st = some x) (t : FieldTelegram) :
    s.sendStation st t =
      { s with link := { s.link with field := s.link.field ++ [fieldFrame x.loaded.address t] } } := by
  simp [State.sendStation, State.send, Link.sendTo, hx]

/-! ### PASS_DOWN -/

theorem exec_passDown (st : Nat) (l : List Byte) (s : State) : exec (.passDown st l) s = execPassDown st l s := rfl

theorem exec_passDown_of_commissioning (hm : s.mode = .commissioning) : exec (.passDown st l) s = .next s := by
  simp [exec_passDown, execPassDown, State.isInService, hm]

theorem exec_passDown_of_closed (ho : s.stationOpen st = false) : exec (.passDown st l) s = .next s := by
  simp [exec_passDown, execPassDown, ho]

theorem exec_passDown_of_open (hm : s.mode = .inService) (ho : s.stationOpen st = true) :
    exec (.passDown st l) s = .next (s.sendStation st (.terminalText l)) := by
  simp [exec_passDown, execPassDown, State.isInService, hm, ho]

/-! ### TERMINAL_KEY -/

theorem exec_terminalKey (src : Nat) (l : List Byte) (s : State) :
    exec (.terminalKey src l) s = execTerminalKey src l s := rfl

/-- R193: no field telegram is taken in COMMISSIONING, whatever its source. -/
theorem State.admission_of_commissioning (hm : s.mode = .commissioning) (src k : Nat) (r : Role)
    (take : State → Nat → State) : s.admission src k r take = s := by
  unfold State.admission
  split
  · rfl
  · rw [if_pos hm]

theorem exec_terminalKey_of_commissioning (hm : s.mode = .commissioning) : exec (.terminalKey src l) s = .next s := by
  rw [exec_terminalKey, execTerminalKey, State.admission_of_commissioning hm]

theorem exec_terminalKey_of_admits (ha : s.admits src .station st = true) :
    exec (.terminalKey src l) s = .next (s.takeTerminalKey l st) := by
  rw [exec_terminalKey, execTerminalKey, admit_of_admits ha]

theorem State.takeTerminalKey_of_open (ho : s.stationOpen st = true) : s.takeTerminalKey l st = s.passUp st l := by
  rw [State.takeTerminalKey, if_pos ho]

theorem State.takeTerminalKey_of_closed (ho : s.stationOpen st = false) : s.takeTerminalKey l st = s := by
  simp [State.takeTerminalKey, ho]

/-! ### The obligation -/

/-- Settles O29 (R103). -/
theorem terminalTextPassesInOpenZones : Obligations.TerminalTextPassesInOpenZones := by
  intro st src l s
  refine ⟨fun hm => ⟨exec_passDown_of_commissioning hm, exec_terminalKey_of_commissioning hm⟩,
    fun hnone => exec_passDown_of_closed (State.stationOpen_of_look_none hnone),
    fun x z hm hx hz => ⟨fun hstate => ?opened, fun hstate => ?closed⟩⟩
  case opened =>
    have ho : s.stationOpen st = true := by
      rw [State.stationOpen_of_look hx hz]; exact ZoneState.isOpen_iff.mpr hstate
    refine ⟨?down, fun ha => ?up⟩
    case down => rw [exec_passDown_of_open hm ho, State.sendStation_of_look hx]
    case up => rw [exec_terminalKey_of_admits ha, State.takeTerminalKey_of_open ho]; rfl
  case closed =>
    have ho : s.stationOpen st = false := by
      rw [State.stationOpen_of_look hx hz]; exact ZoneState.isOpen_eq_false_iff.mpr hstate
    refine ⟨exec_passDown_of_closed ho, fun ha => ?_⟩
    rw [exec_terminalKey_of_admits ha, State.takeTerminalKey_of_closed ho]

end Sys2Proof.Machine
end

section
/-! The arbiter of the circulation link (R191): what it sends from each class of its queues, and that with no frame waiting
in the port SEND_NEXT_FRAME does nothing more. The theorem at the end settles O21. -/
namespace Sys2Proof.Machine

/-! ### The arbiter's choice -/

section
variable {l : Link}

theorem Link.arbitrate_of_reply {r : Reply} {rest : List Reply} (hr : l.replies = r :: rest) :
    l.arbitrate = { l with replies := rest, sent := l.sent ++ [replyFrame r] } := by
  simp [Link.arbitrate, Link.transmit, hr]

theorem Link.arbitrate_of_urgent {u : Report} {rest : List Report} (hr : l.replies = []) (hu : l.urgent = u :: rest) :
    l.arbitrate =
      { l with urgent := rest, urgentOverrun := false, sent := l.sent ++ [reportFrame u l.urgentOverrun] } := by
  simp [Link.arbitrate, Link.transmit, hr, hu]

theorem Link.arbitrate_of_routineReport {r : Report} {rest : List RoutineEntry} (hr : l.replies = [])
    (hu : l.urgent = []) (hq : l.routine = .report r :: rest) :
    l.arbitrate =
      { l with routine := rest, routineOverrun := false, sent := l.sent ++ [reportFrame r l.routineOverrun] } := by
  simp [Link.arbitrate, Link.transmit, RoutineEntry.frame, RoutineEntry.markAfter, hr, hu, hq]

/-- A PASS_UP message has no overrun mark to carry, so the routine class keeps its own (R190). -/
theorem Link.arbitrate_of_passUp {st : Nat} {data : List Byte} {rest : List RoutineEntry} (hr : l.replies = [])
    (hu : l.urgent = []) (hq : l.routine = .passUp st data :: rest) :
    l.arbitrate = { l with routine := rest, sent := l.sent ++ [passUpFrame st data] } := by
  simp [Link.arbitrate, Link.transmit, RoutineEntry.frame, RoutineEntry.markAfter, hr, hu, hq]

theorem Link.arbitrate_of_empty (hr : l.replies = []) (hu : l.urgent = []) (hq : l.routine = []) : l.arbitrate = l := by
  simp [Link.arbitrate, hr, hu, hq]

@[simp] theorem Link.arbitrate_waiting (l : Link) : l.arbitrate.waiting = l.waiting := by
  unfold Link.arbitrate
  split
  case h_1 => rfl
  case h_2 =>
    split
    case h_1 => rfl
    case h_2 => split <;> rfl

end

/-! ### SEND_NEXT_FRAME -/

theorem State.drainPort_of_waiting_nil {s : State} (hw : s.link.waiting = []) : s.drainPort = s := by
  have hlink : { s.link with waiting := [] } = s.link := by rw [← hw]
  rw [State.drainPort, hw, drainOrders, hlink]; rfl

theorem exec_sendNextFrame (s : State) : exec .sendNextFrame s = execSendNextFrame s := rfl

theorem exec_sendNextFrame_of_waiting_nil {s : State} (hw : s.link.waiting = []) :
    exec .sendNextFrame s = .next (s.setLink s.link.arbitrate) := by
  rw [exec_sendNextFrame, execSendNextFrame, State.drainPort_of_waiting_nil (by simpa using hw)]

/-! ### The obligation -/

/-- Settles O21 (R191), by the queue from which the arbiter takes. -/
theorem arbiterSendsOldestReplyFirst : Obligations.ArbiterSendsOldestReplyFirst := by
  intro s hw
  refine ⟨s.setLink s.link.arbitrate, exec_sendNextFrame_of_waiting_nil hw, rfl, ?_⟩
  rw [State.setLink_link]
  split
  next hr => exact Link.arbitrate_of_reply hr
  next hr hu => exact Link.arbitrate_of_urgent hr hu
  next hr hu hq => exact Link.arbitrate_of_routineReport hr hu hq
  next hr hu hq => exact Link.arbitrate_of_passUp hr hu hq
  next hr hu hq => exact Link.arbitrate_of_empty hr hu hq

end Sys2Proof.Machine
end

section
/-! What the taking of one command can do, said once: power-on, a restart, a frame sent, an ORDER frame at the port, or
an event of the wing, which is a `Flow`. The laws of the Fault Unit, of the lists and of the tables, and what a halt, the
mode and the loaded tables stand against, follow from it. The theorems at the end settle O5, O6, O9, O13 and O14. -/
namespace Sys2Proof.Machine

variable {s t : State} {c : Instr}

/-! ### The commands, by what they can do -/

/-- What a command does to the state, as far as the laws of the whole wing ask. -/
inductive Taken : Instr → State → State → Prop
  | powerOn (panel key : Bool) (s : State) : Taken (.powerOn panel key) s (s.poweredOn panel key)
  | resetLine (s : State) : Taken .resetLineAsserted s (s.restart .resetLine).drainPort
  | restart (s : State) : Taken .restartTakesEffect s (s.restart .restartOrder).drainPort
  | sent (s : State) : Taken .sendNextFrame s (s.setLink s.link.arbitrate).drainPort
  | order (c : Instr) (s : State) : Taken c s (s.atPort c (runOrder c))
  | panel {c : Instr} {s t : State} (asserted : Bool) (h : Flow (s.setFirePanel asserted) t) : Taken c s t
  | event {c : Instr} {s t : State} (h : Flow s t) : Taken c s t

theorem Flow.panelAlarm (h : Flow s t) : Flow s t.panelAlarm :=
  ((h.report _ _ _).foldl _ _ fun _ z h => h.enterShutdown z).settleWing

theorem endHold_returns {st : Nat} {x y : Station} (hx : s.stations.look st = some x)
    (hy : (s.endHold st).stations.look st = some y) : y.returns.length = x.returns.length := by
  rw [State.endHold, State.modStation_stations, Table.look_adjust_same, hx] at hy
  obtain rfl := Option.some.inj hy
  rfl

/-- A field telegram, a line, terminal text or an expiry is an event of the wing. -/
theorem taken_of_exec (h : exec c s = .next t) : Taken c s t := by
  have r := Flow.refl s
  cases c with
  | powerOn panel key => obtain rfl := Host.Outcome.next.inj h; exact .powerOn panel key s
  | resetLineAsserted => obtain rfl := Host.Outcome.next.inj h; exact .resetLine s
  | sendNextFrame => obtain rfl := Host.Outcome.next.inj h; exact .sent s
  | restartTakesEffect =>
    obtain rfl := Host.Outcome.next.inj h
    split
    · exact .restart s
    · exact .event r
  | firePanelAsserted =>
    obtain rfl := Host.Outcome.next.inj h
    refine .panel true ?_
    split
    · exact (Flow.refl _).panelAlarm
    · exact .refl _
  | firePanelNegated =>
    obtain rfl := Host.Outcome.next.inj h
    refine .panel false ?_
    split
    · exact (Flow.refl _).report _ _ _
    · exact .refl _
  | badFrame => obtain rfl := Host.Outcome.next.inj h; exact .event r
  | unadmittedFieldTelegram =>
    obtain rfl := Host.Outcome.next.inj h
    refine .event ?_
    split
    · exact r
    · exact .ite r (r.fieldProtocol _ _)
  | passDown st l => obtain rfl := Host.Outcome.next.inj h; exact .event (.ite (r.sendStation _ _) r)
  | phase src p b l => obtain rfl := Host.Outcome.next.inj h; exact .event (r.admission _ _ _ _ fun a => r.takePhase p b l a)
  | done src => obtain rfl := Host.Outcome.next.inj h; exact .event (r.admission _ _ _ _ fun a => r.takeDone a)
  | pickFailed src p => obtain rfl := Host.Outcome.next.inj h; exact .event (r.admission _ _ _ _ fun a => r.takePickFailed p a)
  | auditResult src q => obtain rfl := Host.Outcome.next.inj h; exact .event (r.admission _ _ _ _ fun a => r.takeAuditResult q a)
  | stopped src p l f => obtain rfl := Host.Outcome.next.inj h; exact .event (r.admission _ _ _ _ fun a => r.takeStopped p l f a)
  | parked src q => obtain rfl := Host.Outcome.next.inj h; exact .event (r.admission _ _ _ _ fun a => r.takeParked q a)
  | craneFault src => obtain rfl := Host.Outcome.next.inj h; exact .event (r.admission _ _ _ _ fun a => r.takeCraneFault a)
  | binArrived src n => obtain rfl := Host.Outcome.next.inj h; exact .event (r.admission _ _ _ _ fun st => r.takeArrival n st)
  | itemOutScan src i =>
    obtain rfl := Host.Outcome.next.inj h
    exact .event (r.admission _ _ _ _ fun st => r.takeScan _ _ st fun _ _ => (r.endHold st).scanOut i st _)
  | itemInScan src i =>
    obtain rfl := Host.Outcome.next.inj h
    exact .event (r.admission _ _ _ _ fun st => r.takeScan _ _ st fun _ _ => (r.endHold st).scanIn i st _)
  | returnScan src i =>
    obtain rfl := Host.Outcome.next.inj h
    refine .event (r.admission _ _ _ _ fun st => r.takeScan _ _ st fun x hx => ?_)
    have hy : (s.endHold st).stations.look st = some { x with hold := false } := by
      simp [State.endHold, hx]
    exact (r.endHold st).scanReturn i st hy (endHold_returns hx hy)
  | binDone src n =>
    obtain rfl := Host.Outcome.next.inj h
    exact .event (r.admission _ _ _ _ fun st => r.takeScan _ _ st fun _ _ => (r.endHold st).scanDone n st _)
  | mouthOccupied src => obtain rfl := Host.Outcome.next.inj h; exact .event (r.admission _ _ _ _ fun st => r.setMouth st true)
  | mouthClear src => obtain rfl := Host.Outcome.next.inj h; exact .event (r.admission _ _ _ _ fun st => r.takeMouthClear st)
  | stationFault src => obtain rfl := Host.Outcome.next.inj h; exact .event (r.admission _ _ _ _ fun st => r.takeStationFault st)
  | terminalKey src l => obtain rfl := Host.Outcome.next.inj h; exact .event (r.admission _ _ _ _ fun st => r.takeTerminalKey l st)
  | closed src => obtain rfl := Host.Outcome.next.inj h; exact .event (r.admission _ _ _ _ fun n => r.takeClosed n)
  | opened src => obtain rfl := Host.Outcome.next.inj h; exact .event (r.admission _ _ _ _ fun n => r.takeOpened n)
  | jammed src => obtain rfl := Host.Outcome.next.inj h; exact .event (r.admission _ _ _ _ fun n => r.takeJammed n)
  | beat src k => obtain rfl := Host.Outcome.next.inj h; exact .event (r.admission _ _ _ _ fun n => r.takeBeat k n)
  | prealarm src d => obtain rfl := Host.Outcome.next.inj h; exact .event (r.admission _ _ _ _ fun n => r.takePrealarm d n)
  | alarm src d => obtain rfl := Host.Outcome.next.inj h; exact .event (r.admission _ _ _ _ fun n => r.takeAlarm d n)
  | clear src d => obtain rfl := Host.Outcome.next.inj h; exact .event (r.admission _ _ _ _ fun n => r.takeClear d n)
  | trouble src d => obtain rfl := Host.Outcome.next.inj h; exact .event (r.admission _ _ _ _ fun n => r.takeTrouble d n)
  | craneDeadlineExpiry a => obtain rfl := Host.Outcome.next.inj h; exact .event (r.whileInService _ (r.craneDeadlineExpires a))
  | inTransitDeadlineExpiry st n => obtain rfl := Host.Outcome.next.inj h; exact .event (r.whileInService _ (r.inTransitExpires st n))
  | confirmWindowExpiry k => obtain rfl := Host.Outcome.next.inj h; exact .event (r.whileInService _ (r.confirmExpires k))
  | alertWindowExpiry z => obtain rfl := Host.Outcome.next.inj h; exact .event (r.whileInService _ (r.alertExpires z))
  | supervisionExpiry n => obtain rfl := Host.Outcome.next.inj h; exact .event (r.whileInService _ (r.supervisionExpires n))
  | shutterWaitExpiry n => obtain rfl := Host.Outcome.next.inj h; exact .event (r.whileInService _ (r.shutterWaitExpires n))
  | stopWaitExpiry a => obtain rfl := Host.Outcome.next.inj h; exact .event (r.whileInService _ (r.stopWaitExpires a))
  | _ => obtain rfl := Host.Outcome.next.inj h; exact .order _ s

/-! ### The frames that waited in the port -/

/-- What the taking of each frame that waited keeps, and the list of the waiting frames does not touch, the port keeps. -/
theorem drainOrders_inv (I : State → Prop) (hlink : ∀ u k, I u → I (u.setLink { u.link with waiting := k }))
    (l : List Instr) (hrun : ∀ i ∈ l, ∀ u, u.portShut = false → I u → I (runOrder i u)) (h : I s) :
    I (drainOrders l s) := by
  induction l generalizing s with
  | nil => exact h
  | cons i l ih =>
    unfold drainOrders
    split
    · exact hlink _ _ h
    next hs =>
      exact ih (fun j hj => hrun j (List.mem_cons_of_mem _ hj)) (hrun i List.mem_cons_self s (by simpa using hs) h)

theorem drainPort_inv (I : State → Prop) (hlink : ∀ u k, I u → I (u.setLink { u.link with waiting := k }))
    (hrun : ∀ i ∈ s.link.waiting, ∀ u, u.portShut = false → I u → I (runOrder i u)) (h : I s) : I s.drainPort :=
  drainOrders_inv I hlink _ hrun (hlink s [] h)

theorem atPort_inv (I : State → Prop) (hlink : ∀ u k, I u → I (u.setLink { u.link with waiting := k })) (i : Instr)
    (hrun : ∀ u, u.portShut = false → I u → I (runOrder i u)) (h : I s) : I (s.atPort i (runOrder i)) := by
  unfold State.atPort
  split
  · exact hlink _ _ h
  next hp =>
    rw [Bool.or_eq_true, not_or] at hp
    exact hrun s (by simpa using hp.1) h

/-! ### The laws that every step keeps -/

theorem Keeps.atPort (i : Instr) (s : State) : Keeps s (s.atPort i (runOrder i)) := by
  unfold State.atPort
  split
  · exact (Keeps.refl s).setLink _ rfl rfl
  · exact keeps_runOrder i s

theorem Link.arbitrate_reports_le (l : Link) :
    l.arbitrate.urgent.length ≤ l.urgent.length ∧ l.arbitrate.routine.length ≤ l.routine.length
      ∧ l.arbitrate.replies.length ≤ l.replies.length := by
  unfold Link.arbitrate Link.transmit
  split
  next h => simp [h]
  next h =>
    split
    next k => simp [h, k]
    next k => split <;> simp_all

theorem Keeps.arbitrate (s : State) : Keeps s (s.setLink s.link.arbitrate) :=
  { Keeps.refl s with
    urgent := fun h => (Link.arbitrate_reports_le s.link).1.trans h
    routine := fun h => (Link.arbitrate_reports_le s.link).2.1.trans h }

theorem Keeps.poweredOn (panel key : Bool) (s : State) : Keeps s (s.poweredOn panel key) := by
  exact ⟨fun _ => rfl, fun _ => rfl, fun _ => Nat.zero_le _, fun _ => Nat.zero_le _, fun _ => rfl,
    fun _ => Nat.zero_le _, fun _ => rfl, fun _ => rfl, fun _ => rfl, fun _ => rfl⟩

/-- The laws of the Fault Unit, the lists, the queues, the tables and the tags, over one command. -/
theorem Taken.keeps (h : Taken c s t) : Keeps s t := by
  cases h with
  | powerOn panel key => exact .poweredOn panel key s
  | resetLine => exact ((Keeps.refl s).restart _).drainPort
  | restart => exact ((Keeps.refl s).restart _).drainPort
  | sent => exact (Keeps.arbitrate s).drainPort
  | order => exact .atPort c s
  | panel v h => exact ((Keeps.refl s).setFirePanel v).trans h.keeps
  | event h => exact h.keeps

theorem securedLevel_mapRecords (u : Table Zone) (f : Nat → Zone → Zone) (hf : ∀ z x, (f z x).state = x.state) :
    securedLevel (u.mapRecords f) = securedLevel u := by
  simp only [securedLevel, Table.mapRecords, List.any_map, Function.comp_def, hf]

theorem Keeps.tick (s : State) : Keeps s s.tick := by
  unfold State.tick
  split
  · exact .refl s
  · exact
      { Keeps.refl s with
        secured := fun h => by
          rw [securedLawful_iff] at *
          exact h.trans (securedLevel_mapRecords _ (fun _ x => x.tick) fun _ _ => rfl).symm
        returns := fun h => Table.all_mapRecords _ (fun _ x => x.tick) _ h fun _ _ => id
        requests := fun h => by simpa using h
        stores := fun h => Table.all_mapRecords s.aisles (fun _ x => { x with crane := x.crane.tick }) _ h fun _ _ => id
        tables := fun h => by
          simp only [State.tablesLawful, Table.wf_mapRecords] at *
          exact h }

/-- A step is one ds, or the taking of the command at the front on the rest of the queue. -/
theorem step_cases (h : step s = .next t) :
    (s.pending = [] ∧ t = s.tick) ∨ ∃ c rest, s.pending = c :: rest ∧ Taken c (s.setPending rest) t := by
  unfold step at h
  split at h
  next hp => exact .inl ⟨hp, (Host.Outcome.next.inj h).symm⟩
  next c rest hp => exact .inr ⟨c, rest, hp, taken_of_exec h⟩

theorem step_keeps (h : step s = .next t) : Keeps s t := by
  obtain ⟨-, rfl⟩ | ⟨c, rest, -, hc⟩ := step_cases h
  · exact .tick s
  · have hp : Keeps s (s.setPending rest) := { Keeps.refl s with }
    exact hp.trans hc.keeps

/-! ### The reply queue (R187) -/

/-- The reply queue holds no more than R187 allows. -/
def State.repliesFit (s : State) : Prop := s.link.replies.length ≤ Config.replyCapacity

theorem Flow.replies (h : Flow s t) : t.link.replies = s.link.replies := congrArg Setup.replies h.setup

@[simp] theorem State.keyed_link (s : State) (i : Instr) : (s.keyed i).link = s.link := by
  unfold State.keyed
  split <;> rfl

/-- An order that is taken queues one reply at most. -/
theorem runOrder_replies_le (i : Instr) (s : State) :
    (runOrder i s).link.replies.length ≤ s.link.replies.length + 1 := by
  obtain h | ⟨u, r, hu, h⟩ := runOrder_cases i s
  · rw [h]
    exact Nat.le_succ _
  · rw [h, State.reply, List.length_append, hu.replies, State.keyed_link]
    exact Nat.le_refl _

theorem repliesFit_runOrder (i : Instr) (h : s.portShut = false) : (runOrder i s).repliesFit := by
  have hlt : s.link.replies.length < Config.replyCapacity := by
    simp only [State.portShut, Bool.or_eq_false_iff, decide_eq_false_iff_not, Nat.not_le] at h
    exact h.1
  exact (runOrder_replies_le i s).trans hlt

theorem State.repliesFit.drainPort (h : s.repliesFit) : s.drainPort.repliesFit :=
  drainPort_inv State.repliesFit (fun _ _ => id) (fun i _ _ hp _ => repliesFit_runOrder i hp) h

/-- What follows the reset of the records in a restart. -/
theorem flow_restart (s : State) (cause : StartCause) : Flow (s.restartRecords cause) (s.restart cause) :=
  ((((((Flow.refl _).foldl _ _ fun _ a h => h.restartService a).restartZones).foldl _ _ fun _ a h =>
    h.restartCrane a).foldl _ _ fun _ z h => h.restartEntry z).judgeSecuredLine).settleWing

theorem repliesFit_restart (s : State) (cause : StartCause) : (s.restart cause).repliesFit := by
  rw [State.repliesFit, (flow_restart s cause).replies]
  exact Nat.zero_le _

theorem Taken.repliesFit (h : Taken c s t) (hs : s.repliesFit) : t.repliesFit := by
  cases h with
  | powerOn => exact Nat.zero_le _
  | resetLine => exact (repliesFit_restart s _).drainPort
  | restart => exact (repliesFit_restart s _).drainPort
  | sent => exact State.repliesFit.drainPort ((Link.arbitrate_reports_le s.link).2.2.trans hs)
  | order => exact atPort_inv State.repliesFit (fun _ _ => id) c (fun _ hp _ => repliesFit_runOrder c hp) hs
  | panel v h => rw [State.repliesFit, h.replies]; exact hs
  | event h => rw [State.repliesFit, h.replies]; exact hs

theorem step_repliesFit (h : step s = .next t) (hs : s.repliesFit) : t.repliesFit := by
  obtain ⟨-, rfl⟩ | ⟨c, rest, -, hc⟩ := step_cases h
  · unfold State.tick
    split <;> exact hs
  · exact hc.repliesFit hs

/-! ### What a halt, the mode and the loaded tables stand against -/

/-- The records that R194 lets a command change in COMMISSIONING alone. -/
def SameTables (s t : State) : Prop :=
  t.loaded = s.loaded ∧ t.addresses = s.addresses ∧ t.classes = s.classes ∧ t.settings = s.settings

theorem SameTables.refl (s : State) : SameTables s s := ⟨rfl, rfl, rfl, rfl⟩

theorem SameTables.trans {u : State} (h : SameTables s t) (k : SameTables t u) : SameTables s u := by
  obtain ⟨h1, h2, h3, h4⟩ := h
  obtain ⟨k1, k2, k3, k4⟩ := k
  exact ⟨k1.trans h1, k2.trans h2, k3.trans h3, k4.trans h4⟩

theorem Flow.mode (h : Flow s t) : t.mode = s.mode := congrArg Setup.mode h.setup

theorem Flow.waiting (h : Flow s t) : t.link.waiting = s.link.waiting := congrArg Setup.waiting h.setup

theorem Flow.sameTables (h : Flow s t) : SameTables s t :=
  ⟨h.loaded, congrArg Setup.addresses h.setup, congrArg Setup.classes h.setup, congrArg Setup.settings h.setup⟩

@[simp] theorem State.keyed_faults (s : State) (i : Instr) : (s.keyed i).faults = s.faults := by
  unfold State.keyed
  split <;> rfl

@[simp] theorem State.keyed_mode (s : State) (i : Instr) : (s.keyed i).mode = s.mode := by
  unfold State.keyed
  split <;> rfl

theorem sameTables_keyed (s : State) (i : Instr) : SameTables s (s.keyed i) := by
  unfold State.keyed
  split <;> exact .refl s

/-- No order is taken in HALTED that could touch the Fault Unit (R183). -/
theorem runOrder_faults_of_halted (i : Instr) (h : s.faults.state = .halted) : (runOrder i s).faults = s.faults := by
  obtain hr | ⟨u, r, hu, hr⟩ := runOrder_cases i s
  · rw [hr]
  · rw [hr]
    exact (hu.faults (by simpa using h)).trans (s.keyed_faults i)

theorem runOrder_mode (i : Instr) (hc : orderKind i ≠ some .closeCommissioning)
    (ho : orderKind i ≠ some .reopenCommissioning) : (runOrder i s).mode = s.mode := by
  obtain hr | ⟨u, r, hu, hr⟩ := runOrder_cases i s
  · rw [hr]
  · rw [hr]
    exact (hu.mode hc ho).trans (s.keyed_mode i)

theorem judgeOrder_of_accept_self {k : OrderKind} {tag : Nat} {ok : Bool} {rule : State → Verdict} {r : Result}
    (h : rule s = .accept s r) : ∃ q, s.judgeOrder k tag ok rule = s.reply q := by
  unfold State.judgeOrder
  split
  · exact ⟨_, rfl⟩
  · rw [h]
    exact ⟨_, rfl⟩

/-- In IN_SERVICE a CLOSE_COMMISSIONING has no effect (R197). -/
theorem orderCloseCommissioning_of_inService (tag : Nat) (h : s.mode = .inService) :
    ∃ q, orderCloseCommissioning tag s = s.reply q :=
  judgeOrder_of_accept_self (if_pos (by simp [State.isInService, h]))

theorem runOrder_mode_of_inService (i : Instr) (h : s.mode = .inService)
    (ho : orderKind i ≠ some .reopenCommissioning) : (runOrder i s).mode = s.mode := by
  by_cases hc : orderKind i = some .closeCommissioning
  · cases i with
    | closeCommissioning tag =>
      obtain ⟨q, hq⟩ := orderCloseCommissioning_of_inService tag h
      show (orderCloseCommissioning tag s).mode = s.mode
      rw [hq]
      rfl
    | requestItem tag st items =>
      rw [orderKind] at hc
      split at hc <;> simp at hc
    | _ => simp [orderKind] at hc
  · exact runOrder_mode i hc ho

theorem runOrder_sameTables (i : Instr) (h : s.mode = .inService) (ho : orderKind i ≠ some .reopenCommissioning)
    (hr : ¬ reworks i) : SameTables s (runOrder i s) := by
  obtain hi | ⟨u, r, hu, hi⟩ := runOrder_cases i s
  · rw [hi]
    exact .refl s
  · rw [hi]
    exact (sameTables_keyed s i).trans (hu.tables (by simpa using h) ho hr)

/-- The reset of the records in a restart keeps the mode, the frames that wait in the port and the loaded tables (R199; log
8). -/
theorem restartRecords_keeps (s : State) (cause : StartCause) :
    (s.restartRecords cause).link.waiting = s.link.waiting ∧ (s.restartRecords cause).mode = s.mode
      ∧ SameTables s (s.restartRecords cause) := by
  simp [SameTables, State.loaded, State.restartRecords, State.restartStock, Link.restart, Table.mapRecords,
    Station.restart, Aisle.restart, Concentrator.restart, Shutter.restart, Function.comp_def]

theorem restart_keeps (s : State) (cause : StartCause) :
    (s.restart cause).link.waiting = s.link.waiting ∧ (s.restart cause).mode = s.mode
      ∧ SameTables s (s.restart cause) := by
  have h := flow_restart s cause
  obtain ⟨hwaiting, hmode, htables⟩ := restartRecords_keeps s cause
  exact ⟨h.waiting.trans hwaiting, h.mode.trans hmode, htables.trans h.sameTables⟩

/-- The taking of a command keeps an invariant of the mode, the Fault Unit or the loaded tables that the events of the wing, a
restart and each of the orders that may be taken with it keep; power-on keeps none. -/
theorem Taken.inv (I : State → Prop) (h : Taken c s t) (hpower : ∀ p k, c ≠ .powerOn p k)
    (hlink : ∀ u k, I u → I (u.setLink k)) (hpanel : ∀ u v, I u → I (u.setFirePanel v))
    (hflow : ∀ u v, Flow u v → I u → I v)
    (hrestart : c = .resetLineAsserted ∨ c = .restartTakesEffect → ∀ cause, I (s.restart cause))
    (horder : ∀ i ∈ c :: s.link.waiting, ∀ u, I u → I (runOrder i u)) (hs : I s) : I t := by
  have waiting : ∀ u : State, u.link.waiting = s.link.waiting → I u → I u.drainPort := fun u hu =>
    drainPort_inv I (fun _ _ => hlink _ _) fun i hi v _ => horder i (List.mem_cons_of_mem _ (hu ▸ hi)) v
  cases h with
  | powerOn panel key => exact absurd rfl (hpower panel key)
  | resetLine => exact waiting _ (restart_keeps s _).1 (hrestart (.inl rfl) _)
  | restart => exact waiting _ (restart_keeps s _).1 (hrestart (.inr rfl) _)
  | sent => exact waiting _ (Link.arbitrate_waiting s.link) (hlink _ _ hs)
  | order => exact atPort_inv I (fun _ _ => hlink _ _) c (fun u _ => horder c List.mem_cons_self u) hs
  | panel v h => exact hflow _ _ h (hpanel _ _ hs)
  | event h => exact hflow _ _ h hs

/-! ### The obligations -/

/-- Settles O5 (R168, R178, R181), by what every command keeps. -/
theorem stepKeepsFaultUnitAndSecuredLine : Obligations.StepKeepsFaultUnitAndSecuredLine :=
  fun _ _ h => ⟨(step_keeps h).faults, (step_keeps h).secured⟩

/-- Settles O6 (R6, R21, R55, R56, R105, R123, R187, R190, R192), by what every command keeps; the reply queue by the port, which
takes no order while it is full. -/
theorem stepKeepsListsTablesAndTags : Obligations.StepKeepsListsTablesAndTags := by
  intro s t h
  have k := step_keeps h
  refine ⟨fun hl => ?link, fun hl => ?lists, k.stores, k.tables, fun ht => ?tags⟩
  case link =>
    simp only [Link.lawful, Bool.and_eq_true, decide_eq_true_eq] at hl ⊢
    obtain ⟨⟨hreplies, hurgent⟩, hroutine⟩ := hl
    exact ⟨⟨step_repliesFit h hreplies, k.urgent hurgent⟩, k.routine hroutine⟩
  case lists =>
    simp only [State.listsLawful, Bool.and_eq_true, decide_eq_true_eq] at hl ⊢
    exact ⟨k.requests hl.1, k.returns hl.2⟩
  case tags =>
    simp only [State.tagsLawful, Bool.and_eq_true] at ht ⊢
    exact ⟨k.jobTag ht.1, k.requestTag ht.2⟩

/-- Settles O9 (R182, R183): in HALTED the Fault Unit stands against every event and every order. -/
theorem haltEndsOnlyByRestart : Obligations.HaltEndsOnlyByRestart := by
  intro c s t hs h hpower hline hrestart
  have hhalt : s.faults.state = .halted := by simpa [State.isHalted] using hs
  refine (taken_of_exec h).inv (fun u => u.faults = s.faults) hpower (fun _ _ => id) (fun _ _ => id)
    (fun u v hv hu => (hv.halted (by rw [hu, hhalt])).trans hu) (fun hc => ?_)
    (fun i _ u hu => (runOrder_faults_of_halted i (by rw [hu, hhalt])).trans hu) rfl
  exact (hc.elim hline hrestart).elim

/-- Settles O13 (R196): no other order sets the mode, and a restart keeps it. -/
theorem modeChangesOnlyByCloseOrReopen : Obligations.ModeChangesOnlyByCloseOrReopen := by
  intro c s t h hpower horders
  exact (taken_of_exec h).inv (fun u => u.mode = s.mode) hpower (fun _ _ => id) (fun _ _ => id)
    (fun u v hv hu => hv.mode.trans hu) (fun _ cause => (restart_keeps s cause).2.1)
    (fun i hi u hu => (runOrder_mode i (horders i hi).1 (horders i hi).2).trans hu) rfl

/-- Settles O14 (R5, R69, R194): the loads are LOCKED in IN_SERVICE, and the keyed rework is excluded by the key. -/
theorem loadedTablesStandInService : Obligations.LoadedTablesStandInService := by
  intro c s t hs h hpower horders
  have hm : s.mode = .inService := by simpa [State.isInService] using hs
  refine ((taken_of_exec h).inv (fun u => u.mode = .inService ∧ SameTables s u) hpower (fun _ _ => id) (fun _ _ => id)
    (fun u v hv hu => ⟨hv.mode.trans hu.1, hu.2.trans hv.sameTables⟩)
    (fun _ cause => ⟨(restart_keeps s cause).2.1.trans hm, (restart_keeps s cause).2.2⟩)
    (fun i hi u hu => ?_) ⟨hm, .refl s⟩).2
  obtain ⟨hreopen, hgeometry, hoffsets⟩ := horders i hi
  have hr : ¬ reworks i := by
    intro hr
    cases i with
    | loadGeometryRecord tag a g key => exact hgeometry tag a g (by rw [show key = true from hr])
    | loadRetryOffsetList tag a l key => exact hoffsets tag a l (by rw [show key = true from hr])
    | _ => exact hr
  exact ⟨(runOrder_mode_of_inService i hu.1 hreopen).trans hu.1, hu.2.trans (runOrder_sameTables i hu.1 hreopen hr)⟩

end Sys2Proof.Machine
end

section
/-! Steps, power-on and the passing of one ds (log 2), the field in COMMISSIONING (R193, R196), what the circulation port
and the checks of R187 do with an ORDER frame. The theorems at the end settle O1 to O4 and O10 to O12. -/
namespace Sys2Proof.Machine

variable {s : State} {c : Instr}

/-! ### One ds -/

theorem Table.map_select {α β : Type} (t : Table α) (p : α → Bool) (f : Nat → β) :
    (t.select p).map f = t.filterMap fun e => if p e.2 then some (f e.1) else none := by
  induction t with
  | nil => rfl
  | cons e t ih => by_cases h : p e.2 <;> simp_all [Table.select]

theorem map_filter_eq_filterMap {α β : Type} (l : List α) (p : α → Bool) (f : α → β) :
    (l.filter p).map f = l.filterMap fun e => if p e then some (f e) else none := by
  induction l with
  | nil => rfl
  | cons e l ih => by_cases h : p e <;> simp_all

/-- A timer that runs out in this ds is at its last ds, or at none. -/
theorem any_runsOut (o : Option Nat) : o.any runsOut = (decide (o = some 0) || decide (o = some 1)) := by
  cases o with
  | none => rfl
  | some n =>
    simp only [Option.any_some, runsOut, Option.some.injEq, ← Bool.decide_or, decide_eq_decide]
    omega

theorem out_eq :
    Deadline.out = fun d => d.running && (decide (some d.left = some 0) || decide (some d.left = some 1)) := by
  funext d
  rw [Deadline.out, ← any_runsOut, Option.any_some]

theorem State.tick_of_commissioning (h : s.mode = .commissioning) : s.tick = s := by simp [State.tick, h]

theorem step_of_pending_nil (h : s.pending = []) : step s = .next s.tick := by simp [step, h]

theorem step_of_pending_cons {rest : List Instr} (h : s.pending = c :: rest) : step s = exec c (s.setPending rest) := by
  simp [step, h]

/-! ### The field in COMMISSIONING -/

theorem State.whileInService_of_commissioning (hm : s.mode = .commissioning) (f : State → State) :
    s.whileInService f = s := by simp [State.whileInService, State.isInService, hm]

theorem exec_unadmitted_of_commissioning (hm : s.mode = .commissioning) (src kind : Nat) :
    exec (.unadmittedFieldTelegram src kind) s = .next s := by
  refine congrArg Host.Outcome.next ?_
  split
  · rfl
  · exact if_pos hm

/-- R193: in COMMISSIONING a telegram is dropped, whatever its sender. -/
theorem exec_telegram_of_commissioning (hm : s.mode = .commissioning) (hc : c.sender.isSome = true) :
    exec c s = .next s := by
  have drop := State.admission_of_commissioning hm
  cases c
  case unadmittedFieldTelegram src kind => exact exec_unadmitted_of_commissioning hm src kind
  case phase | done | pickFailed | auditResult | stopped | parked | craneFault =>
    exact congrArg Host.Outcome.next (drop _ _ .crane _)
  case binArrived | itemOutScan | itemInScan | returnScan | binDone | mouthOccupied | mouthClear | stationFault
      | terminalKey =>
    exact congrArg Host.Outcome.next (drop _ _ .station _)
  case closed | opened | jammed => exact congrArg Host.Outcome.next (drop _ _ .shutter _)
  case beat | prealarm | alarm | clear | trouble => exact congrArg Host.Outcome.next (drop _ _ .concentrator _)
  all_goals cases hc

/-! ### ORDER frames -/

/-- A command that spells an order comes to the port as an ORDER frame. -/
theorem exec_of_orderTag (h : c.orderTag.isSome = true) : exec c s = .next (s.atPort c (runOrder c)) := by
  cases c
  case requestItem | withdrawRequest | confirmLoan | cancelLoan | callBin | moveBin | auditBin | releaseBin | aisleOut | aisleIn | shutZone
      | restoreZone | ackFault | loadGeometryRecord | loadRetryOffsetList | loadStationRecord | loadZoneRecord
      | loadConcentratorRecord | loadShutterRecord | loadFieldAddress | loadReportClass | loadWingSettings | binMapAdd
      | binMapEdit | binMapRetire | itemDirectoryAdd | itemDirectoryEdit | itemDirectoryRemove | readRecord
      | closeCommissioning | reopenCommissioning | queryStatus | readIdentity | restart | unknownOrder => rfl
  all_goals cases h

theorem orderTag_isSome_of_orderKind {k : OrderKind} (h : orderKind c = some k) : c.orderTag.isSome = true := by
  cases c
  case requestItem | withdrawRequest | confirmLoan | cancelLoan | callBin | moveBin | auditBin | releaseBin | aisleOut | aisleIn | shutZone
      | restoreZone | ackFault | loadGeometryRecord | loadRetryOffsetList | loadStationRecord | loadZoneRecord
      | loadConcentratorRecord | loadShutterRecord | loadFieldAddress | loadReportClass | loadWingSettings | binMapAdd
      | binMapEdit | binMapRetire | itemDirectoryAdd | itemDirectoryEdit | itemDirectoryRemove | readRecord
      | closeCommissioning | reopenCommissioning | queryStatus | readIdentity | restart => rfl
  all_goals cases h

theorem exec_of_orderKind {k : OrderKind} (h : orderKind c = some k) :
    exec c s = .next (s.atPort c (runOrder c)) := exec_of_orderTag (orderTag_isSome_of_orderKind h)

/-- An order whose body holds its fields is judged by R187, on the key line as it reads it. -/
theorem runOrder_judged {k : OrderKind} {tag : Nat} (hk : orderKind c = some k) (ht : c.orderTag = some tag) :
    ∃ rule, runOrder c s = (s.keyed c).judgeOrder k tag true rule := by
  cases c
  case requestItem t st items =>
    rw [orderKind] at hk
    split at hk
    next hl =>
      cases hk
      cases ht
      simp only [runOrder, orderRequestItem, State.keyed, keyLevel, hl]
      exact ⟨_, rfl⟩
    next => cases hk
  case withdrawRequest | confirmLoan | cancelLoan | callBin | moveBin | auditBin | releaseBin | aisleOut | aisleIn | shutZone
      | restoreZone | ackFault | loadGeometryRecord | loadRetryOffsetList | loadStationRecord | loadZoneRecord
      | loadConcentratorRecord | loadShutterRecord | loadFieldAddress | loadReportClass | loadWingSettings | binMapAdd
      | binMapEdit | binMapRetire | itemDirectoryAdd | itemDirectoryEdit | itemDirectoryRemove | readRecord
      | closeCommissioning | reopenCommissioning | queryStatus | readIdentity | restart =>
    cases hk
    cases ht
    simp only [runOrder, State.keyed, keyLevel]
    exact ⟨_, rfl⟩
  all_goals cases hk

theorem State.judgeOrder_of_refusal {k : OrderKind} {tag : Nat} {ok : Bool} {rule : State → Verdict} {r : RefusalCode}
    (h : s.orderRefusal k tag ok = some r) : s.judgeOrder k tag ok rule = s.refuseOrder tag r 0 := by
  simp [State.judgeOrder, h]

theorem State.keyed_isHalted : (s.keyed c).isHalted = s.isHalted := by simp [State.isHalted]

theorem exec_of_orderRefusal {k : OrderKind} {tag : Nat} {r : RefusalCode} (hp : s.portOpen = true)
    (hk : orderKind c = some k) (ht : c.orderTag = some tag) (hr : (s.keyed c).orderRefusal k tag true = some r) :
    exec c s = .next ((s.keyed c).refuseOrder tag r 0) := by
  obtain ⟨rule, hrule⟩ := runOrder_judged (s := s) hk ht
  rw [exec_of_orderKind hk, atPort_of_portOpen hp, hrule, State.judgeOrder_of_refusal hr]

theorem State.atPort_of_portShut (h : s.portShut = true) (take : State → State) :
    s.atPort c take = s.setLink { s.link with waiting := s.link.waiting ++ [c] } := by simp [State.atPort, h]

theorem Link.arbitrate_restartPending (l : Link) : l.arbitrate.restartPending = l.restartPending := by
  unfold Link.arbitrate
  split
  next => rfl
  next =>
    split
    next => rfl
    next => split <;> rfl

/-- R191: a reply goes first, so a place of the reply queue frees. -/
theorem Link.arbitrate_replies (l : Link) : l.arbitrate.replies = l.replies.tail := by
  unfold Link.arbitrate
  split
  next h => simp [h, Link.transmit]
  next h =>
    split
    next => simp [h, Link.transmit]
    next => split <;> simp [h, Link.transmit]

theorem drainOrders_singleton (h : s.portShut = false) : drainOrders [c] s = runOrder c s := by
  simp [drainOrders, h]

/-! ### The obligations -/

/-- Settles O1. -/
theorem stepRunsFrontCommand : Obligations.StepRunsFrontCommand := fun _ _ _ => step_of_pending_cons

/-- Settles O2 (log 2): each list of expiries is that of the timers at their last ds. -/
theorem emptyQueuePassesOneDs : Obligations.EmptyQueuePassesOneDs := by
  intro s hp
  refine ⟨fun hm => ?_, fun hm => ?_⟩
  · rw [step_of_pending_nil hp, State.tick_of_commissioning hm]
  · rw [step_of_pending_nil hp, State.tick, hm]
    simp only [hp, List.nil_append, State.expiries, Table.map_select, map_filter_eq_filterMap, any_runsOut, out_eq]
    rfl

/-- Settles O3 (R196). -/
theorem powerOnGivesResetValues : Obligations.PowerOnGivesResetValues := by
  refine ⟨fun _ _ _ => rfl, ?_⟩
  decide

/-- Settles O4. -/
theorem resetMeetsTheLaws : Obligations.ResetMeetsTheLaws := by
  unfold Obligations.ResetMeetsTheLaws
  decide

/-- Settles O10 (R103, R193, R196; log 3). -/
theorem commissioningDropsTheField : Obligations.CommissioningDropsTheField := by
  intro c s hm h
  have still := fun f => congrArg Host.Outcome.next (α := State) (β := Next) (State.whileInService_of_commissioning hm f)
  rcases h with h | ⟨st, l, rfl⟩ | ⟨a, rfl⟩ | ⟨st, n, rfl⟩ | ⟨k, rfl⟩ | ⟨z, rfl⟩ | ⟨n, rfl⟩ | ⟨n, rfl⟩ | ⟨a, rfl⟩
  · exact exec_telegram_of_commissioning hm h
  · exact exec_passDown_of_commissioning hm
  all_goals exact still _

/-- Settles O11 (R187, checks 2 to 4). -/
theorem orderChecksRefuseInOrder : Obligations.OrderChecksRefuseInOrder := by
  intro c k tag s hp hk ht
  refine ⟨fun h0 => ?malformed, fun h0 hh hn => ?halted, fun h0 hh hm hw => ?notInService⟩
  case malformed =>
    subst h0
    exact exec_of_orderRefusal hp hk ht (by simp [State.orderRefusal])
  case halted =>
    exact exec_of_orderRefusal hp hk ht (by simp [State.orderRefusal, h0, State.keyed_isHalted, hh, hn])
  case notInService =>
    refine exec_of_orderRefusal hp hk ht ?_
    simp [State.orderRefusal, h0, State.keyed_isHalted, hh, State.isInService, hm, hw]

/-- Settles O12 (R187, R199; log 8). -/
theorem orderWaitsForAReplyPlace : Obligations.OrderWaitsForAReplyPlace := by
  intro c k s hk
  refine ⟨fun h => ?_, fun hw hr hn => ?_⟩
  · have hshut : s.portShut = true := by simpa [State.portShut] using h
    rw [exec_of_orderKind hk, State.atPort_of_portShut hshut]
  · have hopen : (s.setLink { s.link.arbitrate with waiting := [] }).portShut = false := by
      simp [State.portShut, Link.arbitrate_replies, Link.arbitrate_restartPending, hr, hn, Config.replyCapacity]
    rw [exec_sendNextFrame, execSendNextFrame, State.drainPort, State.setLink_link, Link.arbitrate_waiting, hw]
    exact congrArg Host.Outcome.next (drainOrders_singleton hopen)

end Sys2Proof.Machine
end

section
/-! Tags (R55, R105), frames and their bytes (R186, R190), and the choice of a return target (R50 to R54). The theorems at the
end of each part settle O17, O18 and O19. -/
namespace Sys2Proof.Machine

/-! ### Tags -/

theorem freeTag_passes (fuel : Nat) (held : List Nat) (t : Nat) :
    ∃ k ≤ fuel, freeTag fuel held t = tagAfter^[k] t ∧ (∀ i < k, tagAfter^[i] t ∈ held)
      ∧ (k = fuel ∨ tagAfter^[k] t ∉ held) := by
  induction fuel generalizing t with
  | zero => exact ⟨0, Nat.le_refl _, rfl, fun i hi => absurd hi (Nat.not_lt_zero i), .inl rfl⟩
  | succ fuel ih =>
    by_cases h : t ∈ held
    · obtain ⟨k, hk, hfree, hpassed, hend⟩ := ih (tagAfter t)
      refine ⟨k + 1, Nat.succ_le_succ hk, by simpa [freeTag, h] using hfree, fun i hi => ?_, by simpa using hend⟩
      cases i with
      | zero => exact h
      | succ i => exact hpassed i (Nat.lt_of_succ_lt_succ hi)
    · exact ⟨0, Nat.zero_le _, by simp [freeTag, h], fun i hi => absurd hi (Nat.not_lt_zero i), .inr h⟩

/-- The tags from `t` on, wrapping from 65,535 to 1. -/
theorem tagAfter_iterate {t : Nat} (ht : within 1 Config.maxTag t = true) (i : Nat) :
    tagAfter^[i] t = (t - 1 + i) % 65535 + 1 := by
  rw [within_iff, Config.maxTag] at ht
  induction i with
  | zero => rw [Function.iterate_zero_apply]; omega
  | succ i ih =>
    rw [Function.iterate_succ_apply', ih, tagAfter, Config.maxTag]
    split <;> omega

theorem tagAfter_iterate_within {t : Nat} (ht : within 1 Config.maxTag t = true) (i : Nat) :
    within 1 Config.maxTag (tagAfter^[i] t) = true := by
  rw [tagAfter_iterate ht, within_iff, Config.maxTag]
  omega

/-- Fewer tags are held than there are, so that not every tag passed over and the last can be held. -/
theorem exists_iterate_notMem {held : List Nat} {t : Nat} (ht : within 1 Config.maxTag t = true)
    (hl : held.length < Config.maxTag) : ∃ i ≤ held.length, tagAfter^[i] t ∉ held := by
  by_contra hall
  push Not at hall
  have hnodup : ((List.range (held.length + 1)).map fun i => tagAfter^[i] t).Nodup := by
    refine List.Nodup.map_on (fun i hi j hj hij => ?_) List.nodup_range
    rw [List.mem_range] at hi hj
    rw [tagAfter_iterate ht, tagAfter_iterate ht] at hij
    rw [Config.maxTag] at hl
    omega
  have hsub : ((List.range (held.length + 1)).map fun i => tagAfter^[i] t) ⊆ held := by
    intro n hn
    obtain ⟨i, hi, rfl⟩ := List.mem_map.1 hn
    exact hall i (Nat.le_of_lt_succ (List.mem_range.1 hi))
  simpa using (List.subperm_of_subset hnodup hsub).length_le

theorem freeTag_spec {held : List Nat} {t : Nat} (ht : within 1 Config.maxTag t = true)
    (hl : held.length < Config.maxTag) :
    freeTag held.length held t ∉ held ∧ within 1 Config.maxTag (freeTag held.length held t) = true
      ∧ ∃ k, freeTag held.length held t = tagAfter^[k] t ∧ ∀ i < k, tagAfter^[i] t ∈ held := by
  obtain ⟨k, -, hfree, hpassed, hend⟩ := freeTag_passes held.length held t
  refine ⟨?_, hfree ▸ tagAfter_iterate_within ht k, k, hfree, hpassed⟩
  rw [hfree]
  obtain rfl | hend := hend
  · obtain ⟨i, hi, hnot⟩ := exists_iterate_notMem ht hl
    obtain hlt | rfl := Nat.lt_or_eq_of_le hi
    · exact absurd (hpassed i hlt) hnot
    · exact hnot
  · exact hend

/-- Settles O18 (R55, R105): fewer tags are held than there are, so the search ends at a free one. -/
theorem newTagsAreNotHeld : Obligations.NewTagsAreNotHeld := by
  intro s hs
  obtain ⟨hjob, hrequest⟩ := Bool.and_eq_true_iff.1 hs
  refine ⟨fun hl => freeTag_spec hjob hl, fun hl => ?_⟩
  have hl' : (s.requests.map (·.tag)).length < Config.maxTag := by
    rw [List.length_map]
    exact Nat.lt_of_le_of_lt hl (by decide)
  have h := freeTag_spec hrequest hl'
  rw [List.length_map] at h
  exact h

/-! ### Frames -/

theorem bytesOf_one (n : Nat) : bytesOf 1 n = [BitVec.ofNat 8 n] := by simp [bytesOf]

theorem bytesOf_two (n : Nat) : bytesOf 2 n = [BitVec.ofNat 8 (n / 256), BitVec.ofNat 8 n] := by simp [bytesOf]

theorem bytesOf_four (n : Nat) :
    bytesOf 4 n = [BitVec.ofNat 8 (n / 16777216), BitVec.ofNat 8 (n / 65536), BitVec.ofNat 8 (n / 256), BitVec.ofNat 8 n] := by
  simp [bytesOf]

theorem bytesOf_two_inj {v w : CheckWord} (h : bytesOf 2 v.toNat = bytesOf 2 w.toNat) : v = w := by
  simp only [bytesOf_two, List.cons.injEq, and_true] at h
  obtain ⟨hhigh, hlow⟩ := h
  have hhigh := congrArg BitVec.toNat hhigh
  have hlow := congrArg BitVec.toNat hlow
  simp only [BitVec.toNat_ofNat] at hhigh hlow
  have := v.isLt
  have := w.isLt
  exact BitVec.eq_of_toNat_eq (by omega)

/-- A frame of an allowed class and of a body in its capacity passes with its own check, and with no other (R186). -/
theorem frameBad_eq {p : Port} {f : Frame} (hb : f.body.length ≤ Config.bodyCapacity)
    (hc : classAllowed p (BitVec.ofNat 8 f.cls) = true) (w : CheckWord) :
    frameBad p (0xA5#8 :: (f.covered ++ bytesOf 2 w.toNat))
      = !decide (bytesOf 2 w.toNat = bytesOf 2 (frameCheck f.covered).toNat) := by
  rw [Config.bodyCapacity] at hb
  have hcls : ((f.covered ++ bytesOf 2 w.toNat).drop 2).headD 0#8 = BitVec.ofNat 8 f.cls := by simp [Frame.covered]
  have hlen : (((f.covered ++ bytesOf 2 w.toNat).drop 6).headD 0#8).toNat = f.body.length := by
    have : ((f.covered ++ bytesOf 2 w.toNat).drop 6).headD 0#8 = BitVec.ofNat 8 f.body.length := by
      simp [Frame.covered, bytesOf_two]
    rw [this, BitVec.toNat_ofNat]
    omega
  have htake : (f.covered ++ bytesOf 2 w.toNat).take (7 + f.body.length) = f.covered := by
    rw [← Frame.covered_length]
    exact List.take_left
  have hdrop : (f.covered ++ bytesOf 2 w.toNat).drop (7 + f.body.length) = bytesOf 2 w.toNat := by
    rw [← Frame.covered_length]
    exact List.drop_left
  simp only [frameBad, hcls, hlen, htake, hdrop, hc, Frame.covered_length]
  simp [Nat.not_lt.2 hb]

theorem frameBad_bytes {p : Port} {f : Frame} (hb : f.body.length ≤ Config.bodyCapacity)
    (hc : classAllowed p (BitVec.ofNat 8 f.cls) = true) : frameBad p f.bytes = false := by
  rw [Frame.bytes, frameBad_eq hb hc]
  simp

theorem optFields_locus_length (o : Option Locus) : (fieldBytes (optFields (o.map Locus.fields))).length ≤ 5 := by
  rcases o with - | (- | -) <;> simp [optFields, Locus.fields, Slot.fields]

theorem locus_fields_length (l : Locus) : (fieldBytes l.fields).length = 4 := by
  cases l <;> simp [Locus.fields, Slot.fields]

theorem jobFields_length (tag : Nat) (k : JobKind) (src : Option Locus) (dst : Locus) :
    (fieldBytes (jobFields tag k src dst)).length ≤ 12 := by
  have := optFields_locus_length src
  simp [jobFields, locus_fields_length]
  omega

theorem fieldBytes_num_map_length (w : Nat) (l : List Nat) :
    (fieldBytes (l.map (Field.num w))).length = l.length * w := by
  induction l with
  | nil => simp
  | cons n l ih =>
    simp only [List.map_cons, fieldBytes_cons, List.length_append, ih, Field.bytes_num_length, List.length_cons]
    ring

/-- A telegram that the field link sends fits a body: a PRESENT of at most 15 items, terminal text of at most 64 bytes. -/
theorem FieldTelegram.body_length_le (t : FieldTelegram) (hp : ∀ b p q r, t = .present b p q r → r.length ≤ 15)
    (ht : ∀ text, t = .terminalText text → text.length ≤ 64) : (fieldBytes t.fields).length ≤ 64 := by
  cases t with
  | job tag k src dst off =>
    have := jobFields_length tag k src dst
    simp [FieldTelegram.fields, pairFields]
    omega
  | stage tag k src dst st =>
    have := jobFields_length tag k src dst
    cases st <;> simp [FieldTelegram.fields] <;> omega
  | present b p q r =>
    have := hp b p q r rfl
    simp [FieldTelegram.fields, fieldBytes_num_map_length]
    omega
  | terminalText text => simpa [FieldTelegram.fields] using ht text rfl
  | _ => simp [FieldTelegram.fields, pairFields]

/-- The bytes of a frame's check are its own alone. -/
theorem frameBad_of_other_check {p : Port} {f : Frame} (hb : f.body.length ≤ Config.bodyCapacity)
    (hc : classAllowed p (BitVec.ofNat 8 f.cls) = true) {w : CheckWord} (hw : w ≠ frameCheck f.covered) :
    frameBad p (0xA5#8 :: (f.covered ++ bytesOf 2 w.toNat)) = true := by
  rw [frameBad_eq hb hc, Bool.not_eq_true', decide_eq_false_iff_not]
  exact fun h => hw (bytesOf_two_inj h)

theorem State.sendTo_some (l : Link) (ad : Nat) (t : FieldTelegram) :
    l.sendTo (some ad) t = { l with field := l.field ++ [fieldFrame ad t] } := rfl

/-- The kind and the body that Table 11.7 gives a telegram, spelt out where its fields are few. -/
theorem fieldFrame_eq (ad : Nat) (t : FieldTelegram) :
    fieldFrame ad t =
      { destination := ad, source := 0, cls := 6, kind := t.number, tag := 0
        body := match t with
          | .unstage n | .abandon n | .park n => [BitVec.ofNat 8 (n / 256), BitVec.ofNat 8 n]
          | .terminalText text => text
          | .closeShutter force => [if force then 1#8 else 0#8]
          | .stop | .retract | .hold | .resume | .openShutter => []
          | .job .. | .stage .. | .retry _ | .present .. | .scanRefused _ => fieldBytes t.fields } := by
  cases t with
  | unstage n | abandon n | park n => simp [fieldFrame, FieldTelegram.fields, Field.bytes, bytesOf_two]
  | closeShutter force =>
    cases force <;> simp [fieldFrame, FieldTelegram.fields, Field.bytes, markField, bytesOf_one]
  | terminalText text => simp [fieldFrame, FieldTelegram.fields]
  | _ => rfl

theorem fieldFrame_passes (ad : Nat) (t : FieldTelegram) (hp : ∀ b p q r, t = .present b p q r → r.length ≤ 15)
    (ht : ∀ text, t = .terminalText text → text.length ≤ 64) :
    (fieldFrame ad t).body.length ≤ 64 ∧ frameBad .fieldLink (fieldFrame ad t).bytes = false := by
  have hlen := t.body_length_le hp ht
  exact ⟨hlen, frameBad_bytes hlen (by simp [classAllowed])⟩

/-- The refusal codes, in the order of Table 11.5. -/
def RefusalCode.all : List RefusalCode :=
  [.unknownOrder, .malformed, .notInService, .halted, .locked, .badField, .checkFailed, .wingBusy, .tableFull
    , .outOfBounds, .slotTaken, .otherAisle, .unknownBin, .binMissing, .binInDoubt, .binBusy, .unknownItem
    , .itemNotShelved, .badStation, .notReachable, .listFull, .queueFull, .noSuchRequest, .alreadyPicked, .tooLate
    , .noFault, .tagMismatch, .notSecured, .firePersists]

theorem RefusalCode.number_eq (c : RefusalCode) : c.number = RefusalCode.all.idxOf c + 1 := by
  cases c <;> rfl

/-- A reply's refusal code, 0 where there is none (Table 11.2). -/
def refusalPlace : Option RefusalCode → Nat
  | none => 0
  | some c => RefusalCode.all.idxOf c + 1

theorem refusalPlace_eq (o : Option RefusalCode) : (o.map RefusalCode.number).getD 0 = refusalPlace o := by
  cases o with
  | none => rfl
  | some c => exact c.number_eq

theorem fieldBytes_outcomes (l : List (Option RefusalCode × Nat)) :
    fieldBytes (l.flatMap fun o => [.num 1 (refusalPlace o.1), .num 2 o.2])
      = l.flatMap fun o => bytesOf 1 (refusalPlace o.1) ++ bytesOf 2 o.2 := by
  induction l with
  | nil => rfl
  | cons o l ih =>
    rw [List.flatMap_cons, fieldBytes_append, ih, List.flatMap_cons]
    simp [Field.bytes]

/-- The body of a reply (Table 11.2), byte for byte where its result is empty or a list of outcomes. -/
theorem Reply.body_eq (q : Reply) :
    q.body = bytesOf 1 (if q.refusal = none then 1 else 2) ++ bytesOf 1 (refusalPlace q.refusal) ++ bytesOf 1 q.detail
      ++ match q.result with
        | .empty => []
        | .outcomes l => bytesOf 1 l.length ++ l.flatMap fun o => bytesOf 1 (refusalPlace o.1) ++ bytesOf 2 o.2
        | v => fieldBytes v.fields := by
  obtain ⟨tag, refusal, detail, result⟩ := q
  have hbody : ∀ r : Reply, r.body = bytesOf 1 (if r.refusal = none then 1 else 2)
      ++ bytesOf 1 (refusalPlace r.refusal) ++ bytesOf 1 r.detail ++ fieldBytes r.result.fields := by
    rintro ⟨-, - | c, d, v⟩ <;> simp [Reply.body, Field.bytes, ← refusalPlace_eq]
  rw [hbody]
  cases result with
  | empty => rfl
  | outcomes l => simp only [Result.fields, fieldBytes_cons, refusalPlace_eq, fieldBytes_outcomes]; rfl
  | _ => rfl

theorem ReportKind.number_eq (k : ReportKind) :
    k.number = [ReportKind.requestReady, .requestDelayed, .requestFailed, .itemPicked, .loanExpired, .binPresented
      , .binStored, .binMissing, .binInDoubt, .unexpectedBin, .lateArrival, .returnAccepted, .returnShelved
      , .returnOverflow, .returnDisplaced, .aisleState, .zoneState, .firePanel, .supervision, .fault, .halted
      , .fieldProtocol].idxOf k + 1 := by
  cases k <;> rfl

/-- The body of a report (Table 11.3): the overrun mark, the subject, the order tag and the code, each in its bytes. -/
theorem Report.body_eq (q : Report) (overrun : Bool) :
    q.body overrun = bytesOf 1 (if overrun then 1 else 0) ++ fieldBytes q.subject.fields ++ bytesOf 2 (q.order.getD 0)
      ++ fieldBytes (codeFields q.code) := by
  simp [Report.body, markField, Field.bytes]

theorem fieldBytes_one_two (k n : Nat) : fieldBytes [.num 1 k, .num 2 n] = bytesOf 1 k ++ bytesOf 2 n := by
  simp [Field.bytes]

theorem fieldBytes_one_four (k n : Nat) : fieldBytes [.num 1 k, .num 4 n] = bytesOf 1 k ++ bytesOf 4 n := by
  simp [Field.bytes]

theorem ZoneState.place_eq (v : ZoneState) :
    v.place = [ZoneState.normal, .alert, .shutdown, .secured, .restoring].idxOf v + 1 := by
  cases v <;> rfl

theorem Service.place_eq (v : Service) : v.place = [Service.inService, .draining, .outOfService].idxOf v + 1 := by
  cases v <;> rfl

theorem FaultKind.place_eq (k : FaultKind) :
    k.place = [FaultKind.craneOverdue, .craneFault, .craneNoStop, .shutterJammed, .stationFault
      , .conveyorOverdue].idxOf k + 1 := by
  cases k <;> rfl

theorem PickReason.place_eq (w : PickReason) : w.place = [PickReason.emptySlot, .labelMismatch].idxOf w + 1 := by
  cases w <;> rfl

/-- Settles O19 (R186, R190; Tables 11.1 to 11.3). -/
theorem framesCarryTheirBodiesAndCheck : Obligations.FramesCarryTheirBodiesAndCheck := by
  refine ⟨fun p f hb hc => ⟨frameBad_bytes hb hc, fun w => frameBad_of_other_check hb hc⟩,
    fun ad t l => ⟨?sent, ?passes, fun n => ⟨bytesOf_one n, bytesOf_two n, bytesOf_four n⟩, fun w n => ⟨rfl, rfl⟩,
      fun g m => ⟨fieldBytes_nil, fieldBytes_cons g m⟩, fun q => ?reply, fun q overrun => ?report, fun st m => rfl⟩⟩
  case sent =>
    rw [State.sendTo_some, fieldFrame_eq]
    cases t <;> rfl
  case passes =>
    have h := fieldFrame_passes ad t
    rw [fieldFrame_eq] at h
    cases t <;> exact h
  case reply =>
    rw [replyFrame, Reply.body_eq]
    simp only [bytesOf_one, bytesOf_two]
    obtain ⟨tag, refusal, detail, result⟩ := q
    cases refusal <;> cases result <;> rfl
  case report =>
    rw [reportFrame, ReportKind.number_eq, Report.body_eq]
    obtain ⟨kind, subject, order, code⟩ := q
    congr 1
    refine congrArg₂ (· ++ ·) (congrArg₂ (· ++ ·) (congrArg₂ (· ++ ·) (bytesOf_one _) ?subject) (bytesOf_two _)) ?code
    case subject =>
      have h := fun k n => (fieldBytes_one_four k n).trans (congrArg₂ (· ++ ·) (bytesOf_one k) (bytesOf_four n))
      cases subject <;> exact h _ _
    case code =>
      have h := fun k n => (fieldBytes_one_two k n).trans (congrArg₂ (· ++ ·) (bytesOf_one k) (bytesOf_two n))
      match code with
      | none | some (.number _) | some (.firePanel _) => exact h _ _
      | some (.refusal c) => exact (h 2 c.number).trans (by rw [c.number_eq]; rfl)
      | some (.zoneState v) => exact (h 2 v.place).trans (by rw [v.place_eq]; rfl)
      | some (.service v) => exact (h 2 v.place).trans (by rw [v.place_eq]; rfl)
      | some (.faultKind k) => exact (h 2 k.place).trans (by rw [k.place_eq]; rfl)
      | some (.reason w) => exact (h 2 w.place).trans (by rw [PickReason.place_eq]; rfl)

/-! ### The choice of a return target -/

section
variable {s : State} {st t cls n : Nat}

theorem fitsItem_iff {b : Bin} : fitsItem b t cls = true ↔ b.sizeClass = cls ∧ b.fill + b.reserved + t ≤ b.capacity := by
  simp [fitsItem]

theorem isLaneCandidate_iff : s.isLaneCandidate st t cls n = true ↔
    ∃ b, s.bins.look n = some b ∧ (b.sizeClass = cls ∧ b.fill + b.reserved + t ≤ b.capacity) ∧ b.state = .inLane
      ∧ ∃ x, s.stations.look st = some x ∧ Place.bin n ∈ x.lane := by
  unfold State.isLaneCandidate
  cases hb : s.bins.look n with
  | none => simp
  | some b => cases hx : s.stations.look st <;> simp [fitsItem_iff, State.laneCandidate, hx]

theorem mem_jobs_iff {x : Aisle} {j : Job} : j ∈ x.jobs ↔
    j ∈ x.queue ∨ x.crane.staged = some j ∨ x.crane.active = some j ∨ ∃ r, x.crane.suspension = some r ∧ r.job = j := by
  simp [Aisle.jobs]

/-- No job names the bin: none that is queued, staged, active or held in a suspension record (R55). -/
theorem named_eq_false_iff : s.named n = false ↔
    ∀ e ∈ s.aisles, (∀ j ∈ e.2.queue, j.bin ≠ some n) ∧ (∀ j ∈ e.2.crane.staged, j.bin ≠ some n)
      ∧ (∀ j ∈ e.2.crane.active, j.bin ≠ some n) ∧ ∀ r ∈ e.2.crane.suspension, r.job.bin ≠ some n := by
  simp only [State.named, List.any_eq_false, List.any_eq_true, not_exists, not_and, Job.names, decide_eq_true_eq,
    Option.mem_def]
  simp only [mem_jobs_iff]
  refine forall₂_congr fun e _ => ⟨fun h => ?_, fun h j hj => ?_⟩
  · exact ⟨fun j hj => h j (.inl hj), fun j hj => h j (.inr (.inl hj)), fun j hj => h j (.inr (.inr (.inl hj))),
      fun r hr => h r.job (.inr (.inr (.inr ⟨r, hr, rfl⟩)))⟩
  · obtain ⟨hq, hs, ha, hr⟩ := h
    obtain hj | hj | hj | ⟨r, hr', rfl⟩ := hj
    · exact hq j hj
    · exact hs j hj
    · exact ha j hj
    · exact hr r hr'

theorem zoneNormal_iff {z : Nat} : s.zoneNormal z = true ↔ ∃ x, s.zones.look z = some x ∧ x.state = .normal := by
  cases h : s.zones.look z <;> simp [State.zoneNormal, State.zoneState, h]

theorem rackCandidate_iff {b : Bin} : s.rackCandidate st n b = true ↔
    b.state = .stored ∧ b.next = none ∧ s.named n = false
      ∧ (∃ a, s.aisles.look b.home.aisle = some a ∧ a.service = .inService ∧ s.zoneNormal a.geom.zone = true)
      ∧ ∃ x, s.stations.look st = some x ∧ b.home.aisle ∈ x.loaded.linked := by
  unfold State.rackCandidate
  cases ha : s.aisles.look b.home.aisle <;> cases hx : s.stations.look st <;> simp [and_assoc, and_left_comm]

theorem isRackCandidate_look : s.isRackCandidate st t cls n = true ↔
    ∃ b, s.bins.look n = some b ∧ fitsItem b t cls = true ∧ s.rackCandidate st n b = true := by
  unfold State.isRackCandidate
  cases s.bins.look n <;> simp

theorem isRackCandidate_iff : s.isRackCandidate st t cls n = true ↔
    ∃ b, s.bins.look n = some b ∧ (b.sizeClass = cls ∧ b.fill + b.reserved + t ≤ b.capacity) ∧ b.state = .stored
      ∧ b.next = none
      ∧ (∀ e ∈ s.aisles, (∀ j ∈ e.2.queue, j.bin ≠ some n) ∧ (∀ j ∈ e.2.crane.staged, j.bin ≠ some n)
          ∧ (∀ j ∈ e.2.crane.active, j.bin ≠ some n) ∧ ∀ r ∈ e.2.crane.suspension, r.job.bin ≠ some n)
      ∧ (∃ a, s.aisles.look b.home.aisle = some a ∧ a.service = .inService
          ∧ ∃ z, s.zones.look a.geom.zone = some z ∧ z.state = .normal)
      ∧ ∃ x, s.stations.look st = some x ∧ b.home.aisle ∈ x.loaded.linked := by
  simp only [isRackCandidate_look, fitsItem_iff, rackCandidate_iff, named_eq_false_iff, zoneNormal_iff]

theorem isCandidate_iff : s.isCandidate st t cls n = true ↔
    s.isLaneCandidate st t cls n = true ∨ s.isRackCandidate st t cls n = true := by
  rw [State.isCandidate, Bool.or_eq_true]

/-- Steps 3 to 5 of R53 order the rack candidates one after another. -/
theorem RackOffer.before_iff {x y : RackOffer} : x.before y = true ↔
    x.cost < y.cost ∨ (x.cost = y.cost ∧ (x.left < y.left ∨ (x.left = y.left ∧ x.bin < y.bin))) := by
  simp [RackOffer.before]

theorem RackOffer.before_trans {x y z : RackOffer} (h : x.before y = true) (k : y.before z = true) : x.before z = true := by
  rw [RackOffer.before_iff] at *
  omega

theorem RackOffer.before_of_not {x y : RackOffer} (hne : x ≠ y) (h : y.before x = false) : x.before y = true := by
  have h : ¬ y.before x = true := by simp [h]
  rw [RackOffer.before_iff] at *
  obtain ⟨c, l, b⟩ := x
  obtain ⟨c', l', b'⟩ := y
  have : ¬ (c = c' ∧ l = l' ∧ b = b') := fun ⟨hc, hl, hb⟩ => hne (by rw [hc, hl, hb])
  simp only at *
  omega

theorem bestOffer_eq_none_iff {l : List RackOffer} : bestOffer l = none ↔ l = [] := by
  cases l with
  | nil => simp [bestOffer]
  | cons x l =>
    simp only [bestOffer, reduceCtorEq, iff_false]
    split
    · simp
    · split <;> simp

/-- The best offer of a list is one of it, and comes before every other. -/
theorem bestOffer_spec {l : List RackOffer} {x : RackOffer} (h : bestOffer l = some x) :
    x ∈ l ∧ ∀ y ∈ l, y ≠ x → x.before y = true := by
  induction l generalizing x with
  | nil => cases h
  | cons z l ih =>
    rw [bestOffer] at h
    split at h
    next hb =>
      obtain rfl := Option.some.inj h
      simp [bestOffer_eq_none_iff.1 hb]
    next w hb =>
      obtain ⟨hw, hbest⟩ := ih hb
      split at h
      next hlt =>
        obtain rfl := Option.some.inj h
        refine ⟨List.mem_cons_of_mem _ hw, fun y hy hne => ?_⟩
        obtain rfl | hy := List.mem_cons.1 hy
        · exact hlt
        · exact hbest y hy hne
      next hlt =>
        obtain rfl := Option.some.inj h
        refine ⟨List.mem_cons_self, fun y hy hne => ?_⟩
        have hy := (List.mem_cons.1 hy).resolve_left hne
        by_cases hzw : z = w
        · exact hzw ▸ hbest y hy (hzw ▸ hne)
        · have hzw := RackOffer.before_of_not hzw (by simpa using hlt)
          by_cases hyw : y = w
          · exact hyw ▸ hzw
          · exact RackOffer.before_trans hzw (hbest y hy hyw)

/-- What steps 3 to 5 of R53 compare of a bin. -/
def State.offerOf (s : State) (t n : Nat) (b : Bin) : RackOffer :=
  { cost := s.rackCost b, left := b.capacity - b.fill - b.reserved - t, bin := n }

theorem mem_rackOffers {x : RackOffer} (hw : s.bins.wf = true) : x ∈ s.rackOffers st t cls ↔
    ∃ n b, s.bins.look n = some b ∧ s.isRackCandidate st t cls n = true ∧ x = s.offerOf t n b := by
  simp only [State.rackOffers, List.mem_map, List.mem_filter, Bool.and_eq_true]
  constructor
  · rintro ⟨⟨n, b⟩, ⟨hmem, hfits, hrack⟩, rfl⟩
    have hb := Table.look_of_mem hw hmem
    exact ⟨n, b, hb, isRackCandidate_look.2 ⟨b, hb, hfits, hrack⟩, rfl⟩
  · rintro ⟨n, b, hb, hc, rfl⟩
    obtain ⟨b', hb', hfits, hrack⟩ := isRackCandidate_look.1 hc
    obtain rfl := Option.some.inj (hb.symm.trans hb')
    exact ⟨(n, b), ⟨Table.mem_of_look hb, hfits, hrack⟩, rfl⟩

theorem laneOffer_eq_none_iff : s.laneOffer st t cls = none ↔ ∀ m, s.isLaneCandidate st t cls m = false := by
  unfold State.laneOffer
  constructor
  · intro h m
    by_contra hm
    rw [Bool.not_eq_false] at hm
    obtain ⟨b, -, -, -, x, hx, hmem⟩ := isLaneCandidate_iff.1 hm
    simp only [hx] at h
    simpa [hm] using List.findSome?_eq_none_iff.1 h _ hmem
  · intro h
    split
    · rfl
    · rw [List.findSome?_eq_none_iff]
      rintro (m | l) _ <;> simp [h]

theorem laneOffer_eq_some (h : s.laneOffer st t cls = some n) :
    ∃ x above below, s.stations.look st = some x ∧ x.lane = above ++ Place.bin n :: below
      ∧ s.isLaneCandidate st t cls n = true ∧ ∀ m, Place.bin m ∈ above → s.isLaneCandidate st t cls m = false := by
  unfold State.laneOffer at h
  split at h
  · cases h
  next x hx =>
    obtain ⟨above, p, below, hlane, hp, habove⟩ := List.findSome?_eq_some_iff.1 h
    cases p with
    | tray l => cases hp
    | bin m =>
      simp only [Option.ite_none_right_eq_some, Option.some.injEq] at hp
      obtain ⟨hm, rfl⟩ := hp
      exact ⟨x, above, below, hx, hlane, hm, fun k hk => by simpa using habove _ hk⟩

/-- The best rack offer is a rack candidate, and comes before each other by cost, space left and number. -/
theorem bestOffer_rack (hw : s.bins.wf = true) {x : RackOffer} (h : bestOffer (s.rackOffers st t cls) = some x) :
    s.isRackCandidate st t cls x.bin = true ∧
      ∀ m b c, s.isRackCandidate st t cls m = true → m ≠ x.bin → s.bins.look x.bin = some b → s.bins.look m = some c →
        s.rackCost b < s.rackCost c
        ∨ (s.rackCost b = s.rackCost c
            ∧ (b.capacity - b.fill - b.reserved - t < c.capacity - c.fill - c.reserved - t
              ∨ (b.capacity - b.fill - b.reserved - t = c.capacity - c.fill - c.reserved - t ∧ x.bin < m))) := by
  obtain ⟨hmem, hbest⟩ := bestOffer_spec h
  obtain ⟨n, b, hb, hc, rfl⟩ := (mem_rackOffers hw).1 hmem
  refine ⟨hc, fun m b' c hm hne hb' hcm => ?_⟩
  obtain rfl := Option.some.inj (hb.symm.trans hb')
  have hother : s.offerOf t m c ≠ s.offerOf t n b := fun he => hne (congrArg RackOffer.bin he)
  exact RackOffer.before_iff.1 (hbest _ ((mem_rackOffers hw).2 ⟨m, c, hcm, hm, rfl⟩) hother)

theorem rackOffers_eq_nil_iff (hw : s.bins.wf = true) :
    s.rackOffers st t cls = [] ↔ ∀ n, s.isRackCandidate st t cls n = false := by
  constructor
  · intro h n
    by_contra hn
    rw [Bool.not_eq_false] at hn
    obtain ⟨b, hb, -⟩ := isRackCandidate_look.1 hn
    have : s.offerOf t n b ∈ s.rackOffers st t cls := (mem_rackOffers hw).2 ⟨n, b, hb, hn, rfl⟩
    simp [h] at this
  · intro h
    rw [List.eq_nil_iff_forall_not_mem]
    intro x hx
    obtain ⟨n, b, -, hc, -⟩ := (mem_rackOffers hw).1 hx
    simp [h n] at hc

/-- The three steps of R53: the home bin, where it is a candidate; else the lane candidate nearest the top; else the best
rack candidate. -/
theorem chooseTarget_cases (s : State) (st t cls : Nat) (home : Option Nat) :
    (∃ h, home = some h ∧ s.isCandidate st t cls h = true ∧ s.chooseTarget st t cls home = some h)
    ∨ (∀ h, home = some h → s.isCandidate st t cls h = false) ∧
      ((∃ n, s.laneOffer st t cls = some n ∧ s.chooseTarget st t cls home = some n)
        ∨ s.laneOffer st t cls = none
          ∧ s.chooseTarget st t cls home = (bestOffer (s.rackOffers st t cls)).map (·.bin)) := by
  unfold State.chooseTarget
  split
  next h hh =>
    obtain ⟨hhome, hc⟩ := Option.filter_eq_some_iff.1 hh
    exact .inl ⟨h, hhome, hc, rfl⟩
  next hh =>
    refine .inr ⟨fun h hhome => ?_, ?_⟩
    · simpa [hhome, Option.filter_some] using hh
    · split
      next n hn => exact .inl ⟨n, hn, rfl⟩
      next hn => exact .inr ⟨hn, rfl⟩

theorem rackCost_of_look {b : Bin} {a : Aisle} (ha : s.aisles.look b.home.aisle = some a) :
    s.rackCost b = leg a.geom frontPort b.home.point + 100 * a.queue.length := by
  simp [State.rackCost, ha]

end

/-- Settles O17 (R50, R52 to R54), by the three steps of R53. -/
theorem returnTargetIsTheFirstChoice : Obligations.ReturnTargetIsTheFirstChoice := by
  intro s st t cls home hw
  refine ⟨fun n => isLaneCandidate_iff, fun n => isRackCandidate_iff, fun n => isCandidate_iff,
    fun b a ha => rackCost_of_look ha, fun hnone n => ?none, fun n hn => ?some⟩
  case none =>
    obtain ⟨h, -, -, hsome⟩ | ⟨-, ⟨m, -, hsome⟩ | ⟨hlane, hrack⟩⟩ := chooseTarget_cases s st t cls home
    · simp [hnone] at hsome
    · simp [hnone] at hsome
    · rw [hnone, eq_comm, Option.map_eq_none_iff, bestOffer_eq_none_iff, rackOffers_eq_nil_iff hw] at hrack
      rw [State.isCandidate, laneOffer_eq_none_iff.1 hlane n, hrack n]
      rfl
  case some =>
    obtain ⟨h, hhome, hc, hsome⟩ | ⟨hhome, ⟨m, hlane, hsome⟩ | ⟨hlane, hrack⟩⟩ := chooseTarget_cases s st t cls home
    · obtain rfl := Option.some.inj (hn.symm.trans hsome)
      exact ⟨hc, fun k hk _ => Option.some.inj (hhome.symm.trans hk), fun hno => by simp [hno _ hhome] at hc⟩
    · obtain rfl := Option.some.inj (hn.symm.trans hsome)
      have hfirst := laneOffer_eq_some hlane
      obtain ⟨-, -, -, -, -, hc, -⟩ := id hfirst
      exact ⟨isCandidate_iff.2 (.inl hc), fun k hk hck => by simp [hhome k hk] at hck, fun _ => .inl hfirst⟩
    · rw [hn, eq_comm, Option.map_eq_some_iff] at hrack
      obtain ⟨x, hbest, rfl⟩ := hrack
      obtain ⟨hc, hfirst⟩ := bestOffer_rack hw hbest
      exact ⟨isCandidate_iff.2 (.inr hc), fun k hk hck => by simp [hhome k hk] at hck,
        fun _ => .inr ⟨laneOffer_eq_none_iff.1 hlane, hc, hfirst⟩⟩

end Sys2Proof.Machine
end

section
/-! The loads of LOAD_RECORD: what each stores, when its own rule refuses, and the statements on them. -/
namespace Sys2Proof.Machine

/-- On a canonical table the change of a record that is there replaces it. -/
theorem Table.adjust_eq_put {α : Type} {t : Table α} {n : Nat} {v : α} (f : α → α) (hw : t.wf = true)
    (h : t.look n = some v) : t.adjust n f = t.put n (f v) := by
  induction t with
  | nil => simp at h
  | cons e t ih =>
    obtain ⟨k, w⟩ := e
    by_cases hk : k = n
    · obtain rfl : w = v := by simpa [Table.look, hk] using h
      simp [Table.adjust, Table.put, hk]
    · have ht : Table.look t n = some v := by simpa [Table.look, hk] using h
      have hrise : (k :: Table.numbers t).Pairwise (· < ·) := of_decide_eq_true ((Table.wf_eq _).symm.trans hw)
      obtain ⟨hlt, hrest⟩ := List.pairwise_cons.1 hrise
      have hkn : k < n := hlt n (Table.mem_numbers_of_look ht)
      simp [Table.adjust, Table.put, hk, Nat.not_lt.2 hkn.le, ih (by rw [Table.wf_eq]; exact decide_eq_true hrest) ht]

section
variable {α : Type} {t : Table α}

/-- A check made of every record of a canonical table, said of the numbers that have one. -/
theorem Table.all_iff_look (hw : t.wf = true) (p : Nat × α → Bool) :
    t.all p = true ↔ ∀ n v, t.look n = some v → p (n, v) = true := by
  rw [List.all_eq_true]
  exact ⟨fun h n v hv => h _ (Table.mem_of_look hv), fun h e he => h _ _ (Table.look_of_mem hw he)⟩

theorem Table.any_iff_look (hw : t.wf = true) (p : Nat × α → Bool) :
    t.any p = true ↔ ∃ n v, t.look n = some v ∧ p (n, v) = true := by
  rw [List.any_eq_true]
  exact ⟨fun ⟨e, he, hp⟩ => ⟨_, _, Table.look_of_mem hw he, hp⟩, fun ⟨n, v, hv, hp⟩ => ⟨_, Table.mem_of_look hv, hp⟩⟩
end

/-! ### Verdicts and their replies -/

@[simp] theorem State.answer_accept (s u : State) (tag : Nat) (r : Result) :
    s.answer tag (.accept u r) = u.acceptOrder tag r := rfl

@[simp] theorem State.answer_refuse (s : State) (tag : Nat) (c : RefusalCode) (d : Nat) :
    s.answer tag (.refuse c d) = s.refuseOrder tag c d := rfl

theorem State.answer_badFieldUnless (s : State) (tag : Nat) (ok : Bool) (v : Verdict) :
    s.answer tag (badFieldUnless ok v) = if ok then s.answer tag v else s.refuseOrder tag .badField 0 := by
  cases ok <;> rfl

/-- The checks of an order are judged in turn. -/
theorem State.answer_checks_cons (s : State) (tag : Nat) (b : Bool) (c : RefusalCode) (l : List (Bool × RefusalCode))
    (v : Verdict) : s.answer tag (refuseOr (firstRefusal ((b, c) :: l)) v) =
      if b then s.refuseOrder tag c 0 else s.answer tag (refuseOr (firstRefusal l) v) := by
  cases b <;> rfl

theorem State.answer_checks_nil (s : State) (tag : Nat) (v : Verdict) :
    s.answer tag (refuseOr (firstRefusal []) v) = s.answer tag v := rfl

theorem State.isInService_of_mode {s : State} (h : s.mode = .inService) : s.isInService = true := by
  simp [State.isInService, h]

theorem State.isInService_of_commissioning {s : State} (h : s.mode = .commissioning) : s.isInService = false := by
  simp [State.isInService, h]

theorem State.lockedInService_of_commissioning {s : State} (h : s.mode = .commissioning) (v : Verdict) :
    s.lockedInService v = v := by simp [State.lockedInService, State.isInService_of_commissioning h]

theorem State.lockedInService_of_inService {s : State} (h : s.mode = .inService) (v : Verdict) :
    s.lockedInService v = .refuse .locked 0 := by simp [State.lockedInService, State.isInService_of_mode h]

section
variable {s : State} {tag : Nat} (hr : s.receives tag = true) (hh : s.isHalted = false)
include hr hh

/-- A load that is taken in COMMISSIONING alone. -/
theorem load_of_commissioning (hm : s.mode = .commissioning) (i : Instr) (rule : State → Verdict) :
    s.order i (fun s => s.judgeOrder .loadRecord tag true fun s => s.lockedInService (rule s))
      = .next (s.answer tag (rule s)) := by
  rw [order_load hr hh i rfl, State.lockedInService_of_commissioning hm]

theorem load_of_inService (hm : s.mode = .inService) (i : Instr) (rule : State → Verdict) :
    s.order i (fun s => s.judgeOrder .loadRecord tag true fun s => s.lockedInService (rule s))
      = .next (s.refuseOrder tag .locked 0) := by
  rw [order_load hr hh i rfl, State.lockedInService_of_inService hm, State.answer_refuse]

/-- A load with the key line read: its own rule is judged with the line as it was read. -/
theorem load_keyed (i : Instr) (key : Bool) (rule : State → Verdict) :
    s.order i (fun s => (s.setKeyLine key).judgeOrder .loadRecord tag true rule)
      = .next ((s.setKeyLine key).answer tag (rule (s.setKeyLine key))) := by
  obtain ⟨hp, ht⟩ := (receives_iff s tag).1 hr
  rw [order_of_portOpen hp]
  exact congrArg _ (judgeOrder_of_pass (s := s.setKeyLine key) ht (.inl hh) (.inr rfl) rule)
end

/-! ### What the loads store -/

section
variable {s : State}

theorem State.storeZone_eq (hw : s.zones.wf = true) (z w : Nat) : s.storeZone z w =
    { s with
      zones := s.zones.put z
        (match s.zones.look z with
         | some x => { x with window := w }
         | none => Zone.created w) } := by
  unfold State.storeZone
  cases h : s.zones.look z with
  | none => rfl
  | some x => simp only [State.modZone, Table.adjust_eq_put _ hw h]

theorem State.storeConcentrator_eq (hw : s.concentrators.wf = true) (n ad z p : Nat) : s.storeConcentrator n ad z p =
    { s with
      concentrators := s.concentrators.put n
        (match s.concentrators.look n with
         | some c => { c with address := ad, zone := z, period := p }
         | none => Concentrator.created ad z p) } := by
  unfold State.storeConcentrator
  cases h : s.concentrators.look n with
  | none => rfl
  | some c => simp only [State.modConcentrator, Table.adjust_eq_put _ hw h]

theorem State.storeShutter_eq (hw : s.shutters.wf = true) (n ad z : Nat) : s.storeShutter n ad z =
    { s with
      shutters := s.shutters.put n
        (match s.shutters.look n with
         | some h => { h with address := ad, zone := z }
         | none => Shutter.created ad z) } := by
  unfold State.storeShutter
  cases h : s.shutters.look n with
  | none => rfl
  | some c => simp only [State.modShutter, Table.adjust_eq_put _ hw h]

theorem State.storeStation_eq (hw : s.stations.wf = true) (st : Nat) (f : StationFields) : s.storeStation st f =
    { s with
      stations := s.stations.put st
        (match s.stations.look st with
         | some x => { x with loaded := f }
         | none => Station.created f) } := by
  unfold State.storeStation
  cases h : s.stations.look st with
  | none => rfl
  | some c => simp only [State.modStation, Table.adjust_eq_put _ hw h]

/-- The station shutter is named by no other station (R141). -/
theorem State.shutterFree_iff (hw : s.stations.wf = true) (st : Nat) (f : StationFields) : s.shutterFree st f = true ↔
    ∀ m x k, s.stations.look m = some x → x.loaded.shutter = some k → f.shutter = some k → m = st := by
  unfold State.shutterFree
  cases hf : f.shutter with
  | none => simp
  | some n =>
    simp only [Table.all_iff_look hw, Bool.or_eq_true, decide_eq_true_eq, Bool.not_eq_true', decide_eq_false_iff_not,
      Option.some.injEq]
    constructor
    · rintro h m x k hx hk rfl
      exact (h m x hx).resolve_right (not_not.2 hk)
    · intro h m x hx
      by_cases hk : x.loaded.shutter = some n
      · exact .inl (h m x n hx hk rfl)
      · exact .inr hk
end

theorem tablesLawful_iff (s : State) : s.tablesLawful = true ↔
    s.aisles.wf = true ∧ s.stations.wf = true ∧ s.zones.wf = true ∧ s.concentrators.wf = true ∧ s.shutters.wf = true
      ∧ s.addresses.wf = true ∧ s.classes.wf = true ∧ s.bins.wf = true ∧ s.items.wf = true := by
  simp only [State.tablesLawful, Bool.and_eq_true, and_assoc]

/-- Settles O22: each record load stores what its `store…_eq` lemma says, behind the ranges of its fields. -/
theorem recordLoadsSetLoadedFields : Obligations.RecordLoadsSetLoadedFields := by
  intro tag s hr hh hm ht
  obtain ⟨-, hst, hz, hc, hsh, -, -, -, -⟩ := (tablesLawful_iff s).1 ht
  refine ⟨fun z w => ?_, fun n ad z p => ?_, fun n ad z => ?_, fun st f hf h4 hfree => ?_, fun st f hbad => ?_⟩
  · refine (load_of_commissioning hr hh hm _ _).trans ?_
    rw [State.answer_badFieldUnless, State.answer_accept, State.storeZone_eq hz]
    rfl
  · refine (load_of_commissioning hr hh hm _ _).trans ?_
    rw [State.answer_badFieldUnless, State.answer_accept, State.storeConcentrator_eq hc]
    rfl
  · refine (load_of_commissioning hr hh hm _ _).trans ?_
    rw [State.answer_badFieldUnless, State.answer_accept, State.storeShutter_eq hsh]
    rfl
  · refine (load_of_commissioning hr hh hm _ _).trans ?_
    rw [State.answer_badFieldUnless, State.answer_accept, State.storeStation_eq hst, hf, h4,
      (State.shutterFree_iff hst st f).2 hfree]
    rfl
  · refine (load_of_commissioning hr hh hm _ _).trans ?_
    have hno : (within 1 4 st && stationFieldsInRange f && s.shutterFree st f) = false := by
      rw [← Bool.not_eq_true, Bool.and_eq_true, Bool.and_eq_true, State.shutterFree_iff hst]
      rintro ⟨⟨h4, hf⟩, hfree⟩
      rcases hbad with h | h | ⟨m, x, k, hx, hk, hfk, hne⟩
      · simp [hf] at h
      · simp [h4] at h
      · exact hne (hfree m x k hx hk hfk)
    rw [State.answer_badFieldUnless, hno]
    rfl

end Sys2Proof.Machine
end

section
/-! Geometry loads and retry lists (O23), field addresses, classes and settings (O24). -/
namespace Sys2Proof.Machine

section
variable {s : State}

theorem State.storeGeometry_of_look {a : Nat} {g : Geometry} {x : Aisle} (hw : s.aisles.wf = true)
    (hx : s.aisles.look a = some x) : s.storeGeometry a g = { s with aisles := s.aisles.put a { x with geom := g } } := by
  simp only [State.storeGeometry, hx, State.modAisle, Table.adjust_eq_put _ hw hx]

theorem State.storeGeometry_of_look_none {a : Nat} {g : Geometry} (hx : s.aisles.look a = none) :
    s.storeGeometry a g = ({ s with aisles := s.aisles.put a (Aisle.created g) }.report .aisleState (.aisle a)
      (some (.service .inService))) := by
  simp only [State.storeGeometry, hx, State.setAisles]

theorem State.storeOffsets_of_look {a : Nat} {l : List (Int × Int)} {x : Aisle} (hw : s.aisles.wf = true)
    (hx : s.aisles.look a = some x) : s.storeOffsets a l = { s with aisles := s.aisles.put a { x with retry := l } } := by
  simp only [State.storeOffsets, State.modAisle, Table.adjust_eq_put _ hw hx]

theorem fitsRework_iff (a : Nat) (g : Geometry) (v : Slot) : fitsRework a g v = true ↔
    (v.aisle = a → within 1 g.bays v.bay = true ∧ within 1 g.levels v.level = true) := by
  by_cases h : v.aisle = a <;> simp [fitsRework, h]

/-- No slot of a bin falls out of bounds (R5). -/
theorem State.reworkFits_iff (hw : s.bins.wf = true) (a : Nat) (g : Geometry) : s.reworkFits a g = true ↔
    ∀ n b v, s.bins.look n = some b → (v = b.home ∨ b.pendingHome = some v) → v.aisle = a →
      within 1 g.bays v.bay = true ∧ within 1 g.levels v.level = true := by
  rw [State.reworkFits, Table.all_iff_look hw]
  refine forall₂_congr fun n b => ?_
  simp only [Bool.and_eq_true, fitsRework_iff, Option.all_eq_true]
  constructor
  · rintro h v hb (rfl | hv)
    · exact (h hb).1
    · exact (h hb).2 v hv
  · exact fun h hb => ⟨h _ hb (.inl rfl), fun v hv => h v hb (.inr hv)⟩

/-- The rework is refused LOCKED where it is not open (R5). -/
theorem State.reworkVerdict_of_closed {a : Nat} {g : Geometry}
    (h : ∀ x, s.aisles.look a = some x → s.reworkOpen x = false) : s.reworkVerdict a g = .refuse .locked 0 := by
  unfold State.reworkVerdict
  cases hx : s.aisles.look a with
  | none => rfl
  | some x => simp [firstRefusal, refuseOr, h x hx]

theorem State.reworkOpen_iff (x : Aisle) : s.reworkOpen x = true ↔ s.keyLine = true ∧ x.service = .outOfService := by
  simp [State.reworkOpen]

/-- With the key and the aisle OUT_OF_SERVICE: the zone, the ranges and the slots, in that order (R5). -/
theorem State.reworkVerdict_of_open {a : Nat} {g : Geometry} {x : Aisle} (hx : s.aisles.look a = some x)
    (ho : s.reworkOpen x = true) : s.reworkVerdict a g =
      if g.zone = x.geom.zone then
        if geometryInRange g then
          if s.reworkFits a g then .accept (s.modAisle a (Aisle.rework g)) .empty else .refuse .outOfBounds 0
        else .refuse .badField 0
      else .refuse .locked 0 := by
  simp only [State.reworkVerdict, hx, ho]
  by_cases hz : g.zone = x.geom.zone
  · cases hg : geometryInRange g <;> cases hf : s.reworkFits a g <;> simp [firstRefusal, refuseOr, hz]
  · simp [firstRefusal, refuseOr, hz]

theorem Aisle.rework_eq (g : Geometry) (x : Aisle) : x.rework g =
    { x with
      geom := g
      crane := { x.crane with
        position := if g.bays = x.geom.bays ∧ g.levels = x.geom.levels then x.crane.position else none } } := by
  unfold Aisle.rework
  by_cases h : g.bays = x.geom.bays ∧ g.levels = x.geom.levels
  · rw [if_pos h, if_pos ⟨h.1.symm, h.2.symm⟩]
  · rw [if_neg h, if_neg fun h' => h ⟨h'.1.symm, h'.2.symm⟩]

variable {tag a : Nat} {g : Geometry} {l : List (Int × Int)} {key : Bool}
  (hr : s.receives tag = true) (hh : s.isHalted = false)
include hr hh

/-- A geometry load in COMMISSIONING (R1). -/
theorem exec_loadGeometry_of_commissioning (hm : s.mode = .commissioning) :
    exec (.loadGeometryRecord tag a g key) s = .next ((s.setKeyLine key).answer tag
      (badFieldUnless (within 1 6 a && geometryInRange g) (.accept ((s.setKeyLine key).storeGeometry a g) .empty))) := by
  refine (load_keyed hr hh _ key _).trans ?_
  simp [State.isInService, hm]

/-- A geometry load in IN_SERVICE (R5). -/
theorem exec_loadGeometry_of_inService (hm : s.mode = .inService) :
    exec (.loadGeometryRecord tag a g key) s = .next ((s.setKeyLine key).answer tag
      ((s.setKeyLine key).reworkVerdict a g)) := by
  refine (load_keyed hr hh _ key _).trans ?_
  simp [State.isInService, hm]

theorem exec_loadOffsets : exec (.loadRetryOffsetList tag a l key) s = .next ((s.setKeyLine key).answer tag
    (match s.aisles.look a with
     | none => .refuse (if s.isInService then .locked else .badField) 0
     | some x =>
       if s.isInService && !(s.setKeyLine key).reworkOpen x then .refuse .locked 0
       else badFieldUnless (offsetsInRange l) (.accept ((s.setKeyLine key).storeOffsets a l) .empty))) :=
  load_keyed hr hh _ key _

/-- A load of an aisle that is not open to the keyed rework (R5, R69). -/
theorem load_of_closed (hm : s.mode = .inService)
    (h : ∀ x, s.aisles.look a = some x → (s.setKeyLine key).reworkOpen x = false) :
    exec (.loadGeometryRecord tag a g key) s = .next ((s.setKeyLine key).refuseOrder tag .locked 0)
    ∧ exec (.loadRetryOffsetList tag a l key) s = .next ((s.setKeyLine key).refuseOrder tag .locked 0) := by
  constructor
  · rw [exec_loadGeometry_of_inService hr hh hm, State.reworkVerdict_of_closed (by simpa using h), State.answer_refuse]
  · rw [exec_loadOffsets hr hh]
    cases hx : s.aisles.look a with
    | none => simp [State.isInService, hm]
    | some x => simp [State.isInService, hm, h x hx]

end

/-- Settles O23: the load in COMMISSIONING by `storeGeometry_of_look(_none)`, the rework by `reworkVerdict_of_open` and
`reworkVerdict_of_closed`. -/
theorem geometryLoadsCreateAndRework : Obligations.GeometryLoadsCreateAndRework := by
  intro tag a g l key s hr hh ht
  obtain ⟨hw, -, -, -, -, -, -, hb, -⟩ := (tablesLawful_iff s).1 ht
  have hopen : ∀ x, key = true → x.service = .outOfService → (s.setKeyLine key).reworkOpen x = true :=
    fun x hk ho => (State.reworkOpen_iff x).2 ⟨hk, ho⟩
  refine ⟨fun hm hg => ?_, fun hm hg => ?_, fun hm hx => ?_, fun x hx ho => ?_, fun hm hc => ?_,
    fun x hx hm hk ho => ⟨fun hz => ?_, fun hz hg => ?_⟩, fun x hx hm hk ho hz hg => ⟨fun hfit => ?_, fun hout => ?_⟩⟩
  · rw [exec_loadGeometry_of_commissioning hr hh hm, hg]
    cases hx : s.aisles.look a with
    | none => rw [State.storeGeometry_of_look_none (s := s.setKeyLine key) hx]; rfl
    | some x => rw [State.storeGeometry_of_look (s := s.setKeyLine key) hw hx]; rfl
  · rw [exec_loadGeometry_of_commissioning hr hh hm, hg]
    rfl
  · rw [exec_loadOffsets hr hh, hx]
    simp [State.isInService, hm]
  · have hpass : (s.isInService && !(s.setKeyLine key).reworkOpen x) = false := by
      rcases ho with hm | ⟨hk, ho⟩
      · simp [State.isInService, hm]
      · simp [hopen x hk ho]
    simp only [exec_loadOffsets hr hh, hx, hpass, Bool.false_eq_true, if_false, State.answer_badFieldUnless]
    rw [State.storeOffsets_of_look (s := s.setKeyLine key) hw hx]
    rfl
  · refine load_of_closed hr hh hm fun x hx => ?_
    rw [← Bool.not_eq_true, State.reworkOpen_iff]
    rintro ⟨hk, ho⟩
    rcases hc with hc | hc
    · exact absurd (hc.symm.trans hk) (by decide)
    · exact hc x hx ho
  · rw [exec_loadGeometry_of_inService hr hh hm, State.reworkVerdict_of_open (s := s.setKeyLine key) hx (hopen x hk ho),
      if_neg hz]
    rfl
  · rw [exec_loadGeometry_of_inService hr hh hm, State.reworkVerdict_of_open (s := s.setKeyLine key) hx (hopen x hk ho),
      if_pos hz, hg]
    rfl
  · have hf : (s.setKeyLine key).reworkFits a g = true := (State.reworkFits_iff (s := s.setKeyLine key) hb a g).2 hfit
    rw [exec_loadGeometry_of_inService hr hh hm, State.reworkVerdict_of_open (s := s.setKeyLine key) hx (hopen x hk ho),
      if_pos hz, hg, hf]
    simp only [State.modAisle, if_true]
    rw [Table.adjust_eq_put _ (t := (s.setKeyLine key).aisles) hw hx, Aisle.rework_eq]
    rfl
  · have hf : (s.setKeyLine key).reworkFits a g = false := by
      rw [← Bool.not_eq_true, State.reworkFits_iff (s := s.setKeyLine key) hb]
      intro hfit
      obtain ⟨n, b, v, hn, hv, ha, hbad⟩ := hout
      obtain ⟨hbay, hlevel⟩ := hfit n b v hn hv ha
      rcases hbad with h | h
      · exact absurd (hbay.symm.trans h) (by decide)
      · exact absurd (hlevel.symm.trans h) (by decide)
    rw [exec_loadGeometry_of_inService hr hh hm, State.reworkVerdict_of_open (s := s.setKeyLine key) hx (hopen x hk ho),
      if_pos hz, hg, hf]
    rfl

/-! ### Field addresses -/

/-- The role and index stand at no other address (R192). -/
theorem State.deviceFree_iff {s : State} (hw : s.addresses.wf = true) (ad : Nat) (d : Device) :
    s.deviceFree ad d = true ↔ ∀ m, s.addresses.look m = some d → m = ad := by
  simp only [State.deviceFree, Table.all_iff_look hw, Bool.or_eq_true, decide_eq_true_eq, Bool.not_eq_true',
    decide_eq_false_iff_not]
  constructor
  · exact fun h m hm => (h m d hm).resolve_right (not_not.2 rfl)
  · intro h m v hm
    by_cases hv : v = d
    · exact .inl (h m (hv ▸ hm))
    · exact .inr hv

/-- The highest index of a role (R192). -/
def highestIndex : Role → Nat
  | .crane => 6
  | .station => 4
  | .shutter => 8
  | .concentrator => 16

theorem deviceInRange_eq (d : Device) : deviceInRange d = within 1 (highestIndex d.role) d.index := by
  obtain ⟨r, i⟩ := d
  cases r <;> rfl

/-- Settles O24: behind the mode lock each load is the ranges of its fields, and for an address that its device is free. -/
theorem addressClassAndSettingsLoads : Obligations.AddressClassAndSettingsLoads := by
  intro tag s hr hh ht
  obtain ⟨-, -, -, -, -, hw, -, -, -⟩ := (tablesLawful_iff s).1 ht
  refine ⟨fun hm => ⟨fun ad d hd hfree => ?_, fun ad m d hd hne => ?_, fun ad d hbad => ?_, fun ad => ?_, fun k c => ?_,
    fun c p h => ?_⟩, fun hm i hi => ?_⟩
  · refine (load_of_commissioning hr hh hm _ _).trans ?_
    have hok : (within 1 63 ad && deviceInRange d && s.deviceFree ad d) = true := by
      rw [deviceInRange_eq, (State.deviceFree_iff hw ad d).2 hfree, Bool.and_true]
      exact hd
    simp only [State.answer_badFieldUnless, hok]
    rfl
  · refine (load_of_commissioning hr hh hm _ _).trans ?_
    have hno : s.deviceFree ad d = false := by
      rw [← Bool.not_eq_true, State.deviceFree_iff hw]
      exact fun h => hne (h m hd)
    simp only [State.answer_badFieldUnless, hno, Bool.and_false]
    rfl
  · refine (load_of_commissioning hr hh hm _ _).trans ?_
    have hno : (within 1 63 ad && deviceInRange d && s.deviceFree ad d) = false := by
      rw [deviceInRange_eq]
      rcases hbad with h | h
      · simp [h]
      · rw [show within 1 (highestIndex d.role) d.index = false from h]
        simp
    simp only [State.answer_badFieldUnless, hno]
    rfl
  · refine (load_of_commissioning hr hh hm _ _).trans ?_
    simp only [State.answer_badFieldUnless]
    rfl
  · refine (load_of_commissioning hr hh hm _ _).trans ?_
    rw [State.answer_badFieldUnless]
    rfl
  · refine (load_of_commissioning hr hh hm _ _).trans ?_
    rw [State.answer_badFieldUnless]
    rfl
  · rcases hi with ⟨ad, d, rfl⟩ | ⟨k, c, rfl⟩ | ⟨c, p, h, rfl⟩ | ⟨z, w, rfl⟩ | ⟨n, ad, z, p, rfl⟩ | ⟨n, ad, z, rfl⟩ | ⟨st, f, rfl⟩ <;>
      exact load_of_inService hr hh hm _ _

end Sys2Proof.Machine
end

section
/-! Loads of the Bin Map (O25). -/
namespace Sys2Proof.Machine

theorem sideOf_eq_some_iff (k : Nat) (d : Side) : sideOf k = some d ↔ k = (match d with
    | .left => 1
    | .right => 2) := by
  cases d
  all_goals
    unfold sideOf
    split <;> simp_all

/-- A slot of an order, as the ranges and the side numbers have it (R2). -/
theorem slotOf_eq_some_iff (f : SlotField) (v : Slot) : slotOf f = some v ↔
    within 1 6 f.aisle = true ∧ within 1 120 f.bay = true ∧ within 1 24 f.level = true
      ∧ v.aisle = f.aisle ∧ v.bay = f.bay ∧ v.level = f.level
      ∧ f.side = (match v.side with
          | .left => 1
          | .right => 2) := by
  obtain ⟨a, b, l, d⟩ := v
  unfold slotOf
  by_cases h : (within 1 6 f.aisle && within 1 120 f.bay && within 1 24 f.level) = true
  · obtain ⟨⟨h1, h2⟩, h3⟩ := by simpa only [Bool.and_eq_true] using h
    simp only [h1, h2, h3, Bool.and_self, if_true, Option.map_eq_some_iff, sideOf_eq_some_iff, Slot.mk.injEq, true_and]
    constructor
    · rintro ⟨d, hd, rfl, rfl, rfl, rfl⟩
      exact ⟨rfl, rfl, rfl, hd⟩
    · rintro ⟨rfl, rfl, rfl, hd⟩
      exact ⟨d, hd, rfl, rfl, rfl, rfl⟩
  · rw [if_neg h]
    simp only [Bool.and_eq_true, not_and] at h
    simp only [reduceCtorEq, false_iff, not_and]
    exact fun h1 h2 h3 => absurd h3 (h ⟨h1, h2⟩)

section
variable {s : State} {n cap cls : Nat} {home : SlotField}

/-- The bin fields in their ranges, with the home slot that they give (R12, R13). -/
theorem binFields_eq_some_iff (v : Slot) : binFields n home cap cls = some v ↔
    n ≤ 16383 ∧ within 50 1000 cap = true ∧ cls ≤ 7 ∧ slotOf home = some v := by
  have hn : binNumberInRange n = true ↔ n ≤ 16383 := by simp [binNumberInRange, within_iff, Config.maxBin]
  have hc : sizeClassInRange cls = true ↔ cls ≤ 7 := by simp [sizeClassInRange, within_iff]
  unfold binFields
  by_cases h : (binNumberInRange n && capacityInRange cap && sizeClassInRange cls) = true
  · obtain ⟨⟨h1, h2⟩, h3⟩ := by simpa only [Bool.and_eq_true] using h
    rw [if_pos h]
    exact ⟨fun hv => ⟨hn.1 h1, h2, hc.1 h3, hv⟩, fun hv => hv.2.2.2⟩
  · rw [if_neg h]
    simp only [Bool.and_eq_true, not_and] at h
    simp only [reduceCtorEq, false_iff, not_and]
    exact fun h1 h2 h3 => absurd (hc.2 h3) (h ⟨hn.2 h1, h2⟩)

theorem State.slotInBounds_iff (v : Slot) : s.slotInBounds v = true ↔
    ∃ x, s.aisles.look v.aisle = some x ∧ within 1 x.geom.bays v.bay = true ∧ within 1 x.geom.levels v.level = true := by
  unfold State.slotInBounds
  cases s.aisles.look v.aisle <;> simp

theorem State.slotTaken_iff (hw : s.bins.wf = true) (v : Slot) : s.slotTaken v = true ↔
    ∃ m b, s.bins.look m = some b ∧ (b.home = v ∨ b.pendingHome = some v) := by
  rw [State.slotTaken, Table.any_iff_look hw]
  simp only [Bool.or_eq_true, decide_eq_true_eq]

theorem State.named_iff : s.named n = true ↔ ∃ e ∈ s.aisles, ∃ j ∈ e.2.jobs, j.bin = some n := by
  simp [State.named, Job.names]

variable {tag : Nat} (hr : s.receives tag = true) (hh : s.isHalted = false)
include hr hh

/-- BIN_MAP_ADD with good fields: the number, the bounds and the slot, in that order (R13). -/
theorem exec_binMapAdd_of_fields {v : Slot} (hf : binFields n home cap cls = some v) :
    exec (.binMapAdd tag n home cap cls) s = .next (s.answer tag
      (refuseOr
        (firstRefusal
          [ ((s.bins.look n).isSome, .badField)
          , (s.isInService && !s.slotInBounds v, .outOfBounds)
          , (s.isInService && s.slotTaken v, .slotTaken) ])
        (.accept (s.setBins (s.bins.put n (Bin.created v cap cls))) .empty))) := by
  refine (order_load hr hh _ rfl _).trans ?_
  simp only [hf]

theorem exec_binMapAdd_of_badFields (hf : binFields n home cap cls = none) :
    exec (.binMapAdd tag n home cap cls) s = .next (s.refuseOrder tag .badField 0) := by
  refine (order_load hr hh _ rfl _).trans ?_
  simp only [hf, State.answer_refuse]

/-- BIN_MAP_EDIT in COMMISSIONING (R12). -/
theorem exec_binMapEdit_of_commissioning (hm : s.mode = .commissioning) :
    exec (.binMapEdit tag n home cap cls) s = .next (s.answer tag (s.redescribeVerdict n home cap cls)) := by
  refine (order_load hr hh _ rfl _).trans ?_
  simp [State.isInService, hm]

/-- BIN_MAP_EDIT in IN_SERVICE (R15). -/
theorem exec_binMapEdit_of_inService (hm : s.mode = .inService) :
    exec (.binMapEdit tag n home cap cls) s = .next (s.answer tag (s.rerateVerdict n home cap cls)) := by
  refine (order_load hr hh _ rfl _).trans ?_
  simp [State.isInService, hm]

/-- BIN_MAP_RETIRE of a number in range, or in IN_SERVICE (R12, R14). -/
theorem exec_binMapRetire (hn : s.mode = .commissioning → n ≤ 16383) :
    exec (.binMapRetire tag n) s = .next (s.answer tag
      (match s.bins.look n with
       | none => .refuse .unknownBin 0
       | some b => refuseOr (s.retireRefusal n b) (.accept (s.setBins (s.bins.remove n)) .empty))) := by
  have hpass : (!s.isInService && !binNumberInRange n) = false := by
    cases hm : s.mode with
    | inService => simp [State.isInService, hm]
    | commissioning => simp [binNumberInRange, within_iff, Config.maxBin, hn hm]
  refine (order_load hr hh _ rfl _).trans ?_
  simp only [hpass, Bool.false_eq_true, if_false] <;> rfl

theorem exec_binMapRetire_of_badNumber (hm : s.mode = .commissioning) (hn : 16383 < n) :
    exec (.binMapRetire tag n) s = .next (s.refuseOrder tag .badField 0) := by
  have hno : binNumberInRange n = false := by simp [binNumberInRange, within, Config.maxBin, Nat.not_le.2 hn]
  refine (order_load hr hh _ rfl _).trans ?_
  simp [State.isInService, hm, hno]

/-- BIN_MAP_EDIT of a bin of the Bin Map in IN_SERVICE: the capacity's range, the locked fields, the room (R15). -/
theorem exec_binMapEdit_of_look {b : Bin} (hw : s.bins.wf = true) (hm : s.mode = .inService) (hb : s.bins.look n = some b) :
    exec (.binMapEdit tag n home cap cls) s = .next
      (if within 50 1000 cap then
        if slotOf home = some b.home ∧ cls = b.sizeClass then
          if b.fill + b.reserved ≤ cap then
            { s with bins := s.bins.put n { b with capacity := cap } }.acceptOrder tag .empty
          else s.refuseOrder tag .badField 0
        else s.refuseOrder tag .locked 0
      else s.refuseOrder tag .badField 0) := by
  rw [exec_binMapEdit_of_inService hr hh hm]
  simp only [State.rerateVerdict, hb, capacityInRange, State.modBin, Table.adjust_eq_put _ hw hb]
  simp only [State.answer_checks_cons, State.answer_checks_nil, State.answer_accept]
  by_cases hc : within 50 1000 cap = true
  · by_cases hl : slotOf home = some b.home ∧ cls = b.sizeClass
    · by_cases hf : b.fill + b.reserved ≤ cap
      · simp [hc, hl, hf]
      · simp [hc, hl, hf, Nat.lt_of_not_le]
    · simp [hc, hl]
  · simp [hc]

/-- BIN_MAP_RETIRE of a bin of the Bin Map (R12, R14). -/
theorem exec_binMapRetire_of_look {b : Bin} (hb : s.bins.look n = some b) (hn : s.mode = .commissioning → n ≤ 16383) :
    exec (.binMapRetire tag n) s = .next
      (if s.mode = .inService ∧ b.state = .inDoubt then s.refuseOrder tag .binInDoubt 0
      else if s.mode = .inService ∧ ((b.state ≠ .stored ∧ b.state ≠ .missing) ∨ s.named n = true) then
        s.refuseOrder tag .binBusy 0
      else if b.count = 0 ∧ b.reserved = 0 then { s with bins := s.bins.remove n }.acceptOrder tag .empty
      else s.refuseOrder tag .binBusy 0) := by
  rw [exec_binMapRetire hr hh hn, hb]
  have hempty : (decide (0 < b.count) || decide (0 < b.reserved)) = !decide (b.count = 0 ∧ b.reserved = 0) := by
    simp [Nat.pos_iff_ne_zero]
  simp only [State.retireRefusal, hempty, State.answer_checks_cons, State.answer_checks_nil, State.answer_accept]
  cases hm : s.mode with
  | commissioning => by_cases he : b.count = 0 ∧ b.reserved = 0 <;> simp [State.isInService, hm, he, State.setBins]
  | inService =>
    by_cases hd : b.state = .inDoubt
    · simp [State.isInService, hm, hd]
    · by_cases hs : b.state = .stored ∨ b.state = .missing
      · have hs' : ¬(b.state ≠ .stored ∧ b.state ≠ .missing) := fun h => hs.elim h.1 h.2
        cases hnm : s.named n
        · by_cases he : b.count = 0 ∧ b.reserved = 0 <;>
            simp [State.isInService, hm, hd, hs', he, State.setBins]
        · simp [State.isInService, hm, hd]
      · obtain ⟨hs1, hs2⟩ := not_or.1 hs
        simp [State.isInService, hm, hd, hs1, hs2]
end

/-- Settles O25: each load is the list of its checks, given by the `exec_binMap…` lemmas, judged in order. -/
theorem binMapLoadsAddEditRetire : Obligations.BinMapLoadsAddEditRetire := by
  intro tag n cap cls home s hr hh ht
  obtain ⟨-, -, -, -, -, -, -, hw, -⟩ := (tablesLawful_iff s).1 ht
  have hfields := fun v => (binFields_eq_some_iff (n := n) (cap := cap) (cls := cls) (home := home) v).2
  refine ⟨slotOf_eq_some_iff home, fun v hv hn hs => ?_, fun hv => ⟨?_, fun hm => ?_, fun hm hn => ?_⟩, fun v hv hn => ?_,
    fun v hv hn hm hb => ?_, fun v hv hn hm hb ht => ?_,
    fun hn => ⟨fun hm => ⟨?_, ?_⟩, fun hm => ⟨fun v hv => ?_, fun hle => ?_⟩⟩,
    fun b hb => ⟨fun v hm hv => ?_, fun hm hc => ?_, fun hm hc hl => ?_, fun hm hc hl hcl => ?_, fun hm hd => ?_,
      fun hm hd hbusy => ?_, fun hle hok => ?_⟩⟩
  · have hin : (s.isInService && !s.slotInBounds v) = false ∧ (s.isInService && s.slotTaken v) = false := by
      cases hm : s.mode with
      | commissioning => simp [State.isInService, hm]
      | inService =>
        obtain ⟨hbd, hfree⟩ := hs hm
        have hfree' : s.slotTaken v = false := by
          rw [← Bool.not_eq_true, State.slotTaken_iff hw]
          exact hfree
        simp [(State.slotInBounds_iff v).2 hbd, hfree']
    refine (exec_binMapAdd_of_fields hr hh (hfields v hv)).trans ?_
    simp only [hn, hin, firstRefusal, refuseOr]
    rfl
  · exact exec_binMapAdd_of_badFields hr hh
      (Option.eq_none_iff_forall_ne_some.2 fun v hv' => hv v ((binFields_eq_some_iff v).1 hv'))
  · have hno : binFields n home cap cls = none :=
      Option.eq_none_iff_forall_ne_some.2 fun v hv' => hv v ((binFields_eq_some_iff v).1 hv')
    refine (exec_binMapEdit_of_commissioning hr hh hm).trans ?_
    simp only [State.redescribeVerdict, hno, State.answer_refuse]
  · exact exec_binMapRetire_of_badNumber hr hh hm hn
  · refine (exec_binMapAdd_of_fields hr hh (hfields v hv)).trans ?_
    simp only [hn, firstRefusal, refuseOr]
    rfl
  · have hout : s.slotInBounds v = false := by
      rw [← Bool.not_eq_true, State.slotInBounds_iff]
      exact hb
    refine (exec_binMapAdd_of_fields hr hh (hfields v hv)).trans ?_
    simp only [hn, State.isInService_of_mode hm, hout, firstRefusal, refuseOr]
    rfl
  · refine (exec_binMapAdd_of_fields hr hh (hfields v hv)).trans ?_
    simp only [hn, State.isInService_of_mode hm, (State.slotInBounds_iff v).2 hb, (State.slotTaken_iff hw v).2 ht,
      firstRefusal, refuseOr]
    rfl
  · refine (exec_binMapEdit_of_inService hr hh hm).trans ?_
    simp only [State.rerateVerdict, hn, State.answer_refuse]
  · refine (exec_binMapRetire hr hh (fun hm' => absurd (hm.symm.trans hm') (by decide))).trans ?_
    simp only [hn, State.answer_refuse]
  · refine (exec_binMapEdit_of_commissioning hr hh hm).trans ?_
    simp only [State.redescribeVerdict, hfields v hv, hn, Option.isNone_none, if_true, State.answer_refuse]
  · refine (exec_binMapRetire hr hh fun _ => hle).trans ?_
    simp only [hn, State.answer_refuse]
  · refine (exec_binMapEdit_of_commissioning hr hh hm).trans ?_
    simp only [State.redescribeVerdict, hfields v hv, hb, Option.isNone_some, Bool.false_eq_true, if_false,
      State.answer_accept, State.modBin, Table.adjust_eq_put _ hw hb]
  · refine (exec_binMapEdit_of_look hr hh hw hm hb).trans ?_
    rw [if_neg (by simp [hc])]
  · refine (exec_binMapEdit_of_look hr hh hw hm hb).trans ?_
    rw [if_pos hc, if_neg fun h => hl.elim (· h.1) (· h.2)]
  · refine (exec_binMapEdit_of_look hr hh hw hm hb).trans ?_
    rw [if_pos hc, if_pos ⟨hl, hcl⟩]
    exact apply_ite Host.Outcome.next _ _ _
  · refine (exec_binMapRetire_of_look hr hh hb fun hm' => absurd (hm.symm.trans hm') (by decide)).trans ?_
    rw [if_pos ⟨hm, hd⟩]
  · refine (exec_binMapRetire_of_look hr hh hb fun hm' => absurd (hm.symm.trans hm') (by decide)).trans ?_
    rw [if_neg fun h => hd h.2, if_pos ⟨hm, hbusy.imp_right State.named_iff.2⟩]
  · refine (exec_binMapRetire_of_look hr hh hb hle).trans ?_
    rw [if_neg fun h => (hok h.1).1.elim (fun h' => absurd (h.2.symm.trans h') (by decide))
        fun h' => absurd (h.2.symm.trans h') (by decide),
      if_neg fun h => h.2.elim (fun h' => (hok h.1).1.elim h'.1 h'.2) fun h' => (hok h.1).2 (State.named_iff.1 h')]
    exact apply_ite Host.Outcome.next _ _ _

end Sys2Proof.Machine
end

section
/-! Loads of the Item Directory (O26). -/
namespace Sys2Proof.Machine

theorem itemNumberInRange_eq (n : Nat) : itemNumberInRange n = within 1 4294967295 n := rfl

theorem sizeClassInRange_iff (k : Nat) : sizeClassInRange k = true ↔ k ≤ 7 := by
  simp [sizeClassInRange, within_iff]

theorem binNumberInRange_iff (n : Nat) : binNumberInRange n = true ↔ n ≤ 16383 := by
  simp [binNumberInRange, within_iff, Config.maxBin]

/-- The fields of an item, one of them out of its range (Table 2.1). -/
theorem itemFields_eq_false {m u k : Nat} (h : within 1 4294967295 m = false ∨ within 1 250 u = false ∨ 7 < k) :
    (itemNumberInRange m && thicknessInRange u && sizeClassInRange k) = false := by
  simp only [← Bool.not_eq_true, Bool.and_eq_true, sizeClassInRange_iff] at h ⊢
  rintro ⟨⟨h1, h2⟩, h3⟩
  exact h.elim (· h1) (Or.elim · (· h2) (Nat.not_lt.2 h3))

theorem State.answer_refuseOr (s : State) (tag : Nat) (c : Option RefusalCode) (v : Verdict) :
    s.answer tag (refuseOr c v) = (match c with
      | some c => s.refuseOrder tag c 0
      | none => s.answer tag v) := by cases c <;> rfl

theorem notStoredCode_of_ne {b : BinState} (h : b ≠ .stored) : notStoredCode b =
    some (if b = .missing then .binMissing else if b = .inDoubt then .binInDoubt else .binBusy) := by
  cases b <;> first | exact absurd rfl h | rfl

section
variable {s : State} {n t cls h : Nat} {i : Item} {b : Bin}

/-! ### The room in the home bin -/

/-- The home bin takes an item that is added as SHELVED (R31, R32). -/
theorem State.shelfRefusal_eq_none (hs : s.mode = .inService → b.state = .stored ∧ b.fill + b.reserved + t ≤ b.capacity)
    (hc : s.mode = .commissioning → b.fill + t ≤ 1000) : s.shelfRefusal b t = none := by
  cases hm : s.mode with
  | commissioning =>
    have hfit : ¬1000 < b.fill + t := Nat.not_lt.2 (hc hm)
    simp [State.shelfRefusal, State.isInService, hm, hfit, Config.maxFigure]
  | inService =>
    obtain ⟨hst, hfit⟩ := hs hm
    simp [State.shelfRefusal, State.isInService, hm, hst, notStoredCode, Nat.not_lt.2 hfit]

theorem State.shelfRefusal_of_notStored (hm : s.mode = .inService) (hst : b.state ≠ .stored) : s.shelfRefusal b t =
    some (if b.state = .missing then .binMissing else if b.state = .inDoubt then .binInDoubt else .binBusy) := by
  simp [State.shelfRefusal, State.isInService, hm, notStoredCode_of_ne hst]

theorem State.shelfRefusal_of_full
    (hf : (s.mode = .inService ∧ b.state = .stored ∧ b.capacity < b.fill + b.reserved + t)
      ∨ (s.mode = .commissioning ∧ 1000 < b.fill + t)) : s.shelfRefusal b t = some .badField := by
  rcases hf with ⟨hm, hst, hf⟩ | ⟨hm, hf⟩
  · simp [State.shelfRefusal, State.isInService, hm, hst, notStoredCode, hf]
  · simp [State.shelfRefusal, State.isInService, hm, hf, Config.maxFigure]

theorem State.remeasureFits_of_look (hi : i.home = some h) (hb : s.bins.look h = some b) :
    s.remeasureFits i t = decide (b.fill + t + b.reserved ≤ b.capacity + i.thickness) := by
  simp [State.remeasureFits, hi, hb]

theorem State.remeasureFigures_of_shelved (hst : i.state = .shelved) (hi : i.home = some h) (hb : s.bins.look h = some b) :
    s.remeasureFigures i t = decide (b.fill + t - i.thickness ≤ 1000) := by
  simp [State.remeasureFigures, hi, hb, hst, Bin.remeasure, Config.maxFigure]

theorem State.remeasureFigures_of_held (hst : i.state = .held) (hi : i.home = some h) (hb : s.bins.look h = some b) :
    s.remeasureFigures i t = decide (b.reserved + t - i.thickness ≤ 1000) := by
  simp [State.remeasureFigures, hi, hb, hst, Bin.remeasure, Config.maxFigure]

/-- An item that is LENT or in OVERFLOW stands in no figure (R24). -/
theorem State.remeasureFigures_of_out (hst : i.state = .lent ∨ i.state = .overflow) : s.remeasureFigures i t = true := by
  unfold State.remeasureFigures
  cases i.home.bind s.bins.look with
  | none => rfl
  | some b => rcases hst with hst | hst <;> simp only [hst]

/-! ### What a taken load stores -/

theorem State.storeItem_of_home (hw : s.bins.wf = true) (hi : i.home = some h) (hb : s.bins.look h = some b) :
    s.storeItem n i = { s with
      items := s.items.put n i
      bins := s.bins.put h { b with fill := b.fill + i.thickness, count := b.count + 1 } } := by
  simp only [State.storeItem, hi, State.modBin, State.setItems, Bin.addItem, Table.adjust_eq_put _ hw hb]

theorem State.storeItem_of_homeless (hi : i.home = none) : s.storeItem n i = { s with items := s.items.put n i } := by
  simp only [State.storeItem, hi, State.setItems]

theorem State.remeasureItem_of_home (hwi : s.items.wf = true) (hwb : s.bins.wf = true) (hi : s.items.look n = some i)
    (hh : i.home = some h) (hb : s.bins.look h = some b) : s.remeasureItem n t cls i = { s with
      items := s.items.put n { i with thickness := t, sizeClass := cls }
      bins := s.bins.put h (b.remeasure i.state i.thickness t) } := by
  simp only [State.remeasureItem, State.modHome, hh, State.modBin, State.modItem, Table.adjust_eq_put _ hwi hi,
    Table.adjust_eq_put _ hwb hb]

/-- A change that is none leaves the table. -/
theorem Table.adjust_eq_self {α : Type} (u : Table α) (k : Nat) {f : α → α} (hf : ∀ v, f v = v) : u.adjust k f = u := by
  induction u with
  | nil => rfl
  | cons e u ih =>
    obtain ⟨m, v⟩ := e
    simp [Table.adjust, hf, ih]

theorem State.modHome_eq_self (u : State) (i : Item) {f : Bin → Bin} (hf : ∀ b, f b = b) : u.modHome i f = u := by
  unfold State.modHome
  cases i.home with
  | none => rfl
  | some k => simp only [State.modBin, Table.adjust_eq_self _ _ hf]

/-- An EDIT leaves the bins of an item that stands in no figure (R24). -/
theorem State.remeasureItem_of_out (hw : s.items.wf = true) (hi : s.items.look n = some i)
    (hst : i.state = .lent ∨ i.state = .overflow) :
    s.remeasureItem n t cls i = { s with items := s.items.put n { i with thickness := t, sizeClass := cls } } := by
  have hsame : ∀ b, Bin.remeasure i.state i.thickness t b = b := fun b => by
    rcases hst with hst | hst <;> simp only [hst, Bin.remeasure]
  rw [State.remeasureItem, State.modHome_eq_self _ _ hsame, State.modItem, Table.adjust_eq_put _ hw hi]

theorem State.removeItem_of_shelved (hw : s.bins.wf = true) (hst : i.state = .shelved) (hh : i.home = some h)
    (hb : s.bins.look h = some b) : s.removeItem n i = { s with
      items := s.items.remove n
      bins := s.bins.put h { b with fill := b.fill - i.thickness, count := b.count - 1 } } := by
  simp only [State.removeItem, State.modHome, hh, State.modBin, State.setItems, hst, Bin.removeItem,
    Table.adjust_eq_put _ hw hb]

theorem State.removeItem_of_held (hw : s.bins.wf = true) (hst : i.state = .held) (hh : i.home = some h)
    (hb : s.bins.look h = some b) : s.removeItem n i = { s with
      items := s.items.remove n
      bins := s.bins.put h { b with reserved := b.reserved - i.thickness } } := by
  simp only [State.removeItem, State.modHome, hh, State.modBin, State.setItems, hst, Bin.release,
    Table.adjust_eq_put _ hw hb]

theorem State.removeItem_of_out (hst : i.state = .lent ∨ i.state = .overflow) :
    s.removeItem n i = { s with items := s.items.remove n } := by
  rcases hst with hst | hst
  all_goals
    rw [State.removeItem, State.modHome_eq_self _ _ fun b => by simp only [hst]]
    rfl

/-! ### The three loads, judged in turn -/

section
variable {tag : Nat} (hr : s.receives tag = true) (hh : s.isHalted = false)
include hr hh

/-- ITEM_DIRECTORY_ADD with a state: the fields, the number, the capacity, then the home bin (R32; log 14). -/
theorem exec_itemAdd (v : ItemState) (home : Option Nat) :
    exec (.itemDirectoryAdd tag n t cls (some v) home) s = .next
      (if itemNumberInRange n && thicknessInRange t && sizeClassInRange cls && addCombination v home then
        if (s.items.look n).isSome then s.refuseOrder tag .badField 0
        else if Config.itemCapacity ≤ s.items.length then s.refuseOrder tag .tableFull 0
        else s.answer tag
          (match home with
           | none =>
             .accept (s.storeItem n { thickness := t, sizeClass := cls, state := v, home := home, target := none }) .empty
           | some h =>
             match s.bins.look h with
             | none => .refuse .unknownBin 0
             | some b =>
               refuseOr (s.shelfRefusal b t)
                 (.accept (s.storeItem n { thickness := t, sizeClass := cls, state := v, home := home, target := none })
                   .empty))
      else s.refuseOrder tag .badField 0) := by
  refine (order_load hr hh _ rfl _).trans ?_
  simp only [State.addVerdict, State.answer_checks_cons, State.answer_checks_nil,
    Bool.not_eq_true', ← Bool.not_eq_true, ite_not]
  simp only [decide_eq_true_eq] <;> rfl

theorem exec_itemAdd_of_noState (home : Option Nat) :
    exec (.itemDirectoryAdd tag n t cls none home) s = .next (s.refuseOrder tag .badField 0) :=
  order_load hr hh _ rfl _

/-- ITEM_DIRECTORY_EDIT in COMMISSIONING (R31). -/
theorem exec_itemEdit_of_commissioning (hm : s.mode = .commissioning) :
    exec (.itemDirectoryEdit tag n t cls) s = .next
      (if itemNumberInRange n && thicknessInRange t && sizeClassInRange cls then
        match s.items.look n with
        | none => s.refuseOrder tag .unknownItem 0
        | some i =>
          if s.remeasureFigures i t then (s.remeasureItem n t cls i).acceptOrder tag .empty
          else s.refuseOrder tag .badField 0
      else s.refuseOrder tag .badField 0) := by
  refine (order_load hr hh _ rfl _).trans ?_
  rw [State.isInService_of_commissioning hm]
  simp only [Bool.false_eq_true, if_false, State.describeVerdict, State.answer_badFieldUnless]
  cases s.items.look n with
  | none => rfl
  | some i => simp only [State.answer_badFieldUnless, State.answer_accept]

/-- ITEM_DIRECTORY_EDIT in IN_SERVICE (R33). -/
theorem exec_itemEdit_of_inService (hm : s.mode = .inService) :
    exec (.itemDirectoryEdit tag n t cls) s = .next
      (match s.items.look n with
      | none => s.refuseOrder tag .unknownItem 0
      | some i =>
        if thicknessInRange t then
          if cls = i.sizeClass then
            if i.state = .shelved then
              if s.remeasureFits i t then (s.remeasureItem n t cls i).acceptOrder tag .empty
              else s.refuseOrder tag .badField 0
            else s.refuseOrder tag .itemNotShelved 0
          else s.refuseOrder tag .locked 0
        else s.refuseOrder tag .badField 0) := by
  refine (order_load hr hh _ rfl _).trans ?_
  rw [State.isInService_of_mode hm]
  simp only [if_true, State.editVerdict]
  cases s.items.look n with
  | none => rfl
  | some i =>
    simp only [State.answer_checks_cons, State.answer_checks_nil, State.answer_accept, Bool.not_eq_true',
      ← Bool.not_eq_true, ite_not]
    simp only [decide_eq_true_eq]

/-- ITEM_DIRECTORY_REMOVE (R31, R34). -/
theorem exec_itemRemove (hn : s.mode = .commissioning → itemNumberInRange n = true) :
    exec (.itemDirectoryRemove tag n) s = .next
      (match s.items.look n with
      | none => s.refuseOrder tag .unknownItem 0
      | some i =>
        if s.mode = .inService ∧ i.state ≠ .shelved then s.refuseOrder tag .itemNotShelved 0
        else (s.removeItem n i).acceptOrder tag .empty) := by
  refine (order_load hr hh _ rfl _).trans ?_
  have hpass : (!s.isInService && !itemNumberInRange n) = false := by
    cases hm : s.mode with
    | inService => simp [State.isInService, hm]
    | commissioning => simp [hn hm]
  simp only [hpass, Bool.false_eq_true, if_false]
  cases s.items.look n with
  | none => rfl
  | some i => by_cases hm : s.mode = .inService <;> by_cases hs : i.state = .shelved <;> simp [State.isInService, hm, hs]

theorem exec_itemRemove_of_badNumber (hm : s.mode = .commissioning) (hn : itemNumberInRange n = false) :
    exec (.itemDirectoryRemove tag n) s = .next (s.refuseOrder tag .badField 0) := by
  refine (order_load hr hh _ rfl _).trans ?_
  simp [State.isInService, hm, hn]
end

end

/-- Settles O26: the three loads are the lists of checks of `exec_itemAdd`, `exec_itemEdit_of_…` and `exec_itemRemove`, and
what they store is given by the equations of `storeItem`, `remeasureItem` and `removeItem`. -/
theorem itemDirectoryLoadsMoveTheFigures : Obligations.ItemDirectoryLoadsMoveTheFigures := by
  intro tag n t cls s hr hh ht hn hth hcl
  obtain ⟨-, -, -, -, -, -, -, hwb, hwi⟩ := (tablesLawful_iff s).1 ht
  have hnum : itemNumberInRange n = true := hn
  have hfields : (itemNumberInRange n && thicknessInRange t && sizeClassInRange cls) = true := by
    simp only [Bool.and_eq_true]
    exact ⟨⟨hn, hth⟩, (sizeClassInRange_iff cls).2 hcl⟩
  have hlent : addCombination .lent none = true := rfl
  have hshelf : ∀ h, h ≤ 16383 → addCombination .shelved (some h) = true := fun h hle => (binNumberInRange_iff h).2 hle
  have hroom : s.items.length < 262144 → ¬Config.itemCapacity ≤ s.items.length := Nat.not_le.2
  have hfull : 262144 ≤ s.items.length → Config.itemCapacity ≤ s.items.length := id
  have hsvc : s.mode = .inService → s.mode ≠ .commissioning := fun h h' => absurd (h.symm.trans h') (by decide)
  have hcom : s.mode = .commissioning → s.mode ≠ .inService := fun h h' => hsvc h' h
  have hmode : s.mode = .commissioning ∨ s.mode = .inService := by cases s.mode <;> simp
  refine ⟨fun hno hlen => ⟨?_, fun h b hle hb hs hc => ?_⟩, fun hno hlen => ⟨?_, fun h hle => ?_⟩,
    fun m u k hbad => ⟨fun v home => ?_, fun hm => ?_⟩, fun m hm hbad => ?_, fun hno => ⟨?_, ?_⟩, fun v home hbad => ?_,
    fun v home hsome => ?_,
    fun h hle hno hlen => ⟨fun hb => ?_, fun b hb => ⟨fun hm hst => ?_, fun hf => ?_⟩⟩,
    fun i h b hi hst hhome hb => ⟨fun hs hc => ?_, ?_⟩, fun i h b hi hst hhome hb hm => ⟨fun hf => ?_, ?_⟩,
    fun i hi hm hst => ⟨?_, ?_⟩, fun i h b hi hhome hb hf => ?_, fun i hi hm => ⟨fun u k hu => ?_, fun hc => ?_,
      fun hst => ⟨fun hc => ?_, ?_⟩⟩⟩
  · rw [exec_itemAdd hr hh, hfields, hlent, hno, if_neg (hroom hlen), State.storeItem_of_homeless rfl]
    rfl
  · rw [exec_itemAdd hr hh, hfields, hshelf h hle, hno, if_neg (hroom hlen)]
    simp only [hb, State.answer_refuseOr, State.shelfRefusal_eq_none hs hc]
    rw [State.storeItem_of_home hwb rfl hb]
    rfl
  · rw [exec_itemAdd hr hh, hfields, hlent, hno, if_pos (hfull hlen)]
    rfl
  · rw [exec_itemAdd hr hh, hfields, hshelf h hle, hno, if_pos (hfull hlen)]
    rfl
  · cases v with
    | none => exact exec_itemAdd_of_noState hr hh home
    | some v => rw [exec_itemAdd hr hh, itemFields_eq_false hbad]; rfl
  · rw [exec_itemEdit_of_commissioning hr hh hm, itemFields_eq_false hbad]
    rfl
  · exact exec_itemRemove_of_badNumber hr hh hm hbad
  · rcases hmode with hm | hm
    · rw [exec_itemEdit_of_commissioning hr hh hm, hfields, hno]
      rfl
    · rw [exec_itemEdit_of_inService hr hh hm, hno]
  · rw [exec_itemRemove hr hh fun _ => hnum, hno]
  · cases v with
    | none => exact exec_itemAdd_of_noState hr hh home
    | some v =>
      have hcomb : addCombination v home = false := by
        rcases hbad with ⟨h1, h2⟩ | ⟨h1, rfl⟩ | ⟨h1, h2⟩ | ⟨h, rfl, hbig⟩
        · cases v <;> simp_all [addCombination]
        · obtain rfl := Option.some.inj h1
          rfl
        · obtain rfl := Option.some.inj h1
          cases home with
          | none => exact absurd rfl h2
          | some h => rfl
        · have : binNumberInRange h = false := by
            rw [← Bool.not_eq_true, binNumberInRange_iff]
            exact Nat.not_le.2 hbig
          cases v <;> simp [addCombination, this]
      rw [exec_itemAdd hr hh, hcomb, Bool.and_false]
      rfl
  · rw [exec_itemAdd hr hh, hsome]
    cases addCombination v home <;> simp [hfields]
  · rw [exec_itemAdd hr hh, hfields, hshelf h hle, hno, if_neg (hroom hlen)]
    simp only [hb]
    rfl
  · rw [exec_itemAdd hr hh, hfields, hshelf h hle, hno, if_neg (hroom hlen)]
    simp only [hb, State.answer_refuseOr, State.shelfRefusal_of_notStored hm hst]
    rfl
  · rw [exec_itemAdd hr hh, hfields, hshelf h hle, hno, if_neg (hroom hlen)]
    simp only [hb, State.answer_refuseOr, State.shelfRefusal_of_full hf]
    rfl
  · have hstore : s.remeasureItem n t cls i = { s with
        items := s.items.put n { i with thickness := t, sizeClass := cls }
        bins := s.bins.put h { b with fill := b.fill + t - i.thickness } } := by
      rw [State.remeasureItem_of_home hwi hwb hi hhome hb, hst]
      rfl
    rcases hmode with hm | hm
    · rw [exec_itemEdit_of_commissioning hr hh hm, hfields, hi]
      simp only [State.remeasureFigures_of_shelved hst hhome hb, hc hm, decide_true, if_true, hstore]
    · obtain ⟨hcls, hfit⟩ := hs hm
      rw [exec_itemEdit_of_inService hr hh hm, hi]
      simp only [show thicknessInRange t = true from hth, if_pos hcls, if_pos hst,
        State.remeasureFits_of_look hhome hb, hfit, decide_true, if_true, hstore]
  · rw [exec_itemRemove hr hh fun _ => hnum, hi]
    simp only [hst, ne_eq, not_true, and_false, if_false, State.removeItem_of_shelved hwb hst hhome hb]
  · rw [exec_itemEdit_of_commissioning hr hh hm, hfields, hi]
    simp only [State.remeasureFigures_of_held hst hhome hb, hf, decide_true, if_true,
      State.remeasureItem_of_home hwi hwb hi hhome hb, hst, Bin.remeasure]
  · rw [exec_itemRemove hr hh fun _ => hnum, hi]
    simp only [hcom hm, false_and, if_false, State.removeItem_of_held hwb hst hhome hb]
  · rw [exec_itemEdit_of_commissioning hr hh hm, hfields, hi]
    simp only [State.remeasureFigures_of_out hst, if_true, State.remeasureItem_of_out hwi hi hst]
  · rw [exec_itemRemove hr hh fun _ => hnum, hi]
    simp only [hcom hm, false_and, if_false, State.removeItem_of_out hst]
  · rcases hf with ⟨hm, hst, hf⟩ | ⟨hm, hst, hf⟩ | ⟨hm, hst, hcls, hf⟩
    · rw [exec_itemEdit_of_commissioning hr hh hm, hfields, hi]
      simp [State.remeasureFigures_of_shelved hst hhome hb, Nat.not_le.2 hf]
    · rw [exec_itemEdit_of_commissioning hr hh hm, hfields, hi]
      simp [State.remeasureFigures_of_held hst hhome hb, Nat.not_le.2 hf]
    · rw [exec_itemEdit_of_inService hr hh hm, hi]
      simp [show thicknessInRange t = true from hth, hcls, hst, State.remeasureFits_of_look hhome hb, Nat.not_le.2 hf]
  · rw [exec_itemEdit_of_inService hr hh hm, hi]
    simp [show thicknessInRange u = false from hu]
  · rw [exec_itemEdit_of_inService hr hh hm, hi]
    simp [show thicknessInRange t = true from hth, hc]
  · rw [exec_itemEdit_of_inService hr hh hm, hi]
    simp [show thicknessInRange t = true from hth, hc, hst]
  · rw [exec_itemRemove hr hh fun _ => hnum, hi]
    simp [hm, hst]

end Sys2Proof.Machine
end

section
/-! Reads (O27), unreadable frames and the restart order (O28). -/
namespace Sys2Proof.Machine

section
variable {s : State} {tag : Nat}

theorem State.answer_found (u : State) (r : Option Result) (c : RefusalCode) :
    s.answer tag (found u r c) = (match r with
      | some r => u.acceptOrder tag r
      | none => s.refuseOrder tag c 0) := by cases r <;> rfl

theorem exec_readRecord (hr : s.receives tag = true) (table key : Nat) :
    exec (.readRecord tag table key) s = .next (s.answer tag (s.readVerdict table key)) :=
  order_always hr _ rfl rfl _

/-- QUERY_STATUS answers by the records with the key line as it was read (R201). -/
theorem exec_queryStatus (hr : s.receives tag = true) (scope : Scope) (key pos : Nat) (k : Bool) :
    exec (.queryStatus tag scope key pos k) s =
      .next ((s.setKeyLine k).answer tag ((s.setKeyLine k).statusVerdict scope key pos)) := by
  obtain ⟨hp, ht⟩ := (receives_iff s tag).1 hr
  refine (order_of_portOpen hp _ _).trans ?_
  exact congrArg _ (judgeOrder_of_pass (s := s.setKeyLine k) ht (.inr rfl) (.inr rfl) _)

end

/-- Settles O27: a read is judged by its table's record or its scope, whatever the mode and the Fault Unit. -/
theorem readsReturnRecordsAndChangeNothing : Obligations.ReadsReturnRecordsAndChangeNothing := by
  intro tag key pos k s hr
  have hread : ∀ table r c, s.readVerdict table key = found s r c → exec (.readRecord tag table key) s = .next
      (match r with
      | some r => s.acceptOrder tag r
      | none => s.refuseOrder tag c 0) := fun table r c h => by
    rw [exec_readRecord hr, h, State.answer_found]
  have hquery : ∀ scope r c, (s.setKeyLine k).statusVerdict scope key pos = found (s.setKeyLine k) r c →
      exec (.queryStatus tag scope key pos k) s = .next
        (match r with
        | some r => (s.setKeyLine k).acceptOrder tag r
        | none => (s.setKeyLine k).refuseOrder tag c 0) := fun scope r c h => by
    rw [exec_queryStatus hr, h, State.answer_found]
  have hzone : (s.setKeyLine k).statusVerdict .zone key pos = found (s.setKeyLine k)
      ((s.zones.look key).map fun x =>
        .statusZone x.state x.causes x.windowLeft
          ((s.concentrators.filter fun e => decide (e.2.zone = key)).map (·.2.health))
          ((s.shutters.filter fun e => decide (e.2.zone = key)).map fun e => (e.2.state, e.2.wait))) .badField := by
    simp only [State.statusVerdict, State.zoneConcentrators, List.map_map]
    rfl
  have hstation : (s.setKeyLine k).statusVerdict .station key pos = found (s.setKeyLine k)
      ((s.stations.look key).map fun x =>
        .statusStation (s.laneStatus x) x.inTransit x.overdue.length ((x.overdue.drop pos).take 8) x.returns.length x.hold
          x.mouthOccupied
          (x.lane.length + x.inTransit.length + (s.aisles.map fun e => e.2.crane.claimsOn key).sum)) .badField := by
    simp only [State.statusVerdict, State.setKeyLine_stations, State.claims]
    cases s.stations.look key <;> rfl
  exact ⟨hread 1 _ _ rfl, hread 2 _ _ rfl, hread 3 _ _ rfl, hread 4 _ _ rfl, hread 5 _ _ rfl, hread 6 _ _ rfl,
    hread 7 _ _ rfl, hread 8 _ _ rfl, hread 9 (some _) .badField rfl, hread 10 _ _ rfl, hread 11 _ _ rfl, hread 12 _ _ rfl,
    hread 13 _ _ rfl, hread 14 none .badField rfl, hquery .wing (some _) .badField rfl, hquery .aisle _ _ rfl, hquery .queue _ _ rfl,
    hquery .station _ _ hstation, hquery .zone _ _ hzone, hquery .faults (some _) .badField rfl, order_always hr _ rfl rfl _⟩

theorem State.with_waiting_nil {u : State} (h : u.link.waiting = []) :
    { u with link := { u.link with waiting := [] } } = u := by
  have hlink : { u.link with waiting := [] } = u.link := by rw [← h]
  rw [hlink]

/-- Settles O28: by the port, the checks of R187 and the admission of a field telegram. -/
theorem unreadableFramesAndTheRestartOrder : Obligations.UnreadableFramesAndTheRestartOrder := by
  intro tag k src p l s
  refine ⟨rfl, fun hr => order_always hr _ rfl rfl _, fun h => ?_, fun hp hrep hw => ?_,
    fun hp => ⟨?_, fun ht hk => ?_, fun st items hl => ?_⟩, fun hsrc => ?_, fun d hd hm => ?_⟩
  · have hno : (s.link.restartPending && s.link.replies.isEmpty) = false := by
      rcases h with h | h <;> simp [h]
    exact congrArg _ (if_neg (by simp [hno]))
  · have hkeep : (s.restart .restartOrder).link.waiting = [] := (restart_keeps s .restartOrder).1.trans hw
    have hyes : (s.link.restartPending && s.link.replies.isEmpty) = true := by simp [hp, hrep]
    refine (congrArg Host.Outcome.next (if_pos hyes)).trans ?_
    rw [State.drainPort_of_waiting_nil hkeep, State.with_waiting_nil hkeep]
  · refine (order_of_portOpen hp _ _).trans (congrArg _ ?_)
    have hsome := OrderKind.ofNumber_isSome k
    cases hk : OrderKind.ofNumber k with
    | none => simp [orderUnknown, hk, ← hsome]
    | some o => simp [orderUnknown, hk, ← hsome]
  · refine (order_of_portOpen hp _ _).trans (congrArg _ ?_)
    simp only [orderUnknown, hk, Bool.not_false]
    cases hh : s.isHalted with
    | true =>
      exact State.judgeOrder_of_refusal (by simp [State.orderRefusal, ht, hh, OrderKind.takenInHalted])
    | false => exact judgeOrder_of_pass ht (.inl hh) (.inr rfl) _
  · refine (order_of_portOpen hp _ _).trans (congrArg _ ?_)
    have hno : within 1 8 items.length = false := by
      rw [← Bool.not_eq_true, within_iff]
      omega
    have : s.orderRefusal .requestItem tag (within 1 8 items.length) = some .malformed := by
      simp [State.orderRefusal, hno]
    exact State.judgeOrder_of_refusal this
  · exact congrArg Host.Outcome.next (by simp [hsrc])
  · have hne : s.mode ≠ .commissioning := fun h => absurd (hm.symm.trans h) (by decide)
    refine congrArg Host.Outcome.next ?_
    simp only [hd, if_neg hne]
    rfl

end Sys2Proof.Machine
end

section
/-! The close and the reopening of commissioning: the six checks (O31) and the reopening (O33). -/
namespace Sys2Proof.Machine

section
variable {s : State}

theorem flow_commission (s : State) : Flow (s.setMode .inService) s.commission := by
  unfold State.commission
  generalize s.setMode .inService = u
  exact (((((Flow.refl u).mapConcentrators (fun _ c => c.commission) fun _ _ => ⟨rfl, rfl, rfl⟩).foldl _ _ fun _ z h =>
    h.commissionZone z).foldl _ _ fun _ a h => h.commissionCrane a).foldl _ _ fun _ z h => h.commissionEntry z).settleWing

theorem commission_mode (s : State) : s.commission.mode = .inService := (flow_commission s).mode

/-! ### The checks, said of the numbers that have a record -/

theorem State.homesGood_iff (hw : s.bins.wf = true) : s.homesGood = true ↔
    ∀ n b, s.bins.look n = some b → s.slotInBounds b.home = true
      ∧ ∀ m d, s.bins.look m = some d → d.home = b.home → m = n := by
  rw [State.homesGood, Table.all_iff_look hw]
  refine forall₂_congr fun n b => imp_congr_right fun _ => ?_
  rw [Bool.and_eq_true, Table.all_iff_look hw]
  refine and_congr_right fun _ => forall₂_congr fun m d => imp_congr_right fun _ => ?_
  simp only [Bool.or_eq_true, decide_eq_true_eq, Bool.not_eq_true', decide_eq_false_iff_not]
  constructor
  · exact fun h hd => (h.resolve_right (not_not.2 hd.symm)).symm
  · intro h
    by_cases hd : d.home = b.home
    · exact .inl (h hd).symm
    · exact .inr fun h' => hd h'.symm

theorem State.stationShutterGood_iff (f : StationFields) : s.stationShutterGood f = true ↔
    ∀ k, f.shutter = some k → ∃ h, s.shutters.look k = some h ∧ h.zone = f.zone := by
  unfold State.stationShutterGood
  cases f.shutter with
  | none => simp
  | some n => cases hn : s.shutters.look n <;> simp [hn]

theorem State.zonesGood_iff (ht : s.tablesLawful = true) : s.zonesGood = true ↔
    (∀ a x, s.aisles.look a = some x → (s.zones.look x.geom.zone).isSome = true)
      ∧ (∀ a x, s.stations.look a = some x → (s.zones.look x.loaded.zone).isSome = true
          ∧ ∀ k, x.loaded.shutter = some k → ∃ h, s.shutters.look k = some h ∧ h.zone = x.loaded.zone)
      ∧ (∀ a x, s.concentrators.look a = some x → (s.zones.look x.zone).isSome = true)
      ∧ ∀ a x, s.shutters.look a = some x → (s.zones.look x.zone).isSome = true := by
  obtain ⟨ha, hst, hz, hc, hsh, -, -, -, -⟩ := (tablesLawful_iff s).1 ht
  simp only [State.zonesGood, Bool.and_eq_true, Table.all_iff_look ha, Table.all_iff_look hst, Table.all_iff_look hc,
    Table.all_iff_look hsh, State.zoneDefined, State.stationShutterGood_iff]
  constructor
  · rintro ⟨⟨⟨⟨h1, h2⟩, h3⟩, h4⟩, h5⟩
    exact ⟨h1, fun a x hx => ⟨h2 a x hx, h5 a x hx⟩, h3, h4⟩
  · rintro ⟨h1, h2, h3, h4⟩
    exact ⟨⟨⟨⟨h1, fun a x hx => (h2 a x hx).1⟩, h3⟩, h4⟩, fun a x hx => (h2 a x hx).2⟩

theorem State.linksGood_iff (hw : s.stations.wf = true) : s.linksGood = true ↔
    ∀ a x, s.stations.look a = some x → x.loaded.linked ≠ [] := by
  rw [State.linksGood, Table.all_iff_look hw]
  simp only [Bool.not_eq_true', List.isEmpty_eq_false_iff, ne_eq]

theorem State.concentratorsGood_iff (hz : s.zones.wf = true) (hc : s.concentrators.wf = true) :
    s.concentratorsGood = true ↔
      ∀ z x, s.zones.look z = some x → ∃ n d, s.concentrators.look n = some d ∧ d.zone = z := by
  simp only [State.concentratorsGood, Table.all_iff_look hz, Table.any_iff_look hc, decide_eq_true_eq]

theorem State.deviceDefined_iff (d : Device) : s.deviceDefined d = true ↔
    (d.role = .crane → (s.aisles.look d.index).isSome = true)
      ∧ (d.role = .station → (s.stations.look d.index).isSome = true)
      ∧ (d.role = .shutter → (s.shutters.look d.index).isSome = true)
      ∧ (d.role = .concentrator → (s.concentrators.look d.index).isSome = true) := by
  obtain ⟨r, i⟩ := d
  cases r <;> simp [State.deviceDefined]

theorem State.craneAddress_isSome_iff (hw : s.addresses.wf = true) (a : Nat) : (s.craneAddress a).isSome = true ↔
    ∃ ad, s.addresses.look ad = some { role := .crane, index := a } := by
  rw [State.craneAddress, Option.isSome_map, List.find?_isSome, ← List.any_eq_true, Table.any_iff_look hw]
  simp

theorem State.addressesGood_iff (ht : s.tablesLawful = true) : s.addressesGood = true ↔
    (∀ ad d, s.addresses.look ad = some d →
        (d.role = .crane → (s.aisles.look d.index).isSome = true)
        ∧ (d.role = .station → (s.stations.look d.index).isSome = true)
        ∧ (d.role = .shutter → (s.shutters.look d.index).isSome = true)
        ∧ (d.role = .concentrator → (s.concentrators.look d.index).isSome = true))
      ∧ (∀ a x, s.stations.look a = some x → s.addresses.look x.loaded.address = some { role := .station, index := a })
      ∧ (∀ a x, s.concentrators.look a = some x → s.addresses.look x.address = some { role := .concentrator, index := a })
      ∧ (∀ a x, s.shutters.look a = some x → s.addresses.look x.address = some { role := .shutter, index := a })
      ∧ ∀ a x, s.aisles.look a = some x → ∃ ad, s.addresses.look ad = some { role := .crane, index := a } := by
  obtain ⟨ha, hst, -, hc, hsh, had, -, -, -⟩ := (tablesLawful_iff s).1 ht
  simp only [State.addressesGood, Bool.and_eq_true, Table.all_iff_look ha, Table.all_iff_look hst, Table.all_iff_look hc,
    Table.all_iff_look hsh, Table.all_iff_look had, State.deviceDefined_iff, State.entryIs, decide_eq_true_eq,
    State.craneAddress_isSome_iff had, and_assoc]

theorem State.figuresGood_iff (hw : s.bins.wf = true) : s.figuresGood = true ↔
    ∀ n b, s.bins.look n = some b → b.fill + b.reserved ≤ b.capacity := by
  simp only [State.figuresGood, Table.all_iff_look hw, decide_eq_true_eq]

/-- CLOSE_COMMISSIONING in COMMISSIONING: refused with the number of the first check that fails, or taken (R197). -/
theorem exec_close_of_commissioning {tag : Nat} (hr : s.receives tag = true) (hh : s.isHalted = false)
    (hm : s.mode = .commissioning) : exec (.closeCommissioning tag) s = .next (match s.failingCheck with
      | some n => s.refuseOrder tag .checkFailed n
      | none => s.commission.acceptOrder tag .empty) := by
  refine (order_load hr hh _ rfl _).trans ?_
  simp only [State.isInService_of_commissioning hm, Bool.false_eq_true, if_false]
  cases s.failingCheck <;> rfl
end

/-- Settles O31: each check is an `…_iff` lemma above, and the first that fails gives its number. -/
theorem closeMakesSixChecks : Obligations.CloseMakesSixChecks := by
  intro tag s hr hh hm ht
  obtain ⟨-, hst, hz, hc, -, -, -, hb, -⟩ := (tablesLawful_iff s).1 ht
  have e1 := State.homesGood_iff (s := s) hb
  have e2 := State.zonesGood_iff ht
  have e3 := State.linksGood_iff (s := s) hst
  have e4 := State.concentratorsGood_iff (s := s) hz hc
  have e5 := State.addressesGood_iff ht
  have e6 := State.figuresGood_iff (s := s) hb
  refine ⟨fun h1 => ?_, fun h1 h2 => ?_, fun h1 h2 h3 => ?_, fun h1 h2 h3 h4 => ?_, fun h1 h2 h3 h4 h5 => ?_,
    fun h1 h2 h3 h4 h5 h6 => ?_, fun h1 h2 h3 h4 h5 h6 => ⟨s.commission, ?_, commission_mode s⟩⟩
  all_goals
    refine (exec_close_of_commissioning hr hh hm).trans ?_
    unfold State.failingCheck
  · simp [mt e1.1 h1]
  · simp [e1.2 h1, mt e2.1 h2]
  · simp [e1.2 h1, e2.2 h2, mt e3.1 h3]
  · simp [e1.2 h1, e2.2 h2, e3.2 h3, mt e4.1 h4]
  · simp [e1.2 h1, e2.2 h2, e3.2 h3, e4.2 h4, mt e5.1 h5]
  · simp [e1.2 h1, e2.2 h2, e3.2 h3, e4.2 h4, e5.2 h5, mt e6.1 h6]
  · simp [e1.2 h1, e2.2 h2, e3.2 h3, e4.2 h4, e5.2 h5, e6.2 h6]

end Sys2Proof.Machine
end

section
/-! Facts of the records that the statements on commands use: changes made twice, a bin's change of state, an admitted
telegram. -/
namespace Sys2Proof.Machine

/-- Changes that agree on the record that is there give the same table. -/
theorem Table.adjust_congr {α : Type} {t : Table α} {n : Nat} {f g : α → α} (h : ∀ v, t.look n = some v → f v = g v) :
    t.adjust n f = t.adjust n g := by
  induction t with
  | nil => rfl
  | cons e t ih =>
    obtain ⟨k, v⟩ := e
    by_cases hk : k = n
    · simp [Table.adjust, hk, h v (by simp [Table.look, hk])]
    · simp only [Table.adjust, if_neg hk]
      rw [ih fun w hw => h w (by simpa [Table.look, hk] using hw)]

theorem Table.adjust_eq_self_of_look {α : Type} {t : Table α} {n : Nat} {f : α → α} (h : ∀ v, t.look n = some v → f v = v) :
    t.adjust n f = t :=
  (Table.adjust_congr (g := id) h).trans (Table.adjust_eq_self _ _ fun _ => rfl)

section
variable {s : State}

/-- The change of an aisle's record that is there. -/
theorem State.modAisle_congr {a : Nat} {x : Aisle} (hx : s.aisles.look a = some x) {f g : Aisle → Aisle}
    (h : f x = g x) : s.modAisle a f = s.modAisle a g := by
  unfold State.modAisle
  rw [Table.adjust_congr fun y hy => by rw [← Option.some.inj (hx.symm.trans hy), h]]

theorem State.modAisle_eq_self {a : Nat} {f : Aisle → Aisle} (h : ∀ x, s.aisles.look a = some x → f x = x) :
    s.modAisle a f = s := by
  rw [State.modAisle, Table.adjust_eq_self_of_look h]

theorem State.modCrane_modCrane (s : State) (a : Nat) (f g : Crane → Crane) :
    (s.modCrane a f).modCrane a g = s.modCrane a fun c => g (f c) := by
  simp only [State.modCrane, Table.adjust_adjust]

theorem State.modBin_modBin (s : State) (n : Nat) (f g : Bin → Bin) :
    (s.modBin n f).modBin n g = s.modBin n fun b => g (f b) := by
  simp only [State.modBin, Table.adjust_adjust]

theorem State.modStation_modStation (s : State) (n : Nat) (f g : Station → Station) :
    (s.modStation n f).modStation n g = s.modStation n fun x => g (f x) := by
  simp only [State.modStation, Table.adjust_adjust]

theorem State.binState_of_look {n : Nat} {b : Bin} (h : s.bins.look n = some b) : s.binState n = some b.state := by
  simp [State.binState, h]

/-- A bin that is not IN_DOUBT stands in no overdue list that its change of state would leave (R89). -/
theorem State.setBinState_of_ne {n : Nat} (h : s.binState n ≠ some .inDoubt) (v : BinState) :
    s.setBinState n v = s.modBin n fun b => { b with state := v } := by
  simp [State.setBinState, h]

theorem State.setBinState_inDoubt (n : Nat) : s.setBinState n .inDoubt = s.modBin n fun b => { b with state := .inDoubt } := by
  simp [State.setBinState]

/-- A bin that leaves IN_DOUBT leaves the overdue lists (R89). -/
theorem State.setBinState_of_inDoubt {n : Nat} (h : s.binState n = some .inDoubt) {v : BinState} (hv : v ≠ .inDoubt) :
    s.setBinState n v = (s.modBin n fun b => { b with state := v }).leaveOverdue n := by
  simp [State.setBinState, h, hv]

/-- An admitted telegram does what its block makes of it. -/
theorem next_admission {src n : Nat} {r : Role} (h : s.admits src r n = true) (k : Nat) (take : State → Nat → State) :
    (Host.Outcome.next (s.admission src k r take) : Next) = .next (take s n) :=
  congrArg Host.Outcome.next (admit_of_admits h k take)

theorem State.whileInService_of_inService (h : s.mode = .inService) (f : State → State) : s.whileInService f = f s := by
  simp [State.whileInService, State.isInService, h]

theorem State.mode_of_admits {src n : Nat} {r : Role} (h : s.admits src r n = true) : s.mode = .inService := by
  simp only [State.admits, State.isInService, Bool.and_eq_true, decide_eq_true_eq] at h
  exact h.1

/-- The change of a crane record that is there. -/
theorem State.modCrane_congr {a : Nat} {x : Aisle} (hx : s.aisles.look a = some x) {f g : Crane → Crane}
    (h : f x.crane = g x.crane) : s.modCrane a f = s.modCrane a g := by
  unfold State.modCrane
  rw [Table.adjust_congr fun y hy => by rw [← Option.some.inj (hx.symm.trans hy), h]]

theorem State.setService_of_ne {a : Nat} {x : Aisle} {v : Service} (hx : s.aisles.look a = some x) (hv : x.service ≠ v) :
    s.setService a v =
      { s with aisles := s.aisles.adjust a fun x => { x with service := v } }.post
        { kind := .aisleState, subject := .aisle a, order := none, code := some (.service v) } := by
  simp only [State.setService, hx, if_neg hv, State.modAisle, State.report]

theorem State.setService_of_eq {a : Nat} {x : Aisle} {v : Service} (hx : s.aisles.look a = some x) (hv : x.service = v) :
    s.setService a v = s := by
  simp only [State.setService, hx, if_pos hv]

theorem State.takeOut_of_ne {a : Nat} {x : Aisle} (hx : s.aisles.look a = some x) (hv : x.service ≠ .outOfService) :
    s.takeOut a =
      { s with aisles := s.aisles.adjust a fun x =>
          { x with service := .outOfService, crane := { x.crane with state := .outOfService } } }.post
        { kind := .aisleState, subject := .aisle a, order := none, code := some (.service .outOfService) } := by
  have hx' : (s.modCrane a fun c => { c with state := .outOfService }).aisles.look a =
      some { x with crane := { x.crane with state := .outOfService } } := by simp [State.modCrane, hx]
  rw [State.takeOut, State.setService_of_ne hx' hv]
  simp only [State.modCrane, Table.adjust_adjust]

/-! ### Jobs that join their queue -/

theorem State.jobTag_congr {u : State} (ht : u.heldJobTags = s.heldJobTags) (hn : u.nextJob = s.nextJob) :
    u.jobTag = s.jobTag := by rw [State.jobTag, State.jobTag, ht, hn]

/-- A change of an aisle that leaves its jobs leaves the next job's tag (R55). -/
theorem State.jobTag_modAisle (a : Nat) {f : Aisle → Aisle} (hf : ∀ x, (f x).jobs = x.jobs) :
    (s.modAisle a f).jobTag = s.jobTag := by
  refine State.jobTag_congr ?_ rfl
  simp only [State.heldJobTags, List.flatMap_def, State.modAisle]
  rw [Table.map_adjust _ _ _ _ fun v => by simp only [hf]]

theorem State.jobTag_modCrane (a : Nat) {f : Crane → Crane}
    (hf : ∀ c, (f c).staged = c.staged ∧ (f c).active = c.active ∧ (f c).suspension = c.suspension) :
    (s.modCrane a f).jobTag = s.jobTag :=
  State.jobTag_modAisle a (f := fun x => { x with crane := f x.crane }) fun x => by
    obtain ⟨h1, h2, h3⟩ := hf x.crane
    simp only [Aisle.jobs, h1, h2, h3]


/-- A job that is no STORE joins its queue at the tail (R56). -/
theorem State.addJob_tail {a : Nat} {mk : Nat → Job} (h : ∀ t, (mk t).isStore = false) : s.addJob a mk =
    { s with
      aisles := s.aisles.adjust a fun x => { x with queue := x.queue ++ [mk s.jobTag] }
      nextJob := tagAfter s.jobTag } := by
  simp only [State.addJob, State.modAisle, State.setNextJob, joinQueue, h, Bool.false_eq_true, if_false]

theorem State.callBin_of_look {n st : Nat} {p : Purpose} {b : Bin} (hb : s.bins.look n = some b) : s.callBin n st p =
    { s with
      bins := s.bins.adjust n fun b => { b with state := .called, trip := some st }
      aisles := s.aisles.adjust b.home.aisle fun x => { x with queue := x.queue ++ [retrieveJob n b.home st p s.jobTag] }
      nextJob := tagAfter s.jobTag } := by
  simp only [State.callBin, hb]
  rw [State.addJob_tail fun _ => rfl]
  rfl

/-! ### What stands on a bin -/

theorem State.standsOn_iff {n : Nat} {r : Request} : s.standsOn n r = true ↔
    r.state ≠ .picked ∧ (s.items.look r.item).bind (·.home) = some n := by
  rw [State.standsOn, Bool.and_eq_true, decide_eq_true_eq, Bool.not_eq_true', decide_eq_false_iff_not]
  rfl

theorem State.standsFor_iff {n st : Nat} {r : Request} : s.standsFor n st r = true ↔
    r.state ≠ .picked ∧ (s.items.look r.item).bind (·.home) = some n ∧ r.station = st := by
  rw [State.standsFor, Bool.and_eq_true, State.standsOn_iff, decide_eq_true_eq, and_assoc]

theorem State.awaitedAt_iff {n st : Nat} : s.awaitedAt n st = true ↔
    ∃ y, s.stations.look st = some y ∧ ∃ e ∈ y.returns, e.target = n := by
  unfold State.awaitedAt
  cases s.stations.look st <;> simp

end

end Sys2Proof.Machine
end

section
/-! Crane telegrams: PHASE (O46). -/
namespace Sys2Proof.Machine

theorem clampPoint_eq (g : Geometry) (bay level : Nat) : clampPoint g bay level =
    { bay := min bay g.bays, level := if g.levels < level then g.levels else max level 1 } := by
  simp only [clampPoint, Point.mk.injEq]
  constructor <;> (split <;> [skip; (try split)]) <;> omega

theorem JobKind.carries_iff (k : JobKind) : k.carries = true ↔ k = .retrieve ∨ k = .store ∨ k = .transfer := by
  cases k <;> simp [JobKind.carries]

theorem afterPick_iff (p : Phase) : afterPick p = true ↔ p = .toDest ∨ p = .placing := by simp [afterPick]

/-- The phases allowed for a job's kind (R66). -/
theorem phaseAllowed_iff (k : JobKind) (p : Phase) : phaseAllowed k p = true ↔
    (k = .retrieve ∨ k = .store ∨ k = .transfer) ∨ (k = .audit ∧ (p = .toSource ∨ p = .picking))
      ∨ (k = .park ∧ p = .toDest) := by
  cases k <;> cases p <;> simp [phaseAllowed]

theorem phaseNotEarlier_iff (r : Option Phase) (p : Phase) : phaseNotEarlier r p = true ↔
    ∀ o, r = some o → phaseRank o ≤ phaseRank p := by
  cases r <;> simp [phaseNotEarlier]

section
variable {s : State} {j : Job} {n : Nat} {b : Bin}

/-- The bin on the forks (R66). -/
theorem State.liftBin_of_look (hj : j.bin = some n) (hb : s.bins.look n = some b) (hc : j.kind.carries = true) :
    s.liftBin j =
      if (b.state = .called ∧ j.kind ≠ .store) ∨ (b.state = .homebound ∧ j.kind = .store) then
        s.modBin n fun b => { b with state := .onCrane }
      else s := by
  have hst := State.binState_of_look hb
  have hkind : j.kind = .retrieve ∨ j.kind = .transfer ↔ j.kind ≠ .store := by
    cases hk : j.kind <;> simp [hk, JobKind.carries] at hc ⊢
  simp only [State.liftBin, hj, hst, Option.some.injEq, Bool.or_eq_true, Bool.and_eq_true, decide_eq_true_eq, hkind]
  split
  case isTrue h =>
    rw [State.setBinState_of_ne]
    rw [hst]
    rcases h with ⟨h, -⟩ | ⟨h, -⟩ <;> simp [h]
  case isFalse => rfl
end

/-- Settles O46: the judgement of a PHASE, case by case of `phaseAllowed`, `phaseNotEarlier` and `afterPick`. -/
theorem phaseMovesTheCraneAndItsBin : Obligations.PhaseMovesTheCraneAndItsBin := by
  intro src a bay level p x s hs hx
  have hexec : exec (.phase src p bay level) s = .next (State.takePhase p bay level s a) := next_admission hs _ _
  refine ⟨fun hno => ?_, fun j hj hst => ⟨fun hbad => ?_, fun hok hstay => ?_, fun n b hok hc hp hjn hb => ?_⟩⟩
  · rw [hexec, ← clampPoint_eq]
    rcases hno with hno | hno
    · simp only [State.takePhase, hx, hno]
      rfl
    · cases ha : x.crane.active <;> simp only [State.takePhase, hx, ha, hno, if_true] <;> rfl
  all_goals
    rw [hexec, ← clampPoint_eq]
    simp only [State.takePhase, hx, hj, if_neg hst]
    unfold State.judgePhase
  · rw [if_neg]
    · rfl
    · rwa [Bool.and_eq_true, phaseAllowed_iff, phaseNotEarlier_iff]
  · have hok' : (phaseAllowed j.kind p && phaseNotEarlier x.crane.phase p) = true := by
      rwa [Bool.and_eq_true, phaseAllowed_iff, phaseNotEarlier_iff]
    have hno : (j.kind.carries && afterPick p) = false := by
      rw [← Bool.not_eq_true, Bool.and_eq_true, JobKind.carries_iff, afterPick_iff]
      rintro ⟨hc, hp⟩
      rcases hstay with h | h | h
      · exact h hc
      · rcases hp with hp | hp <;> cases h.symm.trans hp
      · rcases hp with hp | hp <;> cases h.symm.trans hp
    simp only [hok', hno, if_true, Bool.false_eq_true, if_false, State.modCrane_modCrane]
    rfl
  · have hok' : (phaseAllowed j.kind p && phaseNotEarlier x.crane.phase p) = true := by
      rwa [Bool.and_eq_true, phaseAllowed_iff, phaseNotEarlier_iff]
    have hc' : j.kind.carries = true := (JobKind.carries_iff _).2 hc
    have hp' : afterPick p = true := (afterPick_iff p).2 hp
    simp only [hok', hc', hp', Bool.and_self, if_true, State.modCrane_modCrane]
    rw [State.liftBin_of_look (s := State.modCrane ..) hjn hb hc']
    split <;> rfl

end Sys2Proof.Machine
end

section
/-! The end of a job, and the follow-on call (O48). -/
namespace Sys2Proof.Machine

section
variable {s : State} {n : Nat} {b : Bin}

theorem State.followOn_of_next_none (hb : s.bins.look n = some b) (hn : b.next = none) : s.followOn n = s := by
  simp only [State.followOn, hb, Option.bind_some, hn]

/-- The follow-on call of a bin with a next station (R9, R111). -/
theorem State.followOn_of_next {st : Nat} (hb : s.bins.look n = some b) (hn : b.next = some st) : s.followOn n =
    if s.requests.any (s.standsFor n st) then (s.modBin n fun b => { b with next := none }).callBin n st .request
    else if s.awaitedAt n st then (s.modBin n fun b => { b with next := none }).callBin n st .ret
    else s.modBin n fun b => { b with next := none } := by
  simp only [State.followOn, hb, Option.bind_some, hn]

/-- A request stands on the bin for the station (R106). -/
theorem State.any_standsFor_iff {st : Nat} : s.requests.any (s.standsFor n st) = true ↔
    ∃ r, r ∈ s.requests ∧ r.state ≠ .picked ∧ r.station = st ∧ (s.items.look r.item).bind (·.home) = some n := by
  simp only [List.any_eq_true, State.standsFor_iff]
  exact exists_congr fun r => and_congr_right fun _ => and_congr_right fun _ => and_comm

/-- The call of a bin whose next station has been cleared. -/
theorem State.callBin_of_cleared {st : Nat} {p : Purpose} (hb : s.bins.look n = some b) :
    (s.modBin n fun b => { b with next := none }).callBin n st p =
      { s with
        bins := s.bins.adjust n fun b => { b with next := none, state := .called, trip := some st }
        aisles := s.aisles.adjust b.home.aisle fun x => { x with queue := x.queue ++ [retrieveJob n b.home st p s.jobTag] }
        nextJob := tagAfter s.jobTag } := by
  have hb' : (s.modBin n fun b => { b with next := none }).bins.look n = some { b with next := none } := by
    simp [State.modBin, hb]
  rw [State.callBin_of_look hb']
  simp only [State.modBin, Table.adjust_adjust]
  rfl

/-- The active job of a crane ends (R67). -/
theorem State.endJob_of_look {a : Nat} {p : Point} {x : Aisle} (hx : s.aisles.look a = some x) : s.endJob a p =
    if x.crane.state = .busy then (s.modCrane a fun c => { c.clearJob with position := some p }).nextAfter a p
    else s.modCrane a fun c => { c.clearJob with position := some p } := by
  simp only [State.endJob, hx]
end

/-- Settles O48: `endJob` by the crane's staged job and its aisle's service, `followOn` by what stands on the bin. -/
theorem jobEndPromotesOrIdlesTheCrane : Obligations.JobEndPromotesOrIdlesTheCrane := by
  intro a p x s hx
  have hx' : (s.modCrane a fun c => { c.clearJob with position := some p }).aisles.look a =
      some { x with crane := { x.crane.clearJob with position := some p } } := by simp [State.modCrane, hx]
  refine ⟨fun hst => ?_, fun j hst hj => ?_, fun hst hj hd => ?_, fun hst hj hd => ?_,
    fun n b hb => ⟨State.followOn_of_next_none hb, fun st hn => ⟨fun h => ?_, fun h ha => ?_, fun h ha => ?_⟩⟩⟩
  · rw [State.endJob_of_look hx, if_neg hst]
    rfl
  · rw [State.endJob_of_look hx, if_pos hst]
    have hstaged : x.crane.clearJob.staged = some j := hj
    simp only [State.nextAfter, hx', hstaged, State.startJob, State.modCrane_modCrane]
    refine congrArg (State.sendCrane · a (.job j.tag j.kind j.source j.destination (0, 0)))
      (State.modCrane_congr (s := s) hx (g := fun c =>
        { c with
          phase := some .toSource, active := some j, staged := none, retryIndex := 0, position := some p
          deadline := some { left := deadlineFor x.geom (estimate x.geom (s.conveyorOf j) j p), running := true } }) ?_)
    rw [← hst]
    rfl
  · rw [State.endJob_of_look hx, if_pos hst]
    have hstaged : x.crane.clearJob.staged = none := hj
    simp only [State.nextAfter, hx', hstaged, if_neg hd, State.modCrane_modCrane]
    rfl
  · rw [State.endJob_of_look hx, if_pos hst]
    have hstaged : x.crane.clearJob.staged = none := hj
    simp only [State.nextAfter, hx', hstaged, if_pos hd]
    rw [State.takeOut_of_ne hx' (by simp [hd])]
    simp only [State.modCrane, Table.adjust_adjust]
    rfl
  all_goals
    rw [State.followOn_of_next hb hn]
  · rw [if_pos (State.any_standsFor_iff.2 h), State.callBin_of_cleared hb]
    rfl
  · rw [if_neg (mt State.any_standsFor_iff.1 h), if_pos ha, State.callBin_of_cleared hb]
    rfl
  · rw [if_neg (mt State.any_standsFor_iff.1 h), if_neg (Bool.not_eq_true _ ▸ ha)]
    rfl

end Sys2Proof.Machine
end

section
/-! DONE and AUDIT_RESULT (O47). -/
namespace Sys2Proof.Machine

section
variable {s : State} {n a : Nat} {b : Bin} {j : Job}

/-- A bin becomes another than IN_DOUBT (R7, R89). -/
theorem State.setBinState_eq {v : BinState} (hv : v ≠ .inDoubt) (hb : s.bins.look n = some b) : s.setBinState n v =
    { s with
      bins := s.bins.adjust n fun b => { b with state := v }
      stations := if b.state = .inDoubt then
          s.stations.mapRecords fun _ x => { x with overdue := x.overdue.filter (· != n) }
        else s.stations } := by
  have hst := State.binState_of_look hb
  by_cases hd : b.state = .inDoubt
  · rw [State.setBinState_of_inDoubt (by rw [hst, hd]) hv, if_pos hd]
    rfl
  · rw [State.setBinState_of_ne (by rw [hst]; exact fun h => hd (Option.some.inj h)), if_neg hd]
    rfl

/-- A bin becomes STORED (R67, R72). -/
theorem State.binStored_eq (hb : s.bins.look n = some b) : s.binStored n =
    (({ s with
        bins := s.bins.adjust n fun b => { b with state := .stored }
        stations := if b.state = .inDoubt then
            s.stations.mapRecords fun _ x => { x with overdue := x.overdue.filter (· != n) }
          else s.stations } : State).post { kind := .binStored, subject := .bin n, order := none, code := none }).followOn
      n := by
  rw [State.binStored, State.setBinState_eq (by decide) hb]
  rfl

/-- A bin that is neither CALLED nor HOMEBOUND is not lifted (R66). -/
theorem State.liftBin_of_other (hj : j.bin = some n) (hb : s.bins.look n = some b) (h1 : b.state ≠ .called)
    (h2 : b.state ≠ .homebound) : s.liftBin j = s := by
  have hst := State.binState_of_look hb
  simp [State.liftBin, hj, hst, h1, h2]

theorem State.modBin_inLane (f : Bin → Bin) (k : Nat) : (s.modBin k f).inLane n = s.inLane n := rfl

/-! ### The bin of a job that ends by DONE -/

/-- The state of a bin on the forks, whatever it was before the last PHASE (R66, R67). -/
theorem State.liftBin_then (hj : j.bin = some n) (hb : s.bins.look n = some b) (hc : j.kind.carries = true)
    (hs : (b.state = .called ∧ j.kind ≠ .store) ∨ (b.state = .homebound ∧ j.kind = .store) ∨ b.state = .onCrane) :
    s.liftBin j = s.modBin n fun b => { b with state := .onCrane } := by
  rw [State.liftBin_of_look hj hb hc]
  split
  · rfl
  next h =>
    have hon : b.state = .onCrane := by
      rcases hs with hs | hs | hs
      · exact absurd (.inl hs) h
      · exact absurd (.inr hs) h
      · exact hs
    have hsame : s.bins.adjust n (fun b => { b with state := .onCrane }) = s.bins := by
      refine Table.adjust_eq_self_of_look fun v hv => ?_
      obtain rfl := Option.some.inj (hb.symm.trans hv)
      rw [← hon]
    rw [State.modBin, hsame]

theorem State.retrieveDone_of_lane {st left : Nat} (h : s.inLane n = true) : s.retrieveDone n st left = s := by
  simp only [State.retrieveDone, h, if_true]

theorem State.settleDone_retrieve {st left : Nat} (hk : j.kind = .retrieve) (hj : j.bin = some n) (hst : j.station = some st)
    (hl : s.inLane n = false) (hb : s.bins.look n = some b) (hs : b.state = .called ∨ b.state = .onCrane) :
    (s.liftBin j).settleDone j left = { s with
      bins := s.bins.adjust n fun b => { b with state := .inTransit, trip := some st }
      stations := s.stations.adjust st fun y =>
        { y with inTransit := y.inTransit ++
          [{ bin := n, deadline := { left := left, running := s.stationOpen st } }] } } := by
  rw [State.liftBin_then hj hb (by simp [hk, JobKind.carries])
    (hs.imp (fun h => ⟨h, by simp [hk]⟩) .inr)]
  have hb' : (s.modBin n fun b => { b with state := .onCrane }).bins.look n = some { b with state := .onCrane } := by
    simp [State.modBin, hb]
  have hne : (s.modBin n fun b => { b with state := .onCrane }).binState n ≠ some .inDoubt := by
    rw [State.binState_of_look hb']
    simp
  simp only [State.settleDone, hj, hk, hst, State.retrieveDone, State.modBin_inLane, hl, Bool.false_eq_true, if_false]
  rw [State.setBinState_of_ne hne, State.modBin_modBin, State.modBin_modBin]
  rfl

theorem State.settleDone_store {left : Nat} (hk : j.kind = .store) (hj : j.bin = some n) (hl : s.inLane n = false)
    (hb : s.bins.look n = some b) (hs : b.state = .homebound ∨ b.state = .onCrane) :
    (s.liftBin j).settleDone j left =
      ({ s with bins := s.bins.adjust n fun b => { b with state := .stored } }.post
        { kind := .binStored, subject := .bin n, order := none, code := none }).followOn n := by
  rw [State.liftBin_then hj hb (by simp [hk, JobKind.carries]) (.inr (hs.imp (fun h => ⟨h, hk⟩) id))]
  have hb' : (s.modBin n fun b => { b with state := .onCrane }).bins.look n = some { b with state := .onCrane } := by
    simp [State.modBin, hb]
  simp only [State.settleDone, hj, hk, State.modBin_inLane, hl, Bool.false_eq_true, if_false]
  rw [State.binStored_eq hb', if_neg (by simp)]
  simp only [State.modBin, Table.adjust_adjust]

theorem State.settleDone_transfer {left : Nat} (hk : j.kind = .transfer) (hj : j.bin = some n) (hl : s.inLane n = false)
    (hb : s.bins.look n = some b) (hs : b.state = .called ∨ b.state = .onCrane) :
    (s.liftBin j).settleDone j left =
      ({ s with bins := s.bins.adjust n fun b =>
          { b with home := b.pendingHome.getD b.home, pendingHome := none, state := .stored } }.post
        { kind := .binStored, subject := .bin n, order := none, code := none }).followOn n := by
  rw [State.liftBin_then hj hb (by simp [hk, JobKind.carries])
    (hs.imp (fun h => ⟨h, by simp [hk]⟩) .inr)]
  have hb' : ((s.modBin n fun b => { b with state := .onCrane }).modBin n Bin.moveHome).bins.look n =
      some (Bin.moveHome { b with state := .onCrane }) := by
    simp [State.modBin, hb]
  simp only [State.settleDone, hj, hk, State.modBin_inLane, hl, Bool.false_eq_true, if_false]
  rw [State.binStored_eq hb', if_neg (by simp [Bin.moveHome])]
  simp only [State.modBin, Table.adjust_adjust]
  rfl

/-- A bin that stands in a lane keeps its state (R92). -/
theorem State.settleDone_of_lane {left : Nat} (hj : j.bin = some n) (hl : s.inLane n = true)
    (hk : (j.kind = .retrieve ∧ j.station ≠ none) ∨ j.kind = .store) : s.settleDone j left = s := by
  rcases hk with ⟨hk, hst⟩ | hk
  · obtain ⟨st, hst⟩ := Option.ne_none_iff_exists'.1 hst
    simp only [State.settleDone, hj, hk, hst, State.retrieveDone_of_lane hl]
  · simp only [State.settleDone, hj, hk, hl, if_true]

theorem State.settleDone_transfer_of_lane {left : Nat} (hk : j.kind = .transfer) (hj : j.bin = some n)
    (hl : s.inLane n = true) : s.settleDone j left = s.modBin n Bin.moveHome := by
  simp only [State.settleDone, hj, hk, hl, if_true]

/-! ### The telegrams -/

variable {src : Nat} {x : Aisle} (hs : s.admits src .crane a = true) (hx : s.aisles.look a = some x)
include hs hx

/-- A DONE that is taken (R67). -/
theorem exec_done_of_taken (hc : x.crane.state = .busy ∨ x.crane.state = .stopping) (hj : x.crane.active = some j)
    (hk : j.kind.carries = true) : exec (.done src) s =
      .next (((s.liftBin j).settleDone j x.crane.left).endJob a j.destinationPoint).settleWing := by
  refine (next_admission hs 2 _).trans (congrArg _ ?_)
  rcases hc with hc | hc <;> simp [State.takeDone, hx, hc, hj, hk, CraneState.lost, CraneState.working]

/-- An AUDIT_RESULT that is taken (R72). -/
theorem exec_auditResult_of_taken {r : Reading} (hc : x.crane.state = .busy ∨ x.crane.state = .stopping)
    (hj : x.crane.active = some j) (hk : j.kind = .audit) (hn : j.bin = some n) : exec (.auditResult src r) s =
      .next ((s.settleAudit n r).endJob a j.destinationPoint).settleWing := by
  refine (next_admission hs 4 _).trans (congrArg _ ?_)
  rcases hc with hc | hc <;>
    simp [State.takeAuditResult, hx, hc, hj, hk, hn, State.settleAuditJob, CraneState.lost, CraneState.working]

/-- A crane that is FAULTED or OUT_OF_SERVICE gives no result (R68). -/
theorem exec_result_of_lost {r : Reading} (hc : x.crane.state = .faulted ∨ x.crane.state = .outOfService) :
    exec (.done src) s = .next s ∧ exec (.auditResult src r) s = .next s := by
  have hlost : x.crane.state.lost = true := by rcases hc with hc | hc <;> rw [hc] <;> rfl
  constructor
  · refine (next_admission hs 2 _).trans (congrArg _ ?_)
    simp [State.takeDone, hx, hlost]
  · refine (next_admission hs 4 _).trans (congrArg _ ?_)
    simp [State.takeAuditResult, hx, hlost]

/-- A DONE out of turn (R68). -/
theorem exec_done_outOfTurn (hl : x.crane.state.lost = false)
    (h : ¬(x.crane.state = .busy ∨ x.crane.state = .stopping)
      ∨ ∀ j, x.crane.active = some j → j.kind = .audit ∨ j.kind = .park) :
    exec (.done src) s = .next (s.outOfTurn a 2) := by
  refine (next_admission hs 2 _).trans (congrArg _ ?_)
  simp only [State.takeDone, hx, hl, Bool.false_eq_true, if_false]
  cases hj : x.crane.active with
  | none => rfl
  | some j =>
    have hno : (x.crane.state.working && j.kind.carries) = false := by
      rcases h with h | h
      · rw [show x.crane.state.working = false by cases hc : x.crane.state <;> simp_all [CraneState.working]]
        rfl
      · rw [show j.kind.carries = false by rcases h j hj with h | h <;> rw [h] <;> rfl, Bool.and_false]
    simp only [hno, Bool.false_eq_true, if_false]

/-- An AUDIT_RESULT out of turn (R68). -/
theorem exec_auditResult_outOfTurn {r : Reading} (hl : x.crane.state.lost = false)
    (h : ¬(x.crane.state = .busy ∨ x.crane.state = .stopping) ∨ ∀ j, x.crane.active = some j → j.kind ≠ .audit) :
    exec (.auditResult src r) s = .next (s.outOfTurn a 4) := by
  refine (next_admission hs 4 _).trans (congrArg _ ?_)
  simp only [State.takeAuditResult, hx, hl, Bool.false_eq_true, if_false]
  cases hj : x.crane.active with
  | none => rfl
  | some j =>
    have hno : (x.crane.state.working && decide (j.kind = .audit)) = false := by
      rcases h with h | h
      · rw [show x.crane.state.working = false by cases hc : x.crane.state <;> simp_all [CraneState.working]]
        rfl
      · rw [decide_eq_false (h j hj), Bool.and_false]
    simp only [hno, Bool.false_eq_true, if_false]

end

theorem CraneState.lost_eq_false {v : CraneState} (h1 : v ≠ .faulted) (h2 : v ≠ .outOfService) : v.lost = false := by
  cases v <;> first | rfl | exact absurd rfl h1 | exact absurd rfl h2

/-- Settles O47: what `settleDone` and `settleAudit` make of the bin, then the end of the job and the settled wing. -/
theorem craneResultsSettleTheBin : Obligations.CraneResultsSettleTheBin := by
  refine ⟨fun src a n x j b s hs hx hc hj hn hb => ?_, fun src a r x s hs hx =>
    ⟨exec_result_of_lost hs hx, fun h1 h2 =>
      ⟨exec_done_outOfTurn hs hx (CraneState.lost_eq_false h1 h2),
        exec_auditResult_outOfTurn hs hx (CraneState.lost_eq_false h1 h2)⟩⟩⟩
  have done : ∀ u, j.kind.carries = true → (s.liftBin j).settleDone j x.crane.left = u →
      ∃ t, exec (.done src) s = .next t ∧ Settled (u.endJob a j.destination.point) t := by
    rintro u hk rfl
    exact ⟨_, exec_done_of_taken hs hx hc hj hk, settled_settleWing _⟩
  have audited : ∀ u r, j.kind = .audit → s.settleAudit n r = u →
      ∃ t, exec (.auditResult src r) s = .next t ∧ Settled (u.endJob a j.destination.point) t := by
    rintro u r hk rfl
    exact ⟨_, exec_auditResult_of_taken hs hx hc hj hk hn, settled_settleWing _⟩
  refine ⟨fun st hk hst hl hbs => ?_, fun hk hl hbs => ?_, fun hk hl hbs => ?_,
    fun hbs hl => ?_, fun hk hl => ⟨?_, ?_, fun m hm => ?_⟩⟩
  · exact done _ (by simp [hk, JobKind.carries]) (State.settleDone_retrieve hk hn hst hl hb hbs)
  · have hne : b.state ≠ .inDoubt := by rcases hbs with h | h <;> simp [h]
    refine done _ (by simp [hk, JobKind.carries]) ((State.settleDone_store hk hn hl hb hbs).trans ?_)
    simp only [if_neg hne]
    rfl
  · have hne : b.state ≠ .inDoubt := by rcases hbs with h | h <;> simp [h]
    refine done _ (by simp [hk, JobKind.carries]) ((State.settleDone_transfer hk hn hl hb hbs).trans ?_)
    simp only [if_neg hne]
  · have stays : s.liftBin j = s := by
      refine State.liftBin_of_other hn hb ?_ ?_ <;> rcases hbs with h | h | h <;> simp [h]
    refine ⟨fun hk => ?_, fun hk => ?_, fun hk => ⟨?_, ?_⟩⟩
    · have hc : j.kind.carries = true := (JobKind.carries_iff _).2 (hk.imp And.left .inl)
      exact done _ hc (by rw [stays, State.settleDone_of_lane hn hl hk])
    · exact done _ (by simp [hk, JobKind.carries]) (by rw [stays, State.settleDone_transfer_of_lane hk hn hl]; rfl)
    · exact audited _ _ hk (by simp [State.settleAudit, hl])
    · exact audited _ _ hk (by simp [State.settleAudit, hl])
  · exact audited _ _ hk (by simp [State.settleAudit, hl, State.binStored_eq hb])
  · exact audited _ _ hk (by simp [State.settleAudit, hl])
  · refine audited _ _ hk ?_
    simp only [State.settleAudit, if_neg hm, hl, State.judgeRead, Bool.or_eq_true, decide_eq_true_eq, Bool.false_eq_true,
      if_false]
    rfl

end Sys2Proof.Machine
end

section
/-! PICK_FAILED (O49). -/
namespace Sys2Proof.Machine

section
variable {s : State} {n a : Nat} {b : Bin} {j : Job} {why : PickReason}

/-! ### The bin of an abandoned job (R71) -/

theorem State.settleAbandon_of_lane (hj : j.bin = some n) (hl : s.inLane n = true)
    (hk : j.kind = .retrieve ∨ j.kind = .store) : s.settleAbandon j why = s := by
  rcases hk with hk | hk <;> simp [State.settleAbandon, hj, hk, hl]

theorem State.settleAbandon_transfer_of_lane (hj : j.bin = some n) (hl : s.inLane n = true) (hk : j.kind = .transfer) :
    s.settleAbandon j why = s.clearPending n := by
  simp [State.settleAbandon, hj, hk, hl]

theorem State.settleAbandon_retrieve (hj : j.bin = some n) (hl : s.inLane n = false) (hk : j.kind = .retrieve) :
    s.settleAbandon j why = (s.clearTrip n).enterLoss n .missing (some (.reason why)) := by
  simp [State.settleAbandon, hj, hk, hl]

theorem State.settleAbandon_transfer (hj : j.bin = some n) (hl : s.inLane n = false) (hk : j.kind = .transfer) :
    s.settleAbandon j why = (s.clearPending n).enterLoss n .missing (some (.reason why)) := by
  simp [State.settleAbandon, hj, hk, hl]

theorem State.settleAbandon_store (hj : j.bin = some n) (hl : s.inLane n = false) (hk : j.kind = .store)
    (hb : s.binState n ≠ some .inDoubt) : s.settleAbandon j why = s.enterLoss n .inDoubt (some (.reason why)) := by
  simp [State.settleAbandon, hj, hk, hl, hb]

/-! ### The telegram -/

/-- RETRY with the next pair (R70, R45), said of the aisle's record. -/
theorem State.retryPick_eq {x : Aisle} (hx : s.aisles.look a = some x) (p : Int × Int) : s.retryPick a x.geom p =
    State.sendCrane { s with aisles := s.aisles.adjust a fun x =>
        { x with crane := { x.crane with
          phase := some .picking, retryIndex := x.crane.retryIndex + 1
          deadline := x.crane.deadline.map fun d => { d with left := min (d.left + 2 * x.geom.handling) 65535 } } } } a (.retry p) := by
  unfold State.retryPick State.modCrane
  rw [Table.adjust_congr fun y hy => ?_]
  obtain rfl := Option.some.inj (hx.symm.trans hy)
  rfl

/-- A crane that has a deadline left of more than one ds, or none, is not overdue (R74). -/
theorem Crane.overdue_eq_false {c : Crane} (h : ∀ d, c.deadline = some d → 1 < d.left) : c.overdue = false := by
  have hout : c.deadline.any Deadline.out = false := by
    cases hd : c.deadline with
    | none => rfl
    | some d => simp [Deadline.out, runsOut, Nat.not_le.2 (h d hd)]
  rw [Crane.overdue, hout, Bool.and_false]

theorem exec_craneDeadlineExpiry_of_notOverdue {x : Aisle} (hm : s.mode = .inService) (hx : s.aisles.look a = some x)
    (ho : x.crane.overdue = false) : exec (.craneDeadlineExpiry a) s = .next s := by
  refine congrArg Host.Outcome.next ((State.whileInService_of_inService hm _).trans ?_)
  simp [State.craneDeadlineExpires, hx, ho]

variable {src : Nat} {x : Aisle} (hs : s.admits src .crane a = true) (hx : s.aisles.look a = some x)
include hs hx

theorem exec_pickFailed_of_lost
    (hc : x.crane.state = .stopping ∨ x.crane.state = .faulted ∨ x.crane.state = .outOfService) :
    exec (.pickFailed src why) s = .next s := by
  refine (next_admission hs 3 _).trans (congrArg _ ?_)
  rcases hc with hc | hc | hc <;> simp [State.takePickFailed, hx, hc, CraneState.lost]

/-- A PICK_FAILED out of turn (R68). -/
theorem exec_pickFailed_outOfTurn
    (hc : x.crane.state = .idle ∨ x.crane.state = .parking ∨ x.crane.state = .stopped
      ∨ (x.crane.state = .busy ∧ (x.crane.phase = some .toDest ∨ x.crane.phase = some .placing
          ∨ ∀ k, x.crane.active = some k → k.kind = .audit ∨ k.kind = .park))) :
    exec (.pickFailed src why) s = .next (s.outOfTurn a 3) := by
  refine (next_admission hs 3 _).trans (congrArg _ ?_)
  have hon : (x.crane.state.lost || decide (x.crane.state = .stopping)) = false := by
    rcases hc with hc | hc | hc | ⟨hc, -⟩ <;> rw [hc] <;> rfl
  simp only [State.takePickFailed, hx, hon, Bool.false_eq_true, if_false]
  cases hj : x.crane.active with
  | none => rfl
  | some j =>
    have hno : (decide (x.crane.state = .busy) && j.kind.carries && !(x.crane.phase.any afterPick)) = false := by
      rcases hc with hc | hc | hc | ⟨-, hc | hc | hc⟩
      · simp [hc]
      · simp [hc]
      · simp [hc]
      · simp [hc, afterPick]
      · simp [hc, afterPick]
      · rcases hc j hj with h | h <;> simp [h, JobKind.carries]
    simp only [hno, Bool.false_eq_true, if_false]

variable (hc : x.crane.state = .busy) (hj : x.crane.active = some j) (hk : j.kind.carries = true)
  (hp : x.crane.phase ≠ some .toDest) (hp' : x.crane.phase ≠ some .placing)
include hc hj hk hp hp'

/-- A PICK_FAILED in its turn: the next pair of the retry list, or the job is abandoned (R70, R71). -/
theorem exec_pickFailed_of_busy : exec (.pickFailed src why) s = .next (match x.retry[x.crane.retryIndex]? with
    | some p => s.retryPick a x.geom p
    | none => s.abandon a j why) := by
  have hbefore : x.crane.phase.any afterPick = false := by
    cases hph : x.crane.phase with
    | none => rfl
    | some q =>
      rw [hph, ne_eq, Option.some.injEq] at hp hp'
      simp [afterPick, hp, hp']
  refine (next_admission hs 3 _).trans (congrArg _ ?_)
  simp [State.takePickFailed, hx, hc, hj, hk, hbefore, CraneState.lost] <;> rfl

end

/-- Settles O49: `exec_pickFailed_of_busy` with the retry that is left or not, and `settleAbandon` by the kind of the job. -/
theorem pickFailureRetriesThenAbandons : Obligations.PickFailureRetriesThenAbandons := by
  intro src a n why x j b s hs hx
  refine ⟨exec_pickFailed_of_lost hs hx, exec_pickFailed_outOfTurn hs hx,
    fun hc hj hk hp hp' hn hb => ⟨fun p hr => ⟨?_, fun hg hd => ?_⟩, fun hr => ?_⟩⟩
  · rw [exec_pickFailed_of_busy hs hx hc hj ((JobKind.carries_iff _).2 hk) hp hp', hr]
    exact congrArg Host.Outcome.next (State.retryPick_eq hx p)
  · refine exec_craneDeadlineExpiry_of_notOverdue (State.mode_of_admits hs) (x := { x with crane := { x.crane with
      phase := some .picking, retryIndex := x.crane.retryIndex + 1
      deadline := x.crane.deadline.map fun d => { d with left := min (d.left + 2 * x.geom.handling) 65535 } } }) ?_ ?_
    · simp [State.sendCrane, State.send, hx]
    · refine Crane.overdue_eq_false fun d h => ?_
      obtain ⟨e, he, rfl⟩ := Option.map_eq_some_iff.1 h
      have := hd e he
      simp only
      omega
  · have hexec : exec (.pickFailed src why) s = .next (s.abandon a j why) := by
      rw [exec_pickFailed_of_busy hs hx hc hj ((JobKind.carries_iff _).2 hk) hp hp', hr]
    have ended : ∀ u, (s.sendCrane a (.abandon j.tag)).settleAbandon j why = u →
        ∃ t, exec (.pickFailed src why) s = .next t ∧ Settled (u.endJob a j.sourcePoint) t := by
      rintro u rfl
      exact ⟨_, hexec, settled_settleWing _⟩
    have hlane : (s.sendCrane a (.abandon j.tag)).inLane n = s.inLane n := rfl
    refine ⟨fun hl hk' => ended _ ?_, fun hl hk' => ended _ ?_, fun hl hk' => ended _ ?_, fun hl hk' => ended _ ?_,
      fun hl hk' hne => ended _ ?_⟩
    · exact State.settleAbandon_of_lane hn hl (hk.elim .inl (Or.elim · .inr fun h => absurd h hk'))
    · exact State.settleAbandon_transfer_of_lane hn hl hk'
    · exact State.settleAbandon_retrieve hn hl hk'
    · exact State.settleAbandon_transfer hn hl hk'
    · exact State.settleAbandon_store hn hl hk' fun h =>
        hne (Option.some.inj ((State.binState_of_look (s := s) hb).symm.trans h))

end Sys2Proof.Machine
end

section
/-! STOPPED (O51) and PARKED (O52). -/
namespace Sys2Proof.Machine

theorem phaseRank_laterPhase (p q : Phase) : phaseRank (laterPhase p q) = max (phaseRank p) (phaseRank q) := by
  unfold laterPhase
  split <;> omega

/-- The phase at stop (R161), by its place in the order of phases. -/
theorem phaseRank_phaseAtStop (c : Crane) {j : Job} (hj : j.kind ≠ .park) (p : Phase) (load : Bool) :
    phaseRank (phaseAtStop c j p load) = max (max (phaseRank (c.phase.getD p)) (phaseRank p))
      (if load = true ∧ j.kind ≠ .audit then phaseRank .toDest else 0) := by
  have hc : j.kind.carries = true ↔ j.kind ≠ .audit := by
    cases hk : j.kind <;> simp_all [JobKind.carries]
  unfold phaseAtStop
  by_cases hl : load = true ∧ j.kind ≠ .audit
  · rw [if_pos (by simp [hl.1, hc.2 hl.2]), if_pos hl, phaseRank_laterPhase, phaseRank_laterPhase]
  · rw [if_neg (by rw [Bool.and_eq_true, hc]; exact fun h => hl ⟨h.2, h.1⟩), if_neg hl, phaseRank_laterPhase, Nat.max_zero]

/-- The crane that answers STOPPED, before its state and its stop wait are set (R161, R79). -/
def Crane.atStop (zoneShut : Bool) (p : Phase) (load forks : Bool) (c : Crane) : Crane :=
  match c.active with
  | none => c
  | some j =>
    if j.kind = .park then c.clearJob
    else if zoneShut then { c.clearJob with suspension := some (stopRecord c j p load forks) }
    else c.freeze

theorem Crane.stop_eq (b : Bool) (p : Phase) (load forks : Bool) (c : Crane) :
    c.stop b p load forks = { c.atStop b p load forks with state := .stopped, stopWait := none } := by
  unfold Crane.stop Crane.atStop
  cases hc : c.active with
  | none => simp [hc]
  | some j => by_cases hk : j.kind = .park <;> cases b <;> simp [hk]

section
variable {s : State} {a src : Nat} {x : Aisle}

/-- A DRAINING aisle ends its service where its crane is free (R81). -/
theorem State.endDraining_of_look (hx : s.aisles.look a = some x) : s.endDraining a =
    if x.service = .draining ∧ x.crane.active = none ∧ x.crane.suspension = none then s.takeOut a else s := by
  simp only [State.endDraining, hx, Crane.free, Bool.and_eq_true, decide_eq_true_eq, Option.isNone_iff_eq_none]

/-- A crane is parked afresh in a RESTORING zone only from STOPPED (R171). -/
theorem State.parkStopped_of_ne (hx : s.aisles.look a = some x) (h : x.crane.state ≠ .stopped) : s.parkStopped a = s := by
  simp only [State.parkStopped, hx, if_neg h]

theorem State.parkStopped_of_stopped (hx : s.aisles.look a = some x) (h : x.crane.state = .stopped) :
    s.parkStopped a = s.createPark a := by
  simp only [State.parkStopped, hx, if_pos h]

theorem State.takeOut_look (hx : s.aisles.look a = some x) : ∃ y, (s.takeOut a).aisles.look a = some y
    ∧ y.crane = { x.crane with state := .outOfService } := by
  have hx' : (s.modCrane a fun c => { c with state := .outOfService }).aisles.look a =
      some { x with crane := { x.crane with state := .outOfService } } := by simp [State.modCrane, hx]
  by_cases hv : x.service = .outOfService
  · exact ⟨_, by rw [State.takeOut, State.setService_of_eq hx' hv, hx'], rfl⟩
  · exact ⟨_, by rw [State.takeOut_of_ne hx hv, State.post]; simp [hx]; rfl, rfl⟩

/-- After the crane has stopped: a DRAINING aisle without job and record ends its service, and no PARK is then created
(R81, R171; log 35). -/
theorem State.afterStop_eq (hx : s.aisles.look a = some x) (h : x.crane.state = .stopped) (z : Nat) :
    (s.endDraining a).parkIfRestoring a z =
      if x.service = .draining ∧ x.crane.active = none ∧ x.crane.suspension = none then s.takeOut a
      else if s.zoneState z = some .restoring then s.createPark a
      else s := by
  rw [State.endDraining_of_look hx]
  split
  · obtain ⟨y, hy, hc⟩ := State.takeOut_look hx
    unfold State.parkIfRestoring
    rw [State.parkStopped_of_ne hy (by rw [hc]; simp), ite_self]
  · unfold State.parkIfRestoring
    rw [State.parkStopped_of_stopped hx h]

end

/-- Settles O51: the crane is `Crane.atStop`, and what follows is `afterStop_eq`. -/
theorem stoppedCraneSuspendsItsJob : Obligations.StoppedCraneSuspendsItsJob := by
  intro src a p load forks x s hs hx
  have hexec : exec (.stopped src p load forks) s = .next (State.takeStopped p load forks s a) := next_admission hs _ _
  refine ⟨fun hc => ?_, fun hc => ?_, fun hc => ?_⟩
  · rw [hexec]
    rcases hc with hc | hc | hc <;> simp only [State.takeStopped, hx, hc]
  · rw [hexec]
    rcases hc with hc | hc | hc <;> simp only [State.takeStopped, hx, hc] <;> rfl
  · refine ⟨x.crane.atStop (s.zoneClosed x.geom.zone) p load forks, _, fun hj => ?_, fun j hj hk => ?_, fun j hj hk hz => ?_,
      fun j hj hk hz => ⟨phaseAtStop x.crane j p load, phaseRank_phaseAtStop _ hk _ _, ?_⟩, hexec, ?_⟩
    · simp only [Crane.atStop, hj]
    · simp only [Crane.atStop, hj, if_pos hk]
      rfl
    · simp only [Crane.atStop, hj, if_neg hk, hz, Bool.false_eq_true, if_false, Crane.freeze]
      rfl
    · simp only [Crane.atStop, hj, if_neg hk, hz, if_true]
      rfl
    · have hu : s.modCrane a (Crane.stop (s.zoneClosed x.geom.zone) p load forks) = s.modCrane a fun _ =>
          { x.crane.atStop (s.zoneClosed x.geom.zone) p load forks with state := .stopped, stopWait := none } :=
        State.modCrane_congr hx (Crane.stop_eq ..)
      have hx' : (s.modCrane a fun _ =>
          { x.crane.atStop (s.zoneClosed x.geom.zone) p load forks with
            state := .stopped, stopWait := none }).aisles.look a =
          some { x with crane :=
            { x.crane.atStop (s.zoneClosed x.geom.zone) p load forks with state := .stopped, stopWait := none } } := by
        simp [State.modCrane, hx]
      simp only [State.takeStopped, hx, hc, hu]
      rw [State.afterStop_eq hx' rfl]
      exact settled_settleWing _

section
variable {s : State} {a src : Nat} {x : Aisle} {r : Reading} (hs : s.admits src .crane a = true)
  (hx : s.aisles.look a = some x)
include hs hx

theorem exec_parked_of_lost (hc : x.crane.state = .faulted ∨ x.crane.state = .outOfService) :
    exec (.parked src r) s = .next s := by
  refine (next_admission hs 6 _).trans (congrArg _ ?_)
  rcases hc with hc | hc <;> simp [State.takeParked, hx, hc, CraneState.lost]

/-- A PARKED without an active PARK, or from a crane that is neither PARKING nor STOPPING (R68). -/
theorem exec_parked_outOfTurn
    (hc : x.crane.state = .idle ∨ x.crane.state = .busy ∨ x.crane.state = .stopped
      ∨ ((x.crane.state = .parking ∨ x.crane.state = .stopping) ∧ ∀ j, x.crane.active = some j → j.kind ≠ .park)) :
    exec (.parked src r) s = .next (s.outOfTurn a 6) := by
  refine (next_admission hs 6 _).trans (congrArg _ ?_)
  have hon : x.crane.state.lost = false := by
    rcases hc with hc | hc | hc | ⟨hc | hc, -⟩ <;> rw [hc] <;> rfl
  simp only [State.takeParked, hx, hon, Bool.false_eq_true, if_false]
  rcases hc with hc | hc | hc | ⟨-, hc⟩
  · simp only [hc, ite_self]
  · simp only [hc, ite_self]
  · simp only [hc, ite_self]
  · have hno : x.crane.active.map (·.kind) ≠ some .park := by
      cases hj : x.crane.active with
      | none => simp
      | some j => simpa using hc j hj
    simp only [decide_eq_false hno, Bool.false_eq_true, if_false]

variable {j : Job} (hj : x.crane.active = some j) (hk : j.kind = .park)
include hj hk

theorem exec_parked_of_parking (hc : x.crane.state = .parking) :
    exec (.parked src r) s = .next (s.parkEnds a x r).settleWing := by
  refine (next_admission hs 6 _).trans (congrArg _ ?_)
  simp [State.takeParked, hx, hc, hj, hk, CraneState.lost]

theorem exec_parked_of_stopping (hc : x.crane.state = .stopping) :
    exec (.parked src r) s = .next (s.parkEndsStopping a x r).settleWing := by
  refine (next_admission hs 6 _).trans (congrArg _ ?_)
  simp [State.takeParked, hx, hc, hj, hk, CraneState.lost]

end

/-- Settles O52: `parkEnds` and `parkEndsStopping` by the suspension record and the label read. -/
theorem parkedCraneWritesItsLabel : Obligations.ParkedCraneWritesItsLabel := by
  intro src a r x s hs hx
  refine ⟨exec_parked_of_lost hs hx, exec_parked_outOfTurn hs hx,
    fun j hj hk => ⟨fun hc => ⟨fun q hq => ?_, fun n hq hr => ?_, fun hq hr => ?_⟩,
      fun hc => ⟨fun q hq => ?_, fun n hq hr => ?_, fun hq hr => ?_⟩⟩⟩
  · refine ⟨_, exec_parked_of_parking hs hx hj hk hc, ?_⟩
    simp only [State.parkEnds, hq, State.modCrane_modCrane]
    rw [State.modCrane_congr (s := s) hx (g := fun c =>
      { c.endPark with state := .idle, suspension := some { q with parkLabel := some r } })
      (by simp [Crane.notePark, Crane.endPark, Crane.clearJob, hq])]
    exact settled_settleWing _
  · refine ⟨_, exec_parked_of_parking hs hx hj hk hc, ?_⟩
    simp only [State.parkEnds, hq, hr]
    exact settled_settleWing _
  · refine ⟨_, exec_parked_of_parking hs hx hj hk hc, ?_⟩
    simp only [State.parkEnds, hq, hr]
    have hx' : (s.modCrane a fun c => { c.endPark with state := .idle }).aisles.look a =
        some { x with crane := { x.crane.endPark with state := .idle } } := by simp [State.modCrane, hx]
    have hfree : (x.service = .draining ∧ x.crane.endPark.active = none ∧ x.crane.endPark.suspension = none)
        ↔ x.service = .draining := ⟨And.left, fun h => ⟨h, rfl, hq⟩⟩
    rw [State.endDraining_of_look hx']
    simp only [hfree]
    exact settled_settleWing _
  all_goals refine ⟨_, exec_parked_of_stopping hs hx hj hk hc, ?_⟩
  · simp only [State.parkEndsStopping, hq]
    rw [State.modCrane_congr (s := s) hx (g := fun c =>
      { c.endPark with suspension := some { q with parkLabel := none } })
      (by simp [Crane.clearParkLabel, Crane.endPark, Crane.clearJob, hq])]
    exact settled_settleWing _
  all_goals
    have hkeep : s.modCrane a (fun c => c.endPark.clearParkLabel) = s.modCrane a Crane.endPark :=
      State.modCrane_congr hx (by simp [Crane.clearParkLabel, Crane.endPark, Crane.clearJob, hq])
    simp only [State.parkEndsStopping, hq, hr, hkeep]
    exact settled_settleWing _

end Sys2Proof.Machine
end

section
/-! AISLE_OUT and AISLE_IN (O42). -/
namespace Sys2Proof.Machine

section
variable {s : State} {tag a : Nat} {x : Aisle} (hw : s.receivesWork tag = true) (ha : within 1 6 a = true)
  (hx : s.aisles.look a = some x)
include hw ha hx

theorem exec_aisleOut : exec (.aisleOut tag a) s = .next ((s.aisleOut a x).acceptOrder tag .empty) := by
  refine (order_work hw _ _ _).trans ?_
  simp [ha, hx]

theorem exec_aisleIn : exec (.aisleIn tag a) s = .next
    (if x.service ≠ .outOfService then s.refuseOrder tag .wingBusy 0 else (s.aisleIn a x).acceptOrder tag .empty) := by
  refine (order_work hw _ _ _).trans ?_
  by_cases hv : x.service = .outOfService <;> simp [ha, hx, hv]

end

/-- Settles O42: by the crane's jobs and the aisle's service, and for AISLE_IN by the state of the zone. -/
theorem aisleOrdersChangeTheService : Obligations.AisleOrdersChangeTheService := by
  intro tag a x s hw ha hx
  have hin := exec_aisleIn hw ha hx
  have htaken : x.service = .outOfService →
      exec (.aisleIn tag a) s = .next ((s.aisleIn a x).acceptOrder tag .empty) := fun hv => by
    rw [hin, if_neg (not_not.2 hv)]
  refine ⟨fun hv hact hsus => ⟨_, exec_aisleOut hw ha hx, ?_⟩, fun hv hbusy => ⟨_, exec_aisleOut hw ha hx, ?_⟩,
    fun hv => ?_, fun hv => ?_, fun hv => ⟨fun hz => ⟨_, htaken hv, ?_⟩,
      fun hz hz' => ⟨_, htaken hv, ?_⟩⟩⟩
  · have hfree : x.crane.free = true := by simp [Crane.free, hact, hsus]
    simp only [State.aisleOut, hv, hfree, if_true]
    have hx' : ((s.dropQueuedPark a).modCrane a fun c => { c with stopWait := none }).aisles.look a =
        some { x with
          queue := x.queue.filter fun j => !decide (j.kind = .park), crane := { x.crane with stopWait := none } } := by
      simp [State.modCrane, State.dropQueuedPark, State.modAisle, hx]
    rw [State.takeOut_of_ne hx' (by simp [hv])]
    simp only [State.modCrane, State.dropQueuedPark, State.modAisle, Table.adjust_adjust]
    exact settled_settleWing _
  · have hfree : x.crane.free = false := by
      rw [← Bool.not_eq_true, Crane.free, Bool.and_eq_true, Option.isNone_iff_eq_none, Option.isNone_iff_eq_none]
      exact fun h => hbusy.elim (· h.1) (· h.2)
    simp only [State.aisleOut, hv, hfree, Bool.false_eq_true, if_false]
    rw [State.setService_of_ne hx (by simp [hv])]
    exact settled_settleWing _
  · rw [exec_aisleOut hw ha hx]
    cases hs : x.service with
    | inService => exact absurd hs hv
    | draining => simp only [State.aisleOut, hs]
    | outOfService => simp only [State.aisleOut, hs]
  · rw [hin, if_pos hv]
  · have hz' : s.aisleIn a x = (((((s.setService a .inService).modCrane a fun c => { c with position := none }).modCrane a
        fun c => { c with state := .stopped })).sendCrane a .stop).settleWing := by
      rcases hz with hz | hz <;> simp only [State.aisleIn, hz]
    rw [hz', State.setService_of_ne hx (by simp [hv])]
    simp only [State.modCrane, State.post, Table.adjust_adjust, List.append_nil]
    exact settled_settleWing _
  · have hpark : s.aisleIn a x =
        (((s.setService a .inService).modCrane a fun c => { c with position := none }).createPark a).settleWing := by
      unfold State.aisleIn
      split
      · exact absurd ‹_› hz
      · exact absurd ‹_› hz'
      · rfl
    have htag : ((((s.setService a .inService).modCrane a fun c => { c with position := none })).modCrane a
        fun c => { c with state := .parking }).jobTag = s.jobTag := by
      rw [State.jobTag_modCrane, State.jobTag_modCrane, State.setService_of_ne hx (by simp [hv])]
      rotate_left
      · exact fun _ => ⟨rfl, rfl, rfl⟩
      · exact fun _ => ⟨rfl, rfl, rfl⟩
      exact State.jobTag_modAisle a (f := fun x => { x with service := .inService }) fun x => rfl
    rw [hpark, State.createPark, State.addJob_tail fun _ => rfl, htag, State.setService_of_ne hx (by simp [hv])]
    simp only [State.modCrane, State.post, Table.adjust_adjust]
    exact settled_settleWing _
end Sys2Proof.Machine
end

section
/-! Folds over the numbers of a table: a change of every record, made number by number, and what is sent on the way. -/
namespace Sys2Proof.Machine

/-- An induction over a fold by the part of the list that has been passed. -/
theorem foldl_induct {ι σ : Type} {step : σ → ι → σ} {l : List ι} {s : σ} (motive : List ι → σ → Prop) (base : motive [] s)
    (next : ∀ done i rest u, l = done ++ i :: rest → motive done u → motive (done ++ [i]) (step u i)) :
    motive l (l.foldl step s) := by
  suffices h : ∀ rest done u, l = done ++ rest → motive done u → motive l (rest.foldl step u) from h l [] s rfl base
  intro rest
  induction rest with
  | nil =>
    intro done u hl hu
    rw [List.append_nil] at hl
    exact hl ▸ hu
  | cons i rest ih =>
    intro done u hl hu
    exact ih (done ++ [i]) (step u i) (by rw [hl, List.append_assoc]; rfl) (next done i rest u hl hu)

section
variable {α : Type} {t : Table α}

theorem Table.nodup_numbers (hw : t.wf = true) : t.numbers.Nodup :=
  (of_decide_eq_true ((Table.wf_eq t).symm.trans hw)).imp Nat.ne_of_lt

theorem Table.mapRecords_congr {f g : Nat → α → α} (h : ∀ e ∈ t, f e.1 e.2 = g e.1 e.2) : t.mapRecords f = t.mapRecords g :=
  List.map_congr_left fun e he => by rw [h e he]

theorem Table.mapRecords_eq_self {f : Nat → α → α} (h : ∀ e ∈ t, f e.1 e.2 = e.2) : t.mapRecords f = t :=
  (List.map_congr_left (g := id) fun e he => by rw [h e he]; rfl).trans (List.map_id t)

/-- One more record of a canonical table is changed. -/
theorem Table.adjust_mapRecords (hw : t.wf = true) (f : Nat → α → α) (a : Nat) (h : α → α) :
    (t.mapRecords f).adjust a h = t.mapRecords fun n x => if n = a then h (f n x) else f n x := by
  have hnd := Table.nodup_numbers hw
  clear hw
  induction t with
  | nil => rfl
  | cons e t ih =>
    obtain ⟨k, v⟩ := e
    obtain ⟨hk, ht⟩ := List.nodup_cons.1 hnd
    have ih' := ih ht
    by_cases hka : k = a
    · subst hka
      have hrest : Table.mapRecords t (fun n x => if n = k then h (f n x) else f n x) = Table.mapRecords t f :=
        Table.mapRecords_congr fun e he => if_neg fun hek : e.1 = k =>
          hk (hek ▸ (List.mem_map_of_mem he : e.1 ∈ Table.numbers t))
      simp only [Table.mapRecords, List.map_cons, Table.adjust, if_true] at hrest ⊢
      rw [hrest]
    · simp only [Table.mapRecords, List.map_cons, Table.adjust, if_neg hka] at ih' ⊢
      rw [ih']

/-- The records passed so far have been changed; the next one is. -/
theorem Table.adjust_passed (hw : t.wf = true) (f : Nat → α → α) {done : List Nat} {a : Nat} (ha : a ∉ done) :
    (t.mapRecords fun n x => if n ∈ done then f n x else x).adjust a (f a) =
      t.mapRecords fun n x => if n ∈ done ++ [a] then f n x else x := by
  rw [Table.adjust_mapRecords hw]
  refine Table.mapRecords_congr fun e _ => ?_
  by_cases h : e.1 = a
  · simp [h, ha]
  · simp [h]

theorem Table.look_passed (f : Nat → α → α) {done : List Nat} {a : Nat} (ha : a ∉ done) :
    (t.mapRecords fun n x => if n ∈ done then f n x else x).look a = t.look a := by
  rw [Table.look_mapRecords]
  cases t.look a <;> simp [ha]

/-- All records have been passed. -/
theorem Table.mapRecords_numbers (f : Nat → α → α) :
    (t.mapRecords fun n x => if n ∈ t.numbers then f n x else x) = t.mapRecords f :=
  Table.mapRecords_congr fun _ he => if_pos (List.mem_map_of_mem he)

/-- What is made of the record of each number is made of the records of the table. -/
theorem Table.flatMap_numbers {β : Type} (hw : t.wf = true) (g : Nat → Option α → List β) :
    (t.numbers.flatMap fun a => g a (t.look a)) = t.flatMap fun e => g e.1 (some e.2) := by
  rw [Table.numbers, List.flatMap_map]
  simp only [List.flatMap_def]
  exact congrArg _ (List.map_congr_left fun e he => by rw [Table.look_of_mem hw (v := e.2) he])

end

/-- An append of what is there or not. -/
theorem flatMap_toList_eq_filterMap {α β : Type} (l : List α) (g : α → Option β) :
    (l.flatMap fun e => (g e).toList) = l.filterMap g := by
  induction l with
  | nil => rfl
  | cons e l ih => cases h : g e <;> simp [h, ih]

theorem not_mem_of_split {l done rest : List Nat} {a : Nat} (hnd : l.Nodup) (hl : l = done ++ a :: rest) : a ∉ done := by
  subst hl
  exact fun h => (List.disjoint_of_nodup_append hnd) h List.mem_cons_self

/-- A report leaves what the field link has sent. -/
theorem Link.post_with_field (l : Link) (m : List Frame) (c : ReportClass) (r : Report) :
    ({ l with field := m } : Link).post c r = { l.post c r with field := m } := by
  cases c
  · simp only [Link.post, Link.joinUrgent]
    split <;> rfl
  · simp only [Link.post, Link.joinRoutine]
    split <;> rfl

/-- A telegram on the field link, as what joins the list of what was sent. -/
theorem Link.sendTo_eq (l : Link) (ad : Option Nat) (t : FieldTelegram) :
    l.sendTo ad t = { l with field := l.field ++ (ad.map fun d => fieldFrame d t).toList } := by
  cases ad <;> simp [Link.sendTo]

end Sys2Proof.Machine
end

section
/-! A STOP to a crane, the entry to HALTED, and the Fault Unit (O45). -/
namespace Sys2Proof.Machine

section
variable {s : State} {a : Nat} {x : Aisle}

/-- The staged job goes back to its queue (R64). -/
theorem State.withdrawStaged_eq (s : State) (a : Nat) : s.withdrawStaged false a = s.modAisle a Aisle.unstaged := by
  unfold State.withdrawStaged
  cases hx : s.aisles.look a with
  | none => exact (State.modAisle_eq_self fun y hy => by rw [hx] at hy; cases hy).symm
  | some x =>
    cases hj : x.crane.staged with
    | none =>
      simp only [hj]
      refine (State.modAisle_eq_self fun y hy => ?_).symm
      obtain rfl := Option.some.inj (hx.symm.trans hy)
      simp only [Aisle.unstaged, hj]
    | some j =>
      simp only [hj, Bool.false_eq_true, if_false, State.modCrane, State.returnJob, State.modAisle, Table.adjust_adjust]
      rw [Table.adjust_congr fun y hy => ?_]
      obtain rfl := Option.some.inj (hx.symm.trans hy)
      simp only [Aisle.unstaged, hj]

/-- STOP is sent to a crane (R79, R160, R181). -/
theorem State.stopCrane_eq (s : State) (a : Nat) :
    s.stopCrane a = (s.modAisle a (Aisle.sentStop s.settings.stop)).sendCrane a .stop := by
  simp only [State.stopCrane, State.withdrawStaged_eq, State.dropQueuedPark, State.modCrane, State.modAisle,
    Table.adjust_adjust]
  rfl

theorem Crane.freeze_eq (x : Aisle) : { x with crane := x.crane.freeze } = x.frozen := by
  unfold Crane.freeze Aisle.frozen
  cases hj : x.crane.active with
  | none => simp
  | some j =>
    by_cases hk : j.kind = .park
    · simp [hk]
    · simp only [hk, if_false, Option.any_some, decide_false, Bool.not_false, if_true]
      rw [hj]
      rfl

/-- The cranes that are sent STOP at the entry to HALTED (R181). -/
def CraneState.stops (v : CraneState) : Bool := decide (v = .busy) || decide (v = .idle) || decide (v = .parking)

/-- A crane at the entry to HALTED (R181): its record, and the STOP that it is sent. -/
theorem State.haltCrane_eq (hx : s.aisles.look a = some x) : s.haltCrane a =
    { s with
      aisles := s.aisles.adjust a fun x => x.halted s.settings.stop
      link := { s.link with
        field := s.link.field ++
          (if x.crane.state.stops then (s.craneAddress a).map fun d => fieldFrame d .stop else none).toList } } := by
  have hfrozen : ∀ u : State, u.modCrane a Crane.freeze = u.modAisle a Aisle.frozen := fun u => by
    unfold State.modCrane State.modAisle
    simp only [Crane.freeze_eq]
  have hrec : ∀ f : Aisle → Aisle, f x = x.halted s.settings.stop →
      s.aisles.adjust a f = s.aisles.adjust a fun x => x.halted s.settings.stop := fun f hf =>
    Table.adjust_congr fun y hy => by rw [← Option.some.inj (hx.symm.trans hy), hf]
  have hstop : ∀ u : State, u = s.stopCrane a → u.modCrane a Crane.freeze =
      { s with
        aisles := s.aisles.adjust a fun x => (x.sentStop s.settings.stop).frozen
        link := { s.link with field := s.link.field ++ ((s.craneAddress a).map fun d => fieldFrame d .stop).toList } } := by
    rintro u rfl
    rw [hfrozen, State.stopCrane_eq, State.sendCrane, State.send]
    simp only [State.modAisle, Table.adjust_adjust, Link.sendTo_eq]
    rfl
  simp only [State.haltCrane, hx]
  cases hc : x.crane.state
  case busy | idle | parking =>
    simp only
    rw [hstop _ rfl, hrec _ (by simp only [Aisle.halted, hc])]
    rfl
  case stopping =>
    simp only
    rw [hfrozen, State.modAisle, hrec _ (by simp only [Aisle.halted, hc])]
    simp [CraneState.stops]
  case stopped | faulted | outOfService =>
    simp only
    rw [← hrec id (by simp only [Aisle.halted, hc]; rfl), Table.adjust_eq_self (f := id) _ _ fun _ => rfl]
    simp [CraneState.stops]

/-- Every crane at the entry to HALTED (R181). -/
theorem State.haltCranes_eq (hw : s.aisles.wf = true) : s.haltCranes =
    { s with
      aisles := s.aisles.mapRecords fun _ x => x.halted s.settings.stop
      link := { s.link with
        field := s.link.field ++ s.aisles.filterMap fun e =>
          if e.2.crane.state.stops then (s.craneAddress e.1).map fun d => fieldFrame d .stop else none } } := by
  let told (a : Nat) (x : Option Aisle) : List Frame :=
    (x.bind fun x => if x.crane.state.stops then (s.craneAddress a).map fun d => fieldFrame d .stop else none).toList
  have key := foldl_induct (step := State.haltCrane) (l := s.aisles.numbers) (s := s)
    (fun done u => u = { s with
      aisles := s.aisles.mapRecords fun n x => if n ∈ done then x.halted s.settings.stop else x
      link := { s.link with field := s.link.field ++ done.flatMap fun a => told a (s.aisles.look a) } })
    (by simp [Table.mapRecords_eq_self])
    (fun done a rest u hl hu => ?_)
  · refine key.trans ?_
    rw [Table.mapRecords_numbers (t := s.aisles) (fun _ x => x.halted s.settings.stop), Table.flatMap_numbers hw told,
      flatMap_toList_eq_filterMap]
    rfl
  · have ha := not_mem_of_split (Table.nodup_numbers hw) hl
    obtain ⟨x, hx⟩ := Option.isSome_iff_exists.1 (Table.look_isSome_of_mem (hl ▸ List.mem_append_right _ List.mem_cons_self))
    have hx' : u.aisles.look a = some x := by
      rw [hu]
      exact (Table.look_passed (fun _ x => x.halted s.settings.stop) ha).trans hx
    rw [State.haltCrane_eq hx', hu]
    simp only [List.flatMap_append, List.flatMap_cons, List.flatMap_nil, List.append_nil, List.append_assoc, hx, told,
      Option.bind_some]
    rw [Table.adjust_passed hw (fun _ x => x.halted s.settings.stop) ha]
    rfl
end

theorem CraneState.stops_iff (v : CraneState) : v.stops = true ↔ v = .busy ∨ v = .idle ∨ v = .parking := by
  simp [CraneState.stops, or_assoc]

/-- ACK_FAULT makes its checks in their order (R180). -/
theorem exec_ackFault {s : State} {o k : Nat} (hr : s.receives o = true) (hh : s.isHalted = false) :
    exec (.ackFault o k) s = .next
      (if within 1 255 k then
        if s.faults.state = .clear then s.refuseOrder o .noFault 0
        else if s.faults.first.map (·.tag) = some k then
          { s with faults := { s.faults with state := .clear, first := none } }.acceptOrder o .empty
        else s.refuseOrder o .tagMismatch 0
      else s.refuseOrder o .badField 0) := by
  refine (order_load hr hh _ rfl _).trans ?_
  simp only [State.answer_checks_cons, State.answer_checks_nil, Bool.not_eq_true', ← Bool.not_eq_true, ite_not]
  simp only [decide_eq_true_eq]
  rfl

/-- Settles O45: `raise` by the state of the Fault Unit, with `haltCranes_eq` at the entry to HALTED. -/
theorem faultsMoveFromClearToHalted : Obligations.FaultsMoveFromClearToHalted := by
  intro f s ht
  obtain ⟨hw, -⟩ := (tablesLawful_iff s).1 ht
  refine ⟨fun hc => ?_, fun hc => ?_, fun hc => ?_, fun o k hr => ⟨fun hc => ?_, fun hc hk => ?_, fun hc hk => ?_,
    fun q hc hk hq => ?_⟩⟩
  · simp only [State.raise, hc]
    rfl
  · simp only [State.raise, hc]
    have hh := State.haltCranes_eq (s := (s.setFaults { s.faults with
      state := .halted
      halting := some (f.record s.faults.nextTag)
      nextTag := faultTagAfter s.faults.nextTag
      haltedLine := true }).report .fault (.faultTag s.faults.nextTag) (some (.faultKind f.kind))) hw
    rw [hh]
    simp only [State.report, State.post, State.setFaults, Link.post_with_field, Link.post_field, State.posted,
      List.foldl_cons, List.foldl_nil, CraneState.stops_iff]
    rfl
  · simp only [State.raise, hc]
    rfl
  · exact exec_of_orderRefusal (k := .ackFault) ((receives_iff s o).1 hr).1 rfl rfl
      (by simp [State.orderRefusal, State.isHalted, hc, ((receives_iff s o).1 hr).2,
        OrderKind.takenInHalted])
  · rw [exec_ackFault hr (by simpa [State.isHalted] using hc), if_neg (by simp [hk])]
  · rw [exec_ackFault hr (by simp [State.isHalted, hc]), if_pos hk, if_pos hc]
  · rw [exec_ackFault hr (by simp [State.isHalted, hc]), if_pos hk, if_neg (by simp [hc]), hq]
    simp only [Option.map_some, Option.some.injEq]

end Sys2Proof.Machine
end

section
/-! The loan decision and its window (O38). -/
namespace Sys2Proof.Machine

section
variable {s : State} {item n : Nat} {i : Item}

theorem State.homeOf_of_look (hi : s.items.look item = some i) : s.homeOf item = i.home := by simp [State.homeOf, hi]

theorem State.thicknessOf_of_look (hi : s.items.look item = some i) : s.thicknessOf item = i.thickness := by
  simp [State.thicknessOf, hi]

/-- A loan is made (R116): the room of the item in its home bin is freed. -/
theorem State.lend_of_look (hi : s.items.look item = some i) (hn : i.home = some n) : s.lend item =
    { s with
      items := s.items.adjust item fun i => { i with state := .lent }
      requests := s.requests.filter fun q => !decide (q.item = item)
      bins := s.bins.adjust n fun b => { b with reserved := b.reserved - i.thickness } } := by
  simp only [State.lend, State.homeOf_of_look hi, hn, State.thicknessOf_of_look hi]
  rfl

variable {r : Request}

/-- The checks of R116 pass for a PICKED item and its request. -/
theorem State.loanRefusal_of_picked (hnum : within 1 4294967295 item = true) (htag : within 1 65535 r.tag = true)
    (hi : s.items.look item = some i) (hp : i.state = .picked) (hr : r ∈ s.requests) (hri : r.item = item) :
    s.loanRefusal item r.tag = none := by
  have hany : (s.requests.any fun q => decide (q.item = item) && decide (q.tag = r.tag)) = true :=
    List.any_eq_true.2 ⟨r, hr, by simp [hri]⟩
  have hnum' : itemNumberInRange item = true := (itemNumberInRange_eq item).trans hnum
  have htag' : tagInRange r.tag = true := htag
  simp [State.loanRefusal, hnum', htag', hi, hp, hany]

/-- A loan that is decided already is decided TOO_LATE (R116). -/
theorem State.loanRefusal_of_decided {t : Nat} (hnum : within 1 4294967295 item = true) (htag : within 1 65535 t = true)
    (hi : s.items.look item = some i) (hd : i.state = .held ∨ i.state = .lent) :
    s.loanRefusal item t = some .tooLate := by
  have hnum' : itemNumberInRange item = true := (itemNumberInRange_eq item).trans hnum
  have htag' : tagInRange t = true := htag
  simp [State.loanRefusal, hnum', htag', hi, hd]

end

/-- Settles O38: the checks of R116, and the expiry by what is left of the window. -/
theorem loanDecisionsEndTheRequest : Obligations.LoanDecisionsEndTheRequest := by
  intro tag item n i r s hi hnum hn
  refine ⟨fun hw hr hri ht hp => ⟨?_, ?_⟩, fun hw ht hd => ⟨?_, ?_⟩, fun hm hfind hri => ⟨fun hlong => ?_, fun w hrw hlast => ?_⟩⟩
  · refine (order_work hw _ _ _).trans ?_
    rw [State.loanRefusal_of_picked hnum ht hi hp hr hri, State.lend_of_look hi hn]
    rfl
  · refine (order_work hw _ _ _).trans ?_
    rw [State.loanRefusal_of_picked hnum ht hi hp hr hri]
    rfl
  · refine (order_work hw _ _ _).trans ?_
    rw [State.loanRefusal_of_decided hnum ht hi hd]
    rfl
  · refine (order_work hw _ _ _).trans ?_
    rw [State.loanRefusal_of_decided hnum ht hi hd]
    rfl
  all_goals
    refine congrArg Host.Outcome.next ((State.whileInService_of_inService hm _).trans ?_)
    have hq : s.requestOf r.tag = some r := hfind
    simp only [State.confirmExpires, hq]
  · have hany : r.window.any runsOut = false := by
      rw [Option.any_eq_false]
      intro w hw
      rw [← Bool.not_eq_true, runsOut_iff]
      have := hlong w hw
      omega
    rw [if_neg (by simp [hany])]
  · rw [if_pos (by simp [hrw, runsOut_iff, hlast]), hri]
    subst hri
    rfl

end Sys2Proof.Machine
end

section
/-! Station faults and overdue bins (O58). -/
namespace Sys2Proof.Machine

/-- Settles O58: STATION_FAULT as its block takes it, and the expiry by the deadlines of the bin's entries. -/
theorem stationFaultAndConveyorOverdue : Obligations.StationFaultAndConveyorOverdue := by
  intro src st n x s hx
  refine ⟨fun had => ⟨_, next_admission had _ _, ?_⟩, fun hm hlong => ?_, fun hm hout => ⟨_, ?_, settled_settleWing _⟩⟩
  · simp only [State.takeStationFault, hx]
    exact settled_settleWing _
  all_goals
    refine congrArg Host.Outcome.next ((State.whileInService_of_inService hm _).trans ?_)
    simp only [State.inTransitExpires, hx]
  · refine if_neg ?_
    rw [List.any_eq_true]
    rintro ⟨e, he, hover⟩
    obtain ⟨hbin, hd⟩ := Bool.and_eq_true_iff.1 hover
    obtain ⟨hrun, hleft⟩ := (Deadline.out_iff _).1 hd
    rcases hlong e he (of_decide_eq_true hbin) with h | h
    · rw [hrun] at h
      cases h
    · omega
  · obtain ⟨e, he, hbin, hrun, hleft⟩ := hout
    refine if_pos (List.any_eq_true.2 ⟨e, he, ?_⟩)
    rw [Bool.and_eq_true, decide_eq_true_eq, Deadline.out_iff]
    exact ⟨hbin, hrun, hleft⟩

end Sys2Proof.Machine
end

section
/-! Shutters and the mouth (O59). -/
namespace Sys2Proof.Machine

section
variable {s : State} {k : Nat} {h : Shutter}

theorem State.sendShutter_of_look (hh : s.shutters.look k = some h) (t : FieldTelegram) : s.sendShutter k t =
    { s with link := { s.link with field := s.link.field ++ [fieldFrame h.address t] } } := by
  simp only [State.sendShutter, hh]
  rfl

/-- A shutter is moved, with the telegram that moves it. -/
theorem State.moveShutter_eq (hh : s.shutters.look k = some h) {f : Shutter → Shutter} (hf : (f h).address = h.address)
    (t : FieldTelegram) : (s.modShutter k f).sendShutter k t =
      { s with
        shutters := s.shutters.adjust k f
        link := { s.link with field := s.link.field ++ [fieldFrame h.address t] } } := by
  have hh' : (s.modShutter k f).shutters.look k = some (f h) := by simp [State.modShutter, hh]
  rw [State.sendShutter_of_look hh', hf]
  rfl

/-- A close that is started on a shutter that stands OPEN (R164). -/
theorem State.startClose_of_opened (hh : s.shutters.look k = some h) : 
    (s.modShutter k fun h => { h with state := .opened, wait := none }).startClose k =
      if s.mouthOccupiedAt k then
        { s with shutters := s.shutters.adjust k fun h =>
          { h with state := .waitingMouth, wait := some s.settings.shutter } }
      else
        { s with
          shutters := s.shutters.adjust k fun h => { h with state := .closing, wait := none }
          link := { s.link with field := s.link.field ++ [fieldFrame h.address (.closeShutter false)] } } := by
  have hh' : (s.modShutter k fun h => { h with state := .opened, wait := none }).shutters.look k =
      some { h with state := .opened, wait := none } := by simp [State.modShutter, hh]
  have hm : (s.modShutter k fun h => { h with state := .opened, wait := none }).mouthOccupiedAt k = s.mouthOccupiedAt k :=
    rfl
  simp only [State.startClose, hh', hm]
  rw [State.moveShutter_eq hh' rfl]
  simp only [State.modShutter, Table.adjust_adjust]

theorem State.unsecure_of_ne {z : Nat} (hz : s.zoneState z ≠ some .secured) : s.unsecure z = s := if_neg hz

/-- A SECURED zone is in SHUTDOWN again (R167). -/
theorem State.unsecure_of_secured {z : Nat} (hz : s.zoneState z = some .secured) : s.unsecure z =
    { s with
      zones := s.zones.adjust z fun x => { x with state := .shutdown }
      securedLine := securedLevel (s.zones.adjust z fun x => { x with state := .shutdown }) }.post
      (zoneReport .shutdown z) := if_pos hz

/-- The presented bin behind a shutter is LOCKED_OUT in its place (R165). -/
theorem State.lockOut_of_presented {st n : Nat} (hp : s.presentedBin st = some n) (hn : s.binState n = some .inLane) :
    s.lockOut st =
      { s with
        requests := s.requests.map fun r =>
          if r.state = .presented ∧ s.standsFor n st r = true then { r with state := .atStation } else r
        bins := s.bins.adjust n fun b => { b with state := .lockedOut } } := by
  have hn' : (s.endPresentation st).binState n ≠ some .inDoubt := by
    simp only [State.endPresentation, hp]
    intro h
    cases hn.symm.trans h
  simp only [State.lockOut, hp]
  rw [State.setBinState_of_ne hn']
  simp only [State.endPresentation, hp, Bool.and_eq_true, decide_eq_true_eq]
  rfl

theorem State.lockOut_of_none {st : Nat} (hp : s.presentedBin st = none) : s.lockOut st = s := by
  simp only [State.lockOut, hp]

/-- The presented bin of a station is IN_LANE (R86). -/
theorem State.binState_of_presented {st n : Nat} (hp : s.presentedBin st = some n) : s.binState n = some .inLane := by
  unfold State.presentedBin at hp
  split at hp
  · cases hp
  · split at hp
    · split at hp
      · exact Option.some.inj hp ▸ ‹_›
      · cases hp
    · cases hp

end

/-- Settles O59: each telegram by the state of its shutter and of its zone, and the expiry by what is left of the wait. -/
theorem shuttersFollowTheirZone : Obligations.ShuttersFollowTheirZone := by
  intro src k h s hh
  refine ⟨fun st x had hx => ⟨next_admission had _ _, fun hnone => ?_, fun hsome => ?_⟩, fun hm hno => ?_,
    fun hm hwait hout => ⟨fun n st b hbound hp hb => ?_, fun hnone => ?_⟩, fun had z hz => ?_⟩
  · refine (next_admission had _ _).trans (congrArg _ ?_)
    simp only [State.takeMouthClear, hx, Option.bind_some, hnone]
    rfl
  · refine (next_admission had _ _).trans (congrArg _ ?_)
    have hh' : (s.setMouth st false).shutters.look k = some h := hh
    simp only [State.takeMouthClear, hx, Option.bind_some, hsome, State.closeWaiting, hh']
    by_cases hw : h.state = .waitingMouth
    · rw [if_pos hw, if_pos hw, State.moveShutter_eq hh' rfl]
      rfl
    · rw [if_neg hw, if_neg hw]
      rfl
  · refine congrArg Host.Outcome.next ((State.whileInService_of_inService hm _).trans ?_)
    simp only [State.shutterWaitExpires, hh]
    refine if_neg ?_
    rw [Bool.and_eq_true, decide_eq_true_eq]
    rintro ⟨hw, hout⟩
    obtain ⟨w, hwait, hlast⟩ := (Option.any_eq_true ..).1 hout
    rw [runsOut_iff] at hlast
    rcases hno with hne | hlong
    · exact hne hw
    · have := hlong w hwait
      omega
  · obtain ⟨w, hw, hlast⟩ := hout
    refine congrArg Host.Outcome.next ((State.whileInService_of_inService hm _).trans ?_)
    have hout : (decide (h.state = .waitingMouth) && h.wait.any runsOut) = true := by simp [hwait, hw, hlast]
    simp only [State.shutterWaitExpires, hh, hout, if_true, hbound]
    rw [State.moveShutter_eq hh rfl]
    exact State.lockOut_of_presented hp (State.binState_of_presented hp)
  · obtain ⟨w, hw, hlast⟩ := hout
    refine congrArg Host.Outcome.next ((State.whileInService_of_inService hm _).trans ?_)
    have hout : (decide (h.state = .waitingMouth) && h.wait.any runsOut) = true := by simp [hwait, hw, hlast]
    simp only [State.shutterWaitExpires, hh, hout, if_true]
    rw [State.moveShutter_eq hh rfl]
    cases hbound : s.boundStation k with
    | none => rfl
    | some st => exact State.lockOut_of_none (hnone st hbound)
  · have hzone : s.zoneState h.zone = some z.state := by simp [State.zoneState, hz]
    have hclosed := next_admission had 17 State.takeClosed
    have hopened := next_admission had 18 State.takeOpened
    have hjammed := next_admission had 19 State.takeJammed
    refine ⟨fun hr => ⟨_, hclosed, ?_⟩, fun hr => ⟨_, hclosed, ?_⟩, fun h1 h2 => ⟨_, hopened, ?_⟩, fun hs => ⟨_, hopened, ?_⟩,
      fun hs => ⟨⟨_, hopened, ?_⟩, fun hj => ⟨_, hjammed, ?_⟩⟩, fun hj => hjammed.trans (congrArg _ ?_),
      fun hj hs => ⟨_, hjammed, ?_⟩⟩
    · simp only [State.takeClosed, hh, hzone, hr, if_true]
      rw [State.moveShutter_eq hh rfl]
      exact settled_settleWing _
    · simp only [State.takeClosed, hh, hzone, Option.some.injEq, if_neg hr]
      exact settled_settleWing _
    · have hstay : s.takeOpened k = (s.modShutter k fun h => { h with state := .opened, wait := none }).settleWing := by
        simp only [State.takeOpened, hh, hzone]
        cases hst : z.state <;> simp_all
      rw [hstay]
      exact settled_settleWing _
    · simp only [State.takeOpened, hh, hzone, hs]
      have hu : (s.modShutter k fun h => { h with state := .opened, wait := none }).unsecure h.zone =
          s.modShutter k fun h => { h with state := .opened, wait := none } :=
        State.unsecure_of_ne fun hz' => absurd (hzone.symm.trans hz') (by rw [hs]; decide)
      rw [hu, State.startClose_of_opened hh]
      exact settled_settleWing _
    · have hsec : s.zoneState h.zone = some .secured := hzone.trans (congrArg some hs)
      have hu : (s.modShutter k fun h => { h with state := .opened, wait := none }).unsecure h.zone =
          (s.unsecure h.zone).modShutter k fun h => { h with state := .opened, wait := none } := by
        rw [State.unsecure_of_secured hsec]
        exact State.unsecure_of_secured (s := s.modShutter k _) hsec
      have hstart := State.startClose_of_opened (s := s.unsecure h.zone) (k := k) (h := h)
        (by rw [State.unsecure_of_secured hsec]; exact hh)
      simp only [State.takeOpened, hh, hzone, hs]
      rw [hu, hstart, State.unsecure_of_secured hsec]
      simp only [State.post, Link.post_field]
      exact settled_settleWing _
    · have hsec : s.zoneState h.zone = some .secured := hzone.trans (congrArg some hs)
      simp only [State.takeJammed, hh, if_neg hj]
      rw [State.unsecure_of_secured (s := s.modShutter k _) hsec]
      exact settled_settleWing _
    · simp only [State.takeJammed, hh, if_pos hj]
    · simp only [State.takeJammed, hh, if_neg hj]
      rw [State.unsecure_of_ne (s := s.modShutter k _) fun hz' =>
        hs (Option.some.inj (hzone.symm.trans hz'))]
      exact settled_settleWing _

end Sys2Proof.Machine
end

section
/-! Cause sets and the alert window (O60). -/
namespace Sys2Proof.Machine

/-- What is asked of every record is asked alike of a changed one. -/
theorem Table.any_adjust {α : Type} {t : Table α} {n : Nat} {f : α → α} {p : α → Bool}
    (h : ∀ v, t.look n = some v → p (f v) = p v) : ((t.adjust n f).any fun e => p e.2) = t.any fun e => p e.2 := by
  induction t with
  | nil => rfl
  | cons e t ih =>
    obtain ⟨k, v⟩ := e
    by_cases hk : k = n
    · simp [Table.adjust, hk, h v (by simp [Table.look, hk])]
    · simp only [Table.adjust, if_neg hk, List.any_cons]
      rw [ih fun w hw => h w (by simpa [Table.look, hk] using hw)]

theorem Table.mem_put {α : Type} {t : Table α} {n : Nat} {v : α} {e : Nat × α} (h : e ∈ t.put n v) : e = (n, v) ∨ e ∈ t := by
  induction t with
  | nil => exact .inl (List.mem_singleton.1 h)
  | cons x t ih =>
    obtain ⟨k, w⟩ := x
    unfold Table.put at h
    split at h
    · exact (List.mem_cons.1 h)
    · split at h
      · exact (List.mem_cons.1 h).imp_right (List.mem_cons_of_mem _)
      · rcases List.mem_cons.1 h with rfl | h
        · exact .inr List.mem_cons_self
        · exact (ih h).imp_right (List.mem_cons_of_mem _)

theorem Table.mem_adjust {α : Type} {t : Table α} {n : Nat} {f : α → α} {e : Nat × α} (h : e ∈ t.adjust n f) :
    e ∈ t ∨ ∃ v, (n, v) ∈ t ∧ e = (n, f v) := by
  induction t with
  | nil => exact .inl h
  | cons x t ih =>
    obtain ⟨k, w⟩ := x
    unfold Table.adjust at h
    split at h
    case isTrue hk =>
      subst hk
      rcases List.mem_cons.1 h with rfl | h
      · exact .inr ⟨w, List.mem_cons_self, rfl⟩
      · exact .inl (List.mem_cons_of_mem _ h)
    case isFalse hk =>
      rcases List.mem_cons.1 h with rfl | h
      · exact .inl List.mem_cons_self
      · rcases ih h with h | ⟨v, hv, rfl⟩
        · exact .inl (List.mem_cons_of_mem _ h)
        · exact .inr ⟨v, List.mem_cons_of_mem _ hv, rfl⟩

section
variable {s u : State} {z : Nat}

/-- A zone that moves among the states that the secured line does not tell apart leaves the line (R168). -/
theorem securedLevel_of_open {t : Table Zone} {f : Zone → Zone}
    (h : ∀ x, t.look z = some x →
      x.state ≠ .secured ∧ x.state ≠ .shutdown ∧ (f x).state ≠ .secured ∧ (f x).state ≠ .shutdown) :
    securedLevel (t.adjust z f) = securedLevel t := by
  unfold securedLevel
  rw [Table.any_adjust (p := fun x : Zone => decide (x.state = .secured)) fun x hx => by simp [h x hx],
    Table.any_adjust (p := fun x : Zone => decide (x.state = .shutdown)) fun x hx => by simp [h x hx]]

/-- A condition of the cause set has changed, and what an entry to ALERT brings has followed (R148, R150). -/
theorem reformed_afterAlert {x : Zone} (hx : u.zones.look z = some x) (hs : s.zoneState z = some x.state)
    (hl : u.securedLawful = true) : Reformed u (s.afterAlert (u.reformCauses z) z) z := by
  refine ⟨x, hx, ?_⟩
  have hx' : (u.formCauses z).zones.look z = some { x with causes := u.causesOf z x.causes.start } := by
    simp [State.formCauses, State.modZone, hx]
  by_cases hn : x.state = .normal ∧ (u.causesOf z x.causes.start).isEmpty = false
  · obtain ⟨hnormal, hcause⟩ := hn
    have hsame : securedLevel (u.zones.adjust z fun y =>
        { y with state := .alert, causes := u.causesOf z y.causes.start, windowLeft := some y.window }) = u.securedLine :=
      (securedLevel_of_open fun y hy => by
        obtain rfl := Option.some.inj (hx.symm.trans hy)
        simp [hnormal]).trans ((securedLawful_iff u).1 hl).symm
    have hafter : u.reformCauses z =
        { u with zones := u.zones.adjust z fun y =>
            { y with state := .alert, causes := u.causesOf z y.causes.start, windowLeft := some y.window } }.report
          .zoneState (.zone z) (some (.zoneState .alert)) := by
      simp only [State.reformCauses, State.alertIfCaused, hx', hnormal, hcause, decide_true, Bool.not_false, Bool.and_self,
        if_true]
      simp only [State.enterAlert, State.turnAlert, State.turnZone, State.formCauses, State.modZone, Table.adjust_adjust,
        State.reportZone, State.judgeSecuredLine, State.setSecuredLine]
      rw [hsame]
    have hturned : (u.reformCauses z).zoneState z = some .alert := by
      rw [hafter]
      simp [State.report, State.post, State.zoneState, hx]
    rw [if_pos ⟨hnormal, hcause⟩, State.afterAlert, if_neg (by rw [hturned, hs, hnormal]; simp), hafter]
    exact settled_settleWing _
  · have hafter : u.reformCauses z = u.formCauses z := by
      have hno : ¬ (decide (x.state = .normal) && !(u.causesOf z x.causes.start).isEmpty) = true := by
        rw [Bool.and_eq_true, decide_eq_true_eq, Bool.not_eq_true']
        exact hn
      simp only [State.reformCauses, State.alertIfCaused, hx', if_neg hno]
    have hkept : (u.reformCauses z).zoneState z = s.zoneState z := by
      rw [hafter, hs, State.zoneState, hx']
      rfl
    rw [if_neg hn, State.afterAlert, if_pos hkept, hafter, State.formCauses, State.modZone]

/-- A window that ends in a clear, healthy zone (R151). -/
theorem State.well_iff {x : Zone} (hw : s.concentrators.wf = true) : (x.causes.isEmpty && s.allHealthy z) = true ↔
    x.causes.isEmpty = true ∧ ∀ m e, s.concentrators.look m = some e → e.zone = z → e.health = .healthy := by
  rw [Bool.and_eq_true]
  refine and_congr_right fun _ => ?_
  simp only [State.allHealthy, State.zoneConcentrators, List.all_eq_true, List.mem_map, List.mem_filter, decide_eq_true_eq]
  exact ⟨fun h m e he hz => h e ⟨(m, e), ⟨Table.mem_of_look he, hz⟩, rfl⟩,
    fun h c ⟨⟨m, e⟩, ⟨he, hz⟩, hc⟩ => hc ▸ h m e (Table.look_of_mem hw he) hz⟩

theorem State.any_zoneConcentrators {p : Concentrator → Bool} : (s.zoneConcentrators z).any p = true ↔
    ∃ m e, (m, e) ∈ s.concentrators ∧ e.zone = z ∧ p e = true := by
  simp [State.zoneConcentrators]

variable {n d : Nat} {c : Concentrator}

/-- The health that a token gives: in sequence or first, HEALTHY (R143). -/
theorem healthAfter_eq {last : Option Nat} (hd : d ≤ 255) (hlast : ∀ k, last = some k → k ≤ 255) :
    healthAfter last d = if last = none ∨ last = some ((d + 255) % 256) then .healthy else .tokenFault := by
  cases last with
  | none => simp [healthAfter]
  | some k =>
    have hk := hlast k rfl
    have hiff : d = (k + 1) % 256 ↔ k = (d + 255) % 256 := by omega
    simp only [healthAfter, hiff, reduceCtorEq, false_or, Option.some.injEq]

/-- The report of a change of health (R142). -/
def State.toldHealth (u : State) (c : Concentrator) (n : Nat) (v : Health) : State :=
  if c.health = v then u
  else u.post { kind := .supervision, subject := .zone c.zone, order := none, code := some (.number n) }

/-- A concentrator's health is set with what else changes in its record. -/
theorem State.setHealth_modConcentrator (v : Health) (f : Concentrator → Concentrator) :
    (s.setHealth n c v).modConcentrator n f =
      { s with concentrators := s.concentrators.adjust n fun c => f { c with health := v } }.toldHealth c n v := by
  unfold State.setHealth State.toldHealth
  split <;> simp only [State.modConcentrator, State.report, State.post, Table.adjust_adjust]

theorem State.toldHealth_spec (v : Health) : (s.toldHealth c n v).zones = s.zones ∧
    (s.toldHealth c n v).securedLawful = s.securedLawful := by
  unfold State.toldHealth
  split <;> exact ⟨rfl, rfl⟩

/-- No other detector of the zone is in PRE (R147). -/
theorem State.otherPre_setDetector
    (h : ¬∃ m e k, (m, e) ∈ s.concentrators ∧ e.zone = z ∧ (k, Condition.pre) ∈ e.detectors ∧ (m, k) ≠ (n, d)) :
    (s.setDetector n d .pre).otherPre z n d = false := by
  rw [← Bool.not_eq_true]
  intro hpre
  simp only [State.otherPre, List.any_eq_true, Bool.and_eq_true, decide_eq_true_eq, Bool.not_eq_true', ← Bool.not_eq_true] at hpre
  obtain ⟨⟨m, e⟩, he, hz, ⟨k, v⟩, hk, hv, hne⟩ := hpre
  simp only at hz hv hne
  subst hv
  rcases Table.mem_adjust he with he | ⟨c', hc', heq⟩
  · exact h ⟨m, e, k, he, hz, hk, fun hmk => hne (Prod.mk.inj hmk)⟩
  · obtain ⟨rfl, rfl⟩ := Prod.mk.inj heq
    rcases Table.mem_put hk with hk | hk
    · exact hne ⟨rfl, (Prod.mk.inj hk).1⟩
    · exact h ⟨m, c', k, hc', hz, hk, fun hmk => hne (Prod.mk.inj hmk)⟩

end

/-- Settles O60: each telegram and expiry as a change of its concentrator's record, with `reformed_afterAlert`. -/
theorem causesBringTheZoneToAlert : Obligations.CausesBringTheZoneToAlert := by
  intro src n d c z s hc hz hl hm
  have hs : s.zoneState c.zone = some z.state := by simp [State.zoneState, hz]
  have hreform : ∀ (f : Concentrator → Concentrator) (v : Health),
      Reformed ({ s with concentrators := s.concentrators.adjust n f }.toldHealth c n v)
        (s.afterAlert (({ s with concentrators := s.concentrators.adjust n f }.toldHealth c n v).reformCauses c.zone) c.zone)
        c.zone := fun f v => by
    obtain ⟨hzones, hline⟩ := State.toldHealth_spec (s := { s with concentrators := s.concentrators.adjust n f }) (c := c) (n := n) v
    exact reformed_afterAlert (by rw [hzones]; exact hz) hs (hline.trans hl)
  have hentry : ∀ f : Concentrator → Concentrator, Reformed { s with concentrators := s.concentrators.adjust n f }
      (s.afterAlert ({ s with concentrators := s.concentrators.adjust n f }.reformCauses c.zone) c.zone) c.zone :=
    fun f => reformed_afterAlert hz hs hl
  have hwait : ∀ {w : Option Nat}, (∀ k, w = some k → 1 < k) → ¬ w.any runsOut = true := fun h hout => by
    obtain ⟨k, hk, hlast⟩ := (Option.any_eq_true ..).1 hout
    have := h k hk
    have := (runsOut_iff k).1 hlast
    omega
  refine ⟨fun had => ⟨fun hd hlast => ⟨_, next_admission had _ _, ?_⟩,
      fun hin => ⟨fun hfire => (next_admission had _ _).trans (congrArg _ ?_), fun hpre hno ht => ⟨_, next_admission had _ _, ?_⟩,
        fun hnone => (next_admission had _ _).trans (congrArg _ ?_), fun hsome => ⟨_, next_admission had _ _, ?_⟩,
        fun halarm => (next_admission had _ _).trans (congrArg _ ?_), fun halarm => ⟨_, next_admission had _ _, ?_⟩⟩,
      fun hout i hi => ?_⟩,
    fun hlong => ?_, fun hout => ⟨_, ?_, hreform _ _⟩, fun hno => ?_, fun ha hout ht => ⟨fun hwell => ⟨_, ?_, settled_settleWing _⟩, fun hill => ?_⟩,
    fun b => ?_⟩
  · simp only [State.takeBeat, hc]
    rw [State.setHealth_modConcentrator, healthAfter_eq hd hlast]
    exact hreform _ _
  · rcases hfire with h | h <;> simp only [State.takePrealarm, State.withDetector, hc, hin, if_true, h]
  · have hwet : s.takePrealarm d n =
        if (s.setDetector n d .pre).otherPre c.zone n d then (s.setDetector n d .pre).fireIn c.zone
        else s.afterAlert ((s.setDetector n d .pre).reformCauses c.zone) c.zone := by
      rcases hpre with h | h <;> simp only [State.takePrealarm, State.withDetector, hc, hin, if_true, h]
    rw [hwet, State.otherPre_setDetector hno, if_neg Bool.false_ne_true]
    exact hentry _
  · simp only [State.takeClear, State.withDetector, hc, hin, if_true, hnone]
  · obtain ⟨v, hv⟩ := Option.ne_none_iff_exists'.1 hsome
    simp only [State.takeClear, State.withDetector, hc, hin, if_true, hv]
    exact hentry _
  · simp only [State.takeTrouble, State.withDetector, hc, hin, if_true, halarm]
  · have hset : s.takeTrouble d n = s.afterAlert ((s.setDetector n d .trouble).reformCauses c.zone) c.zone := by
      simp only [State.takeTrouble, State.withDetector, hc, hin, if_true]
    rw [hset]
    exact hentry _
  · have hdrop : ∀ take, s.withDetector n d take =
        s.post { kind := .fieldProtocol, subject := .zone c.zone, order := none, code := none } := fun take => by
      simp only [State.withDetector, hc, hout, Bool.false_eq_true, if_false]
      rfl
    rcases hi with rfl | rfl | rfl | rfl <;> exact (next_admission had _ _).trans (congrArg _ (hdrop _))
  · refine congrArg Host.Outcome.next ((State.whileInService_of_inService hm _).trans ?_)
    simp only [State.supervisionExpires, hc]
    exact if_neg (hwait hlong)
  · obtain ⟨w, hw, hlast⟩ := hout
    refine congrArg Host.Outcome.next ((State.whileInService_of_inService hm _).trans ?_)
    simp only [State.supervisionExpires, hc]
    rw [if_pos (by simp [hw, hlast]), State.setHealth_modConcentrator]
  · refine congrArg Host.Outcome.next ((State.whileInService_of_inService hm _).trans ?_)
    simp only [State.alertExpires, hz]
    refine if_neg ?_
    rw [Bool.and_eq_true, decide_eq_true_eq]
    rintro ⟨ha, hout⟩
    rcases hno with hne | hlong
    · exact hne ha
    · exact hwait hlong hout
  · obtain ⟨w, hw, hlast⟩ := hout
    obtain ⟨-, -, -, hconc, -⟩ := (tablesLawful_iff s).1 ht
    refine congrArg Host.Outcome.next ((State.whileInService_of_inService hm _).trans ?_)
    have hout : (decide (z.state = .alert) && z.windowLeft.any runsOut) = true := by simp [ha, hw, hlast]
    simp only [State.alertExpires, hz, hout, if_true]
    rw [if_pos ((State.well_iff hconc).2 hwell), State.setZoneState, State.turnZone, State.modZone, State.modZone, Table.adjust_adjust,
      State.judgeSecuredLine, State.setSecuredLine]
    have hsame : securedLevel (s.zones.adjust c.zone fun y => { y with state := .normal, windowLeft := none }) = s.securedLine :=
      (securedLevel_of_open fun y hy => by
        obtain rfl := Option.some.inj (hz.symm.trans hy)
        simp [ha]).trans ((securedLawful_iff s).1 hl).symm
    simp only [hsame]
    rfl
  · obtain ⟨w, hw, hlast⟩ := hout
    obtain ⟨-, -, -, hconc, -⟩ := (tablesLawful_iff s).1 ht
    refine congrArg Host.Outcome.next ((State.whileInService_of_inService hm _).trans ?_)
    have hout : (decide (z.state = .alert) && z.windowLeft.any runsOut) = true := by simp [ha, hw, hlast]
    simp only [State.alertExpires, hz, hout, if_true]
    rw [if_neg (mt (State.well_iff hconc).1 hill)]
    rfl
  · refine ⟨State.any_zoneConcentrators.trans ?_, State.any_zoneConcentrators.trans ?_, State.any_zoneConcentrators.trans ?_,
      State.any_zoneConcentrators.trans ?_, ?_⟩
    · simp [Concentrator.hasEntry]
    · simp [Concentrator.hasEntry]
    · simp
    · simp
    · have hall : (!((s.zoneConcentrators c.zone).all fun e => e.token.isSome)) = true ↔
          ∃ m e, (m, e) ∈ s.concentrators ∧ e.zone = c.zone ∧ e.token = none := by
        rw [List.not_all_eq_any_not, State.any_zoneConcentrators]
        simp
      exact Bool.and_eq_true_iff.trans (and_congr_right fun _ => hall)

end Sys2Proof.Machine
end

section
/-! Orders on bins (O40). -/
namespace Sys2Proof.Machine

section
variable {s : State} {tag n st : Nat} {b : Bin}

theorem servesTrip_iff {j : Job} : servesTrip n st j = true ↔ j.bin = some n ∧ j.kind = .retrieve ∧ j.station = some st := by
  simp [servesTrip, Job.names, Job.boundFor]

theorem Job.markCall_eq : Job.markCall n st = fun j =>
    if j.bin = some n ∧ j.kind = .retrieve ∧ j.station = some st then { j with purpose := some .call } else j := by
  funext j
  simp only [Job.markCall, servesTrip_iff]

/-- There is room in the aisle's queue (R57). -/
theorem State.queueFull_of_room {a : Nat} (h : ∀ y, s.aisles.look a = some y → y.queue.length < 32) :
    s.queueFull a = false := by
  unfold State.queueFull
  cases hy : s.aisles.look a with
  | none => rfl
  | some y =>
    exact decide_eq_false (Nat.not_le.2 (h y hy))

/-- A CALL_BIN that names a station and a bin with records is judged on them (R100). -/
theorem exec_callBin {x : Station} (hw : s.receivesWork tag = true) (hn : n ≤ 16383) (hst : within 1 4 st = true)
    (hx : s.stations.look st = some x) (hb : s.bins.look n = some b) :
    exec (.callBin tag n st) s = .next (s.answer tag (s.callVerdict n st x b)) := by
  refine (order_work hw _ _ _).trans ?_
  have hr : binNumberInRange n = true := (binNumberInRange_iff n).2 hn
  simp only [hr, hst, hx, hb, Bool.not_true, Bool.or_self, Bool.false_eq_true, if_false]

/-- A MOVE_BIN of a STORED bin, judged on the slot (R16). -/
theorem exec_moveBin {f : SlotField} {v : Slot} (hw : s.receivesWork tag = true) (hf : slotOf f = some v)
    (hb : s.bins.look n = some b) (hs : b.state = .stored) :
    exec (.moveBin tag n f) s = .next (s.answer tag (refuseOr
      (firstRefusal
        [ (!decide (v.aisle = b.home.aisle), .otherAisle)
        , (!s.slotInBounds v, .outOfBounds)
        , (s.slotTaken v, .slotTaken)
        , (s.queueFull b.home.aisle, .queueFull) ])
      (.accept (s.moveBinTo n b.home v).settleWing .empty))) := by
  refine (order_work hw _ _ _).trans ?_
  simp only [hf, hb, hs, notStoredCode]

/-- A STORED bin is called by an order (R100). -/
theorem State.callBin_call (hb : s.bins.look n = some b) : s.callBin n st .call =
    { s with
      bins := s.bins.adjust n fun b => { b with state := .called, trip := some st }
      aisles := s.aisles.adjust b.home.aisle fun x =>
        { x with queue := x.queue ++ [
          { tag := s.jobTag, kind := .retrieve, bin := some n, source := some (.slot b.home)
            destination := .frontPort, station := some st, purpose := some .call }] }
      nextJob := tagAfter s.jobTag } := State.callBin_of_look hb

end

/-- Settles O40: each order by its checks, with the job that it adds. -/
theorem binOrdersQueueOneJob : Obligations.BinOrdersQueueOneJob := by
  intro tag n b s hw hn hb
  refine ⟨fun st x hst hx => ⟨fun ht hm hd => ?_, fun ht hs hl hroom => ?_, fun ht hs hl => ?_⟩,
    fun f v hf hs ha hin hroom => ⟨fun hfree => ?_, fun htaken => ?_⟩, fun hst hnamed hlane hroom => ?_⟩
  · rw [exec_callBin hw hn hst hx hb]
    simp only [State.callVerdict, if_neg hm, if_neg hd, if_pos ht, State.answer_accept, Aisle.markCall, Job.markCall_eq]
    rfl
  · have hfull := State.queueFull_of_room hroom
    refine ⟨_, ?_, settled_settleWing _⟩
    rw [exec_callBin hw hn hst hx hb]
    simp only [State.callVerdict, hs, reduceCtorEq, if_false, if_neg ht, State.answer_checks_cons, State.answer_checks_nil,
      decide_true, Bool.not_true, Bool.false_eq_true, hl, hfull]
    rw [State.callBin_call hb]
    rfl
  · rw [exec_callBin hw hn hst hx hb]
    simp only [State.callVerdict, hs, reduceCtorEq, if_false, if_neg ht, State.answer_checks_cons, State.answer_checks_nil,
      decide_true, Bool.not_true, Bool.false_eq_true, hl, decide_false, Bool.not_false, if_true]
  · have hfull := State.queueFull_of_room hroom
    refine ⟨_, ?_, settled_settleWing _⟩
    rw [exec_moveBin hw hf hb hs]
    simp only [State.answer_checks_cons, State.answer_checks_nil, decide_eq_true ha, hin, hfree, hfull, Bool.not_true,
      Bool.false_eq_true, if_false, State.answer_accept]
    rw [State.moveBinTo, State.addJob_tail fun _ => rfl]
    rfl
  · rw [exec_moveBin hw hf hb hs]
    simp only [State.answer_checks_cons, decide_eq_true ha, hin, htaken, Bool.not_true, Bool.false_eq_true, if_false, if_true]
  · have hfull := State.queueFull_of_room hroom
    have hok : (!(decide (b.state = .stored) || decide (b.state = .missing) || decide (b.state = .inDoubt))) = false := by
      rcases hst with h | h | h <;> simp [h]
    refine ⟨_, ?_, settled_settleWing _⟩
    refine (order_work hw _ _ _).trans ?_
    simp only [hb, State.answer_checks_cons, State.answer_checks_nil, hok, hnamed, hlane, hfull, Bool.false_eq_true, if_false,
      State.answer_accept]
    rw [State.auditBin, State.addJob_tail fun _ => rfl]
    by_cases hs : b.state = .stored
    · simp only [if_pos hs]
      rfl
    · simp only [if_neg hs]
      rfl

end Sys2Proof.Machine
end

section
/-! What the Dispatcher leaves alone, whether or not it resumes a job. -/
namespace Sys2Proof.Machine

/-- `t` is `s` after the Dispatcher has acted: aisles, bins and telegrams apart, nothing has changed. -/
def Served (s t : State) : Prop :=
  t = { s with aisles := t.aisles, bins := t.bins, link := { s.link with field := t.link.field } }

section
variable {s t u : State}

theorem Served.refl (s : State) : Served s s := rfl

theorem Served.trans (h : Served s t) (k : Served t u) : Served s u := by
  unfold Served at h k ⊢
  rw [h] at k
  exact k

theorem Dispatched.served (h : Dispatched s t) : Served s t := by
  have hr := h.rest
  unfold Served
  rw [hr]

theorem Served.modAisle (s : State) (a : Nat) (f : Aisle → Aisle) : Served s (s.modAisle a f) := rfl

theorem Served.modCrane (s : State) (a : Nat) (f : Crane → Crane) : Served s (s.modCrane a f) := rfl

theorem Served.modBin (s : State) (n : Nat) (f : Bin → Bin) : Served s (s.modBin n f) := rfl

theorem Served.sendCrane (s : State) (a : Nat) (m : FieldTelegram) : Served s (s.sendCrane a m) :=
  (Dispatched.send s _ m).served

theorem Served.foldl {ι : Type} (l : List ι) {f : State → ι → State} (hf : ∀ t i, Served t (f t i)) (s : State) :
    Served s (l.foldl f s) := by
  induction l generalizing s with
  | nil => exact .refl s
  | cons i l ih => exact (hf s i).trans (ih _)

/-- A bin that goes on the forks was in doubt at no time. -/
theorem Served.liftBin (s : State) (j : Job) : Served s (s.liftBin j) := by
  unfold State.liftBin
  split
  · exact .refl s
  · split
    case isTrue n _ h =>
      have hne : s.binState n ≠ some .inDoubt := fun hd => by simp [hd] at h
      rw [State.setBinState_of_ne hne]
      exact .modBin _ _ _
    case isFalse => exact .refl s

theorem Served.startJob (s : State) (a : Nat) (x : Aisle) (j : Job) (p : Point) : Served s (s.startJob a x j p) :=
  (Served.modCrane _ _ _).trans (.sendCrane _ _ _)

theorem Served.activateNext (s : State) (a : Nat) : Served s (s.activateNext a) := by
  unfold State.activateNext
  split
  · exact .refl s
  · split
    · exact .refl s
    · exact (Served.modAisle _ _ _).trans (.startJob _ _ _ _ _)

theorem Served.offerStage (s : State) (a : Nat) : Served s (s.offerStage a) := (Dispatched.offerStage s a).served

theorem Served.activatePark (s : State) (a : Nat) : Served s (s.activatePark a) := by
  unfold State.activatePark
  split
  · exact .refl s
  · split
    · exact .refl s
    · split
      · exact (Served.modAisle _ _ _).trans ((Served.modCrane _ _ _).trans (.sendCrane _ _ _))
      · exact .refl s

theorem Served.resume (s : State) (a : Nat) : Served s (s.resume a) := by
  unfold State.resume
  split
  · exact .refl s
  · split
    · exact .refl s
    · split
      · exact (Served.modCrane _ _ _).trans ((Served.liftBin _ _).trans (.sendCrane _ _ _))
      · exact .refl s

theorem Served.lookAisle (s : State) (a : Nat) : Served s (s.lookAisle a) := by
  unfold State.lookAisle
  split
  · exact .refl s
  · split
    · split
      · exact (Served.resume s a).trans (.offerStage _ a)
      · exact (Served.activateNext s a).trans (.offerStage _ a)
    · exact .activatePark s a
    · exact .offerStage s a
    all_goals exact .refl s

theorem Served.lookAll (s : State) : Served s s.lookAll := .foldl _ (fun t a => .lookAisle t a) s

theorem Served.withdrawAll (s : State) : Served s s.withdrawAll := (Dispatched.withdrawAll s).served

/-- The wing takes the same work after the Dispatcher has acted. -/
theorem Served.receivesWork (h : Served s t) (tag : Nat) : t.receivesWork tag = s.receivesWork tag := by
  unfold Served at h
  rw [h]
  rfl

end

/-- What resumes is seen in the fixed part of the aisles. -/
theorem noneResumes_of_steady {s : State} (h : s.steady = true) : noneResumes s = true := by
  unfold State.steady at h
  exact (Bool.and_eq_true_iff.1 h).2

end Sys2Proof.Machine
end

section
/-! REQUEST_ITEM (O36, O37). -/
namespace Sys2Proof.Machine

section
variable {s : State} {tag st item n : Nat} {i : Item} {b : Bin} {x : Station}

/-- REQUEST_ITEM, past the checks of every order (R108). -/
theorem exec_requestItem {items : List Nat} (hw : s.receivesWork tag = true) (hlen : within 1 8 items.length = true) :
    exec (.requestItem tag st items) s = .next
      ((items.foldl (requestOne tag st) (s, [])).1.acceptOrder tag
        (.outcomes (items.foldl (requestOne tag st) (s, [])).2)) := by
  have h := order_work hw (.requestItem tag st items) .requestItem (State.requestItems tag st items)
  rw [← hlen] at h
  exact h

/-- The outcome of one item. -/
def State.requestOutcome (s : State) (st item : Nat) : Option RefusalCode × Nat :=
  match s.requestRefusal st item with
  | some c => (some c, 0)
  | none => (none, s.requestTag)

/-- The records that one item leaves. -/
def State.afterRequest (s : State) (order st item : Nat) : State :=
  if (s.requestRefusal st item).isSome then s else s.takeItem order st item

theorem requestOne_eq (order st : Nat) (acc : State × List (Option RefusalCode × Nat)) (item : Nat) :
    requestOne order st acc item = (acc.1.afterRequest order st item, acc.2 ++ [acc.1.requestOutcome st item]) := by
  unfold requestOne State.afterRequest State.requestOutcome
  cases acc.1.requestRefusal st item <;> rfl

/-- The outcomes so far have no part in what follows. -/
theorem foldl_requestOne (order st : Nat) (items : List Nat) (u : State) (l : List (Option RefusalCode × Nat)) :
    items.foldl (requestOne order st) (u, l) =
      ((items.foldl (requestOne order st) (u, [])).1, l ++ (items.foldl (requestOne order st) (u, [])).2) := by
  induction items generalizing u l with
  | nil => simp
  | cons item items ih =>
    simp only [List.foldl_cons, requestOne_eq, List.nil_append]
    rw [ih _ (l ++ _), ih _ [_]]
    simp

theorem length_foldl_requestOne (order st : Nat) (items : List Nat) (u : State) :
    (items.foldl (requestOne order st) (u, [])).2.length = items.length := by
  induction items generalizing u with
  | nil => rfl
  | cons item items ih =>
    simp only [List.foldl_cons, requestOne_eq, List.nil_append]
    rw [foldl_requestOne]
    simp [ih]

/-! ### The wing takes the next item as it took this one -/

theorem State.post_receivesWork (s : State) (r : Report) : (s.post r).receivesWork tag = s.receivesWork tag := by
  simp only [State.receivesWork, State.receives, State.portOpen, State.post_link_replies, State.post_link_restartPending,
    State.post_link_waiting]
  rfl

theorem State.offerPresent_receivesWork (s : State) (st : Nat) :
    (s.offerPresent st).receivesWork tag = s.receivesWork tag := by
  unfold State.offerPresent State.sendPresent
  split
  · split
    · rfl
    · exact (Dispatched.send s _ _).served.receivesWork tag
  · rfl

theorem State.travelFor_receivesWork (s : State) (st n : Nat) (b : Bin) (r : Request) :
    (s.travelFor st n b r).receivesWork tag = s.receivesWork tag := by
  unfold State.travelFor
  split
  · split
    · rw [State.offerPresent_receivesWork, State.readyOne, State.reportRequest, State.post_receivesWork]
    · rfl
  · rw [(Served.lookAll _).receivesWork tag]
    unfold State.callBin
    split <;> rfl
  · rw [State.reportRequest, State.post_receivesWork]
    rfl

theorem State.afterRequest_receivesWork (s : State) (order st item : Nat) :
    (s.afterRequest order st item).receivesWork tag = s.receivesWork tag := by
  unfold State.afterRequest State.takeItem
  split
  · rfl
  · split
    · rfl
    · split
      · rfl
      · rw [State.travelFor_receivesWork]
        rfl

/-! ### The checks of R109 -/

/-- An item without a record is unknown. -/
theorem State.requestRefusal_of_none (h : s.items.look item = none) : s.requestRefusal st item = some .unknownItem := by
  simp only [State.requestRefusal, h, ite_self]

variable (hnum : within 1 4294967295 item = true) (hi : s.items.look item = some i)
include hnum hi

theorem State.requestRefusal_of_notShelved (h : i.state ≠ .shelved) : s.requestRefusal st item = some .itemNotShelved := by
  have hr : itemNumberInRange item = true := (itemNumberInRange_eq item).trans hnum
  simp only [State.requestRefusal, hr, Bool.not_true, Bool.false_eq_true, if_false, hi, ne_eq, h, not_false_eq_true, if_true]

variable (hs : i.state = .shelved)
include hs

theorem State.requestRefusal_of_badStation (h : s.stations.look st = none ∨ within 1 4 st = false) :
    s.requestRefusal st item = some .badStation := by
  have hr : itemNumberInRange item = true := (itemNumberInRange_eq item).trans hnum
  rcases h with h | h
  · by_cases hst : within 1 4 st = true <;> simp [State.requestRefusal, hr, hi, hs, h, hst]
  · simp [State.requestRefusal, hr, hi, hs, h]

variable (hst : within 1 4 st = true) (hx : s.stations.look st = some x)
include hst hx

theorem State.requestRefusal_of_notLending (h : x.loaded.lending = false) : s.requestRefusal st item = some .badStation := by
  have hr : itemNumberInRange item = true := (itemNumberInRange_eq item).trans hnum
  simp [State.requestRefusal, hr, hi, hs, hst, hx, h]

/-- The checks on the home bin. -/
theorem State.requestRefusal_of_bin (hl : x.loaded.lending = true) (hn : i.home = some n) (hb : s.bins.look n = some b) :
    s.requestRefusal st item = s.requestBinRefusal x st b := by
  have hr : itemNumberInRange item = true := (itemNumberInRange_eq item).trans hnum
  simp [State.requestRefusal, hr, hi, hs, hst, hx, hl, hn, hb]

end

section
variable {s : State} {tag st item n : Nat} {i : Item} {b : Bin} {x : Station}

/-- The checks on the home bin, for a bin that stands in reach with room in the list (R109). -/
theorem State.requestBinRefusal_of_reach (hl : b.home.aisle ∈ x.loaded.linked) (hm : b.state ≠ .missing)
    (hd : b.state ≠ .inDoubt) (hroom : s.requests.length < 64) : s.requestBinRefusal x st b =
      match routeOf b st with
      | .join => none
      | .newJob => if s.queueFull b.home.aisle then some .queueFull else none
      | .followOn => if b.next.isSome && !decide (b.next = some st) then some .binBusy else none := by
  have hcap : ¬ Config.requestCapacity ≤ s.requests.length := Nat.not_le.2 hroom
  simp only [State.requestBinRefusal, firstRefusal, hl, hm, hd, hcap, decide_true, decide_false, Bool.not_true,
    Bool.false_eq_true, if_false]
  cases routeOf b st
  · simp
  · cases s.queueFull b.home.aisle <;> simp
  · cases b.next with
    | none => simp
    | some o => by_cases ho : o = st <;> simp [ho]

/-- The record and the item of a taken request, before the bin's travel (R110). -/
def State.taken (s : State) (order st item : Nat) (v : RequestState) : State :=
  { s with
    items := s.items.adjust item fun i => { i with state := .requested }
    nextRequest := tagAfter s.requestTag
    requests := s.requests ++
      [{ tag := s.requestTag, order := order, item := item, station := st, state := v, window := none }] }

theorem State.takeItem_of_look (hi : s.items.look item = some i) (hn : i.home = some n) (hb : s.bins.look n = some b) :
    s.takeItem tag st item =
      (s.taken tag st item (s.newRequestState st n b)).travelFor st n b (s.newRequest tag st item n b) := by
  simp only [State.takeItem, State.homeOf_of_look hi, hn, hb]
  rfl

/-- An order of one item that passes its checks. -/
theorem exec_requestItem_of_pass (hw : s.receivesWork tag = true) (h : s.requestRefusal st item = none) :
    exec (.requestItem tag st [item]) s = .next
      ((s.takeItem tag st item).acceptOrder tag (.outcomes [(none, s.requestTag)])) := by
  have hone := exec_requestItem (st := st) (items := [item]) hw rfl
  simpa only [List.foldl_cons, List.foldl_nil, requestOne_eq, List.nil_append, State.afterRequest, State.requestOutcome, h,
    Option.isSome_none, Bool.false_eq_true, if_false] using hone

theorem exec_requestItem_of_refusal {c : RefusalCode} (hw : s.receivesWork tag = true)
    (h : s.requestRefusal st item = some c) :
    exec (.requestItem tag st [item]) s = .next (s.acceptOrder tag (.outcomes [(some c, 0)])) := by
  have hone := exec_requestItem (st := st) (items := [item]) hw rfl
  simpa only [List.foldl_cons, List.foldl_nil, requestOne_eq, List.nil_append, State.afterRequest, State.requestOutcome, h,
    Option.isSome_some, if_true] using hone

end

/-- Settles O36: the route of the bin, and what each does with it (R110). -/
theorem requestItemTakesAShelvedItem : Obligations.RequestItemTakesAShelvedItem := by
  intro tag st item n i b x s hw hnum hi hs hn hb hst hx hl hlink hm hd hroom
  have hrefusal := (State.requestRefusal_of_bin hnum hi hs hst hx hl hn hb).trans
    (State.requestBinRefusal_of_reach hlink hm hd hroom)
  have htake := State.takeItem_of_look (tag := tag) (st := st) hi hn hb
  have hjoin : b.trip = some st → routeOf b st = .join := fun h => if_pos h
  have hnew : b.trip ≠ some st → b.state = .stored → routeOf b st = .newJob := fun h h' => by simp [routeOf, h, h']
  have hfollow : b.trip ≠ some st → b.state ≠ .stored → routeOf b st = .followOn := fun h h' => by simp [routeOf, h, h']
  refine ⟨fun ht hp => ?_, fun ht hp => ?_, fun ht hstored hq => ?_, fun ht hstored hnext => ?_, fun ht hstored hnext => ?_⟩
  · simp only [hjoin ht] at hrefusal
    rw [exec_requestItem_of_pass hw hrefusal, htake]
    simp only [State.travelFor, hjoin ht, State.newRequest, State.newRequestState, State.joinState, hp, if_true]
    rfl
  · simp only [hjoin ht] at hrefusal
    rw [exec_requestItem_of_pass hw hrefusal, htake]
    simp only [State.travelFor, hjoin ht, State.newRequest, State.newRequestState, State.joinState, hp, if_false]
    rw [if_neg (by split <;> decide)]
    rfl
  · simp only [hnew ht hstored, State.queueFull_of_room hq, Bool.false_eq_true, if_false] at hrefusal
    refine ⟨?_, fun hsteady => .lookAll _ (noneResumes_of_fixed ?_ |>.trans (noneResumes_of_steady hsteady))⟩
    · rw [exec_requestItem_of_pass hw hrefusal, htake]
      simp only [State.travelFor, hnew ht hstored, State.newRequestState]
      rw [State.callBin_of_look (s := s.taken tag st item .awaitingBin) hb]
      rfl
    · exact Table.map_adjust _ _ _ _ fun _ => rfl
  · simp only [hfollow ht hstored] at hrefusal
    rw [if_neg (by rcases hnext with h | h <;> simp [h])] at hrefusal
    rw [exec_requestItem_of_pass hw hrefusal, htake]
    have hset : (s.taken tag st item .awaitingBin).modBin n (fun b => { b with next := some (b.next.getD st) }) =
        (s.taken tag st item .awaitingBin).modBin n fun b => { b with next := some st } := by
      rw [State.modBin, Table.adjust_congr fun c hc => ?_]
      · rfl
      · obtain rfl := Option.some.inj (hb.symm.trans hc)
        rcases hnext with h | h <;> simp [h]
    simp only [State.travelFor, hfollow ht hstored, State.newRequestState]
    rw [hset]
    rfl
  · simp only [hfollow ht hstored] at hrefusal
    obtain ⟨o, ho, hne⟩ := hnext
    rw [if_pos (by simp [ho, hne])] at hrefusal
    exact exec_requestItem_of_refusal hw hrefusal

/-- Settles O37: the fold over the items, one item split off, and the checks of R109 on it. -/
theorem requestItemsAreJudgedInTurn : Obligations.RequestItemsAreJudgedInTurn := by
  intro tag st item rest s hw hrest
  have hone := exec_requestItem (st := st) (items := [item]) hw rfl
  have hu : (s.afterRequest tag st item).receivesWork tag = true := by rw [State.afterRequest_receivesWork, hw]
  have hlen : within 1 8 rest.length = true := by
    rw [within_iff] at hrest ⊢
    omega
  have hlen' : within 1 8 (item :: rest).length = true := by
    rw [within_iff] at hrest ⊢
    rw [List.length_cons]
    omega
  have hmany := exec_requestItem (st := st) (items := item :: rest) hw hlen'
  simp only [List.foldl_cons, List.foldl_nil, requestOne_eq, List.nil_append] at hone hmany
  rw [foldl_requestOne, List.singleton_append] at hmany
  refine ⟨_, _, s.requestOutcome st item, _, hone, exec_requestItem hu hlen, hmany, length_foldl_requestOne .., ?_⟩
  have hcode : ∀ {c}, s.requestRefusal st item = some c → (s.requestOutcome st item).1 = some c := fun h => by
    simp only [State.requestOutcome, h]
  refine ⟨fun hne => ?_, fun hnone => hcode (State.requestRefusal_of_none hnone),
    fun i hi hnum => ⟨fun hns => hcode (State.requestRefusal_of_notShelved hnum hi hns), fun hs =>
      ⟨fun hbad => hcode (State.requestRefusal_of_badStation hnum hi hs hbad), fun x hx hst =>
        ⟨fun hl => hcode (State.requestRefusal_of_notLending hnum hi hs hst hx hl), fun n b hl hn hb => ?_⟩⟩⟩⟩
  · cases hr : s.requestRefusal st item with
    | none => simp [State.requestOutcome, hr] at hne
    | some c => simp [State.afterRequest, State.requestOutcome, hr]
  have hbin := State.requestRefusal_of_bin hnum hi hs hst hx hl hn hb
  refine ⟨fun hlink => hcode (hbin.trans ?_), fun hlink => ⟨fun hm => hcode (hbin.trans ?_), fun hd => hcode (hbin.trans ?_),
    fun hm hd hfull => hcode (hbin.trans ?_), fun hst' hroom ht y hy hq => hcode (hbin.trans ?_)⟩⟩
  all_goals unfold State.requestBinRefusal
  · simp [firstRefusal, hlink]
  · simp [firstRefusal, hlink, hm]
  · simp [firstRefusal, hlink, hd]
  · have hcap : Config.requestCapacity ≤ s.requests.length := hfull
    simp [firstRefusal, hlink, hm, hd, hcap]
  · have hcap : ¬ Config.requestCapacity ≤ s.requests.length := Nat.not_le.2 hroom
    have hroute : routeOf b st = .newJob := by simp [routeOf, ht, hst']
    have hqueue : s.queueFull b.home.aisle = true := by
      simp only [State.queueFull, hy]
      exact decide_eq_true hq
    simp [firstRefusal, hlink, hst', hcap, hroute, hqueue]

end Sys2Proof.Machine
end

section
/-! The presentation of a bin, and its release (O41). -/
namespace Sys2Proof.Machine

section
variable {s : State} {st n : Nat} {x : Station}

theorem State.presentedBin_iff (hx : s.stations.look st = some x) :
    s.presentedBin st = some n ↔ (∃ rest, x.lane = .bin n :: rest) ∧ s.binState n = some .inLane := by
  simp only [State.presentedBin, hx]
  cases hl : x.lane with
  | nil => simp
  | cons p rest =>
    cases p with
    | bin m =>
      by_cases hm : s.binState m = some .inLane
      · simp only [hm, if_true, Option.some.injEq, List.cons.injEq, Place.bin.injEq, exists_eq_right']
        exact ⟨fun h => ⟨h, h ▸ hm⟩, fun h => h.1⟩
      · simp only [hm, if_false, reduceCtorEq, List.cons.injEq, Place.bin.injEq, false_iff]
        rintro ⟨⟨_, h, -⟩, hn⟩
        exact hm (h ▸ hn)
    | _ => simp

theorem State.presentTop_of_none (h : s.presentedBin st = none) : s.presentTop st = s := by
  simp only [State.presentTop, h]

theorem State.offerPresent_of_none (h : s.presentedBin st = none) : s.offerPresent st = s := by
  simp only [State.offerPresent, State.sendPresent, h, ite_self]

/-- PRESENT goes to the station while its zone is NORMAL or ALERT (R87). -/
theorem State.offerPresent_of_presented (hx : s.stations.look st = some x) (h : s.presentedBin st = some n) :
    s.offerPresent st =
      if s.stationOpen st then
        { s with link := { s.link with
            field := s.link.field ++ [fieldFrame x.loaded.address (s.presentTelegram st n)] } }
      else s := by
  simp only [State.offerPresent, State.sendPresent, h]
  rw [State.sendStation_of_look hx]

/-- The display data (R112, R131). -/
theorem State.presentTelegram_eq (hx : s.stations.look st = some x) : s.presentTelegram st n =
    let pick := (s.requests.filter fun r =>
      decide (r.state = .presented) && decide (r.station = st)
        && decide ((s.items.look r.item).bind (·.home) = some n)).map (·.item)
    let shelve := (x.returns.filter fun e => decide (e.target = n)).map (·.item)
    .present n pick.length shelve.length ((pick ++ shelve).take 15) := by
  simp only [State.presentTelegram, State.toShelve, hx]
  rfl

/-- A request that stands on the bin for the station (R106). -/
def State.onFor (s : State) (st n : Nat) (r : Request) : Bool :=
  !decide (r.state = .picked) && decide (r.station = st) && decide ((s.items.look r.item).bind (·.home) = some n)

theorem State.standsFor_eq_onFor (s : State) (st n : Nat) (r : Request) : s.standsFor n st r = s.onFor st n r := by
  rw [State.standsFor, State.standsOn, State.onFor, Bool.and_right_comm]
  rfl

/-- The reports of a presentation: that of the bin, then one for each request that becomes PRESENTED (R87, R112). -/
def State.presentReports (s : State) (st n : Nat) : List Report :=
  { kind := .binPresented, subject := .bin n, order := none, code := some (.number st) } ::
    (s.requests.filter fun r => s.onFor st n r && !decide (r.state = .presented)).map fun r =>
      { kind := .requestReady, subject := .item r.item, order := some r.order, code := some (.number st) }

/-- The request list after the presentation (R112). -/
def State.presentedRequests (s : State) (st n : Nat) : List Request :=
  s.requests.map fun r => if s.onFor st n r then { r with state := .presented } else r

/-- The presentation before its PRESENT: the reports, and the requests that become PRESENTED. -/
theorem State.markPresented_eq (s : State) (st n : Nat) :
    (s.report .binPresented (.bin n) (some (.number st))).markPresented st n =
      { s.posted (s.presentReports st n) with requests := s.presentedRequests st n } := by
  have hmap : (s.requests.map fun r => if s.becomesPresented st n r then { r with state := .presented } else r) =
      s.presentedRequests st n := by
    refine List.map_congr_left fun r _ => ?_
    rw [State.becomesPresented, State.standsFor_eq_onFor]
    by_cases hp : r.state = .presented
    · rw [← hp]
      simp
    · simp [hp]
  have hfilter : s.becomesPresented st n = fun r => s.onFor st n r && !decide (r.state = .presented) :=
    funext fun r => by rw [State.becomesPresented, State.standsFor_eq_onFor]
  have hmarked : (s.report .binPresented (.bin n) (some (.number st))).markPresented st n =
      { (s.requests.filter (s.becomesPresented st n)).foldl (State.readyOne st)
          (s.report .binPresented (.bin n) (some (.number st))) with
        requests := s.requests.map fun r => if s.becomesPresented st n r then { r with state := .presented } else r } := rfl
  rw [hmarked, hmap, hfilter, State.presentReports, State.posted, List.foldl_cons, List.foldl_map]
  rfl

/-- What is picked at the station once its bin is presented is all that stands on the bin there. -/
theorem State.toPick_presented {v : State} (hi : v.items = s.items)
    (hr : v.requests = s.presentedRequests st n) :
    v.toPick st n = (s.requests.filter (s.onFor st n)).map (·.item) := by
  rw [State.toPick, hr, State.presentedRequests, List.filter_map, List.map_map]
  have hitem : ((fun r : Request => r.item) ∘ fun r => if s.onFor st n r then { r with state := .presented } else r) =
      fun r => r.item := funext fun r => by by_cases h : s.onFor st n r <;> simp [h]
  rw [hitem]
  refine congrArg _ (List.filter_congr fun r _ => ?_)
  have hhome : v.homeOf = s.homeOf := by
    unfold State.homeOf
    rw [hi]
  by_cases h : s.onFor st n r = true
  · have h' := h
    simp only [State.onFor, Bool.and_eq_true, decide_eq_true_eq] at h'
    obtain ⟨⟨-, hst⟩, hn⟩ := h'
    have hn' : s.homeOf r.item = some n := hn
    simp [h, hhome, hst, hn']
  · rw [Bool.not_eq_true] at h
    simp only [Function.comp_apply, h, Bool.false_eq_true, if_false, hhome]
    rw [← Bool.not_eq_true] at h ⊢
    intro hp
    refine h ?_
    simp only [Bool.and_eq_true, decide_eq_true_eq] at hp
    obtain ⟨⟨hs, hst⟩, hn⟩ := hp
    have hn' : (s.items.look r.item).bind (·.home) = some n := hn
    simp [State.onFor, hs, hst, hn']

/-- Reports change what the host link holds, and nothing else. -/
theorem State.posted_rest (s : State) (l : List Report) : s.posted l = { s with link := (s.posted l).link } := by
  induction l generalizing s with
  | nil => rfl
  | cons r l ih => exact ih (s.post r)

/-- The presented bin is that of the stations and bins. -/
theorem State.presentedBin_congr {v : State} (hs : v.stations = s.stations) (hb : v.bins = s.bins) :
    v.presentedBin st = s.presentedBin st := by
  unfold State.presentedBin State.binState
  rw [hs, hb]

theorem State.stationOpen_congr {v : State} (hs : v.stations = s.stations) (hz : v.zones = s.zones) :
    v.stationOpen st = s.stationOpen st := by
  simp only [State.stationOpen, State.stationZone, State.zoneOpen, State.zoneState, hs, hz]

/-- The bin that has become the presented bin of a station (R87, R112). -/
theorem State.presentTop_of_presented (hx : s.stations.look st = some x) (h : s.presentedBin st = some n) :
    s.presentTop st =
      let pick := (s.requests.filter (s.onFor st n)).map (·.item)
      let shelve := (x.returns.filter fun e => decide (e.target = n)).map (·.item)
      let v := { s.posted (s.presentReports st n) with requests := s.presentedRequests st n }
      if s.stationOpen st then
        { v with link := { v.link with
            field := v.link.field ++
              [fieldFrame x.loaded.address (.present n pick.length shelve.length ((pick ++ shelve).take 15))] } }
      else v := by
  simp only [State.presentTop, h]
  rw [State.markPresented_eq, State.posted_rest]
  generalize (s.posted (s.presentReports st n)).link = l
  refine (State.offerPresent_of_presented (s := { s with link := l, requests := s.presentedRequests st n })
    (x := x) (n := n) hx h).trans ?_
  rw [State.presentTelegram_eq (s := { s with link := l, requests := s.presentedRequests st n }) hx,
    ← State.toPick_presented (s := s) (st := st) (n := n)
      (v := { s with link := l, requests := s.presentedRequests st n }) rfl rfl]
  rfl

/-! ### RELEASE_BIN -/

/-- The lanes are as they were where a bin left the overdue lists. -/
theorem laneOf_of_lanes {u : State} (h : ∃ f : Nat → Station → Station,
    (∀ k x, (f k x).lane = x.lane) ∧ u.stations = s.stations.mapRecords f) : u.laneOf n = s.laneOf n := by
  obtain ⟨f, hf, hu⟩ := h
  simp only [State.laneOf, hu, Table.mapRecords, List.find?_map, Option.map_map]
  simp only [Function.comp_def, hf]

end

/-- Settles O41: `presentTop`, `presentTelegram` and `offerPresent` of a presented bin, and the checks of R18. -/
theorem presentationAndReleaseOfABin : Obligations.PresentationAndReleaseOfABin := by
  refine ⟨fun st n x rest s hx hl hn => ?_, fun st x s hx => ⟨fun n => State.presentedBin_iff hx,
      fun h => ⟨State.presentTop_of_none h, State.offerPresent_of_none h⟩,
      fun n h => ⟨State.presentTelegram_eq hx, State.offerPresent_of_presented hx h⟩⟩,
    fun tag n b s hw hb hnamed => ⟨fun hst st hlane => ?_, fun hm => ?_, fun hd hlane => ?_, fun h1 h2 h3 => ?_⟩⟩
  · exact State.presentTop_of_presented hx ((State.presentedBin_iff hx).2 ⟨⟨rest, hl⟩, hn⟩)
  · refine (order_work hw _ _ _).trans ?_
    have hin : s.inLane n = true := by simp [State.inLane, hlane]
    have hm : b.state ≠ .missing := by rcases hst with h | h <;> simp [h]
    have hok : (decide (b.state = .lockedOut) || decide (b.state = .inDoubt)) = true := by simpa using hst
    simp only [hb, State.answer_checks_cons, State.answer_checks_nil, decide_eq_false hm, hin, hok, hnamed, Bool.not_true,
      Bool.and_false, Bool.false_eq_true, if_false, State.answer_accept]
    have hreleased := State.setBinState_eq (v := .inLane) (by decide) hb
    have hat : (s.setBinState n .inLane).laneOf n = some st := by
      rw [hreleased]
      by_cases hd : b.state = .inDoubt
      · rw [if_pos hd]
        exact (laneOf_of_lanes ⟨fun _ x => { x with overdue := x.overdue.filter (· != n) }, fun _ _ => rfl, rfl⟩).trans hlane
      · rw [if_neg hd]
        exact hlane
    simp only [State.releaseBin, hat]
    rw [hreleased]
  · refine (order_work hw _ _ _).trans ?_
    simp [hb, State.answer_checks_cons, hm]
  · refine (order_work hw _ _ _).trans ?_
    have hno : s.inLane n = false := by simp [State.inLane, hlane]
    simp [hb, State.answer_checks_cons, hd, hno]
  · refine (order_work hw _ _ _).trans ?_
    simp [hb, State.answer_checks_cons, h1, h2, h3]

end Sys2Proof.Machine
end

section
/-! WITHDRAW_REQUEST (O39). -/
namespace Sys2Proof.Machine

section
variable {s w : State} {n st a : Nat} {b : Bin}

theorem State.uncallBin_of_ne (hb : w.bins.look n = some b) (h : b.state ≠ .called) : w.uncallBin n = w := by
  have hst := State.binState_of_look hb
  exact if_neg (by simp [hst, h])

/-- A CALLED bin is STORED again, and may be called on (R58, R119). -/
theorem State.uncallBin_of_called (hb : w.bins.look n = some b) (h : b.state = .called) :
    w.uncallBin n = (w.modBin n fun b => { b with state := .stored, trip := none }).followOn n := by
  have hst := State.binState_of_look hb
  rw [State.uncallBin, if_pos (by simp [hst, h]), State.setBinState_of_ne (by simp [hst, h]), State.clearTrip,
    State.modBin_modBin]

theorem State.look_uncalled (hb : w.bins.look n = some b) :
    (w.modBin n fun b => { b with state := .stored, trip := none }).bins.look n =
      some { b with state := .stored, trip := none } := by
  simp [State.modBin, hb]

/-- A request stands on the bin for the station (R106). -/
def State.requestStands (v : State) (n o : Nat) (q : Request) : Prop :=
  q.state ≠ .picked ∧ q.station = o ∧ ∃ i, v.items.look q.item = some i ∧ i.home = some n

theorem State.requestStands_iff {o : Nat} {q : Request} : w.standsFor n o q = true ↔ w.requestStands n o q := by
  rw [State.standsFor_iff, State.requestStands, Option.bind_eq_some_iff]
  exact and_congr_right fun _ => and_comm

theorem State.any_standsFor_iff_stands {o : Nat} :
    w.requests.any (w.standsFor n o) = true ↔ ∃ q ∈ w.requests, w.requestStands n o q := by
  simp only [List.any_eq_true, State.requestStands_iff]

/-- A CALLED bin that has no next station. -/
theorem State.uncallBin_home (hb : w.bins.look n = some b) (h : b.state = .called) (hn : b.next = none) :
    w.uncallBin n = { w with bins := w.bins.adjust n fun b => { b with state := .stored, trip := none, next := none } } := by
  rw [State.uncallBin_of_called hb h, State.followOn_of_next_none (State.look_uncalled hb) hn, State.modBin]
  rw [Table.adjust_congr fun c hc => ?_]
  obtain rfl := Option.some.inj (hb.symm.trans hc)
  simp [hn]

/-- The bin is called on to a station. -/
def State.calledOn (w : State) (n : Nat) (b : Bin) (o : Nat) (p : Purpose) : State :=
  { w with
    bins := w.bins.adjust n fun b => { b with state := .called, trip := some o, next := none }
    aisles := w.aisles.adjust b.home.aisle fun x => { x with queue := x.queue ++ [retrieveJob n b.home o p w.jobTag] }
    nextJob := tagAfter w.jobTag }

/-- A CALLED bin with a next station: whether something stands on it there decides (R9, R111). -/
theorem State.uncallBin_next {o : Nat} (hb : w.bins.look n = some b) (h : b.state = .called) (hn : b.next = some o) :
    ((∃ q ∈ w.requests, w.requestStands n o q) → w.uncallBin n = w.calledOn n b o .request)
    ∧ ((¬∃ q ∈ w.requests, w.requestStands n o q) → w.awaitedAt n o = true → w.uncallBin n = w.calledOn n b o .ret)
    ∧ ((¬∃ q ∈ w.requests, w.requestStands n o q) → ¬ w.awaitedAt n o = true → w.uncallBin n =
      { w with bins := w.bins.adjust n fun b => { b with state := .stored, trip := none, next := none } }) := by
  have hb' := State.look_uncalled hb
  have hcall : ∀ p, (State.modBin (w.modBin n fun b => { b with state := .stored, trip := none }) n
      fun b => { b with next := none }).callBin n o p = w.calledOn n b o p := fun p => by
    rw [State.callBin_of_cleared hb', State.modBin, Table.adjust_adjust]
    rfl
  have hany : (w.modBin n fun b => { b with state := .stored, trip := none }).requests.any
      ((w.modBin n fun b => { b with state := .stored, trip := none }).standsFor n o) = true ↔
        ∃ q ∈ w.requests, w.requestStands n o q := State.any_standsFor_iff_stands
  rw [State.uncallBin_of_called hb h, State.followOn_of_next hb' hn]
  refine ⟨fun hr => ?_, fun hr ha => ?_, fun hr ha => ?_⟩
  · exact (if_pos (hany.2 hr)).trans (hcall _)
  · exact (if_neg (mt hany.1 hr)).trans ((if_pos ha).trans (hcall _))
  · exact (if_neg (mt hany.1 hr)).trans ((if_neg ha).trans (State.modBin_modBin ..))
/-- What is settled of a bin's return: it keeps its state, or is STORED again, or is called on. -/
theorem uncalled_cases {bins : Table Bin} (hw : w.bins = bins) (hb : bins.look n = some b) {P : State → Prop}
    (h : P (w.uncallBin n)) :
    (b.state ≠ .called → P w) ∧ (b.state = .called →
      (b.next = none → P { w with bins := bins.adjust n fun b => { b with state := .stored, trip := none, next := none } })
      ∧ ∀ o, b.next = some o →
        let call (p : Purpose) : State :=
          { w with
            bins := bins.adjust n fun b => { b with state := .called, trip := some o, next := none }
            aisles := w.aisles.adjust b.home.aisle fun x => { x with queue := x.queue ++ [retrieveJob n b.home o p w.jobTag] }
            nextJob := tagAfter w.jobTag }
        let awaits : Prop := ∃ y, w.stations.look o = some y ∧ ∃ e ∈ y.returns, e.target = n
        ((∃ q ∈ w.requests, w.requestStands n o q) → P (call .request))
        ∧ ((¬∃ q ∈ w.requests, w.requestStands n o q) → awaits → P (call .ret))
        ∧ ((¬∃ q ∈ w.requests, w.requestStands n o q) → ¬awaits →
          P { w with bins := bins.adjust n fun b => { b with state := .stored, trip := none, next := none } })) := by
  subst hw
  refine ⟨fun hc => ?_, fun hc => ⟨fun hn => ?_, fun o hn => ?_⟩⟩
  · rwa [State.uncallBin_of_ne hb hc] at h
  · rwa [State.uncallBin_home hb hc hn] at h
  · obtain ⟨h1, h2, h3⟩ := State.uncallBin_next hb hc hn
    rw [State.awaitedAt_iff] at h2 h3
    exact ⟨fun hr => (congrArg P (h1 hr)).mp h, fun hr ha => (congrArg P (h2 hr ha)).mp h,
      fun hr ha => (congrArg P (h3 hr ha)).mp h⟩

/-! ### The jobs that serve the trip -/

theorem State.stillNeeded_iff : w.stillNeeded n st = true ↔
    (∃ q ∈ w.requests, w.requestStands n st q)
      ∨ (∃ y, w.stations.look st = some y ∧ ∃ e ∈ y.returns, e.target = n)
      ∨ ∃ e ∈ w.aisles, ∃ j ∈ e.2.jobs,
          (j.bin = some n ∧ j.kind = .retrieve ∧ j.station = some st) ∧ j.purpose = some .call := by
  rw [State.stillNeeded, Bool.or_eq_true, Bool.or_eq_true, State.any_standsFor_iff_stands, State.awaitedAt_iff, or_assoc]
  simp [Job.names, Job.boundFor, and_assoc]

theorem State.queuedFor_eq_some (h : w.queuedFor n st = some a) :
    ∃ x, (a, x) ∈ w.aisles ∧ ∃ j ∈ x.queue, j.bin = some n ∧ j.kind = .retrieve ∧ j.station = some st := by
  obtain ⟨⟨k, x⟩, hfind, rfl⟩ := Option.map_eq_some_iff.1 h
  have hserves := List.find?_some hfind
  simp only [List.any_eq_true, servesTrip_iff] at hserves
  exact ⟨x, List.mem_of_find?_eq_some hfind, hserves⟩

theorem State.queuedFor_eq_none (h : w.queuedFor n st = none) : ∀ e ∈ w.aisles, ∀ j ∈ e.2.queue,
    ¬(j.bin = some n ∧ j.kind = .retrieve ∧ j.station = some st) := by
  intro e he j hj hs
  refine List.find?_eq_none.1 (Option.map_eq_none_iff.1 h) e he ?_
  exact List.any_eq_true.2 ⟨j, hj, servesTrip_iff.2 hs⟩

theorem State.stagedFor_eq_some (h : w.stagedFor n st = some a) :
    ∃ x, (a, x) ∈ w.aisles ∧
      ∃ j, x.crane.staged = some j ∧ j.bin = some n ∧ j.kind = .retrieve ∧ j.station = some st := by
  obtain ⟨⟨k, x⟩, hfind, rfl⟩ := Option.map_eq_some_iff.1 h
  have hserves := List.find?_some hfind
  simp only [Option.any_eq_true, servesTrip_iff] at hserves
  exact ⟨x, List.mem_of_find?_eq_some hfind, hserves⟩

theorem State.stagedFor_eq_none (h : w.stagedFor n st = none) : ∀ e ∈ w.aisles, ∀ j, e.2.crane.staged = some j →
    ¬(j.bin = some n ∧ j.kind = .retrieve ∧ j.station = some st) := by
  intro e he j hj hs
  refine List.find?_eq_none.1 (Option.map_eq_none_iff.1 h) e he ?_
  exact (Option.any_eq_true ..).2 ⟨j, hj, servesTrip_iff.2 hs⟩

/-- A PRESENT leaves all but what the field link has sent. -/
theorem State.offerPresent_rest (s : State) (st : Nat) : s.offerPresent st = { s with link := (s.offerPresent st).link } := by
  unfold State.offerPresent State.sendPresent
  split
  · split <;> rfl
  · rfl

/-- The records after the request has left (R118). -/
def State.withdrawn (s : State) (r : Request) : State :=
  if r.state = .presented then ((s.endRequest r.item).modItem r.item fun i => { i with state := .shelved }).offerPresent r.station
  else (s.endRequest r.item).modItem r.item fun i => { i with state := .shelved }

theorem State.withdrawn_spec (s : State) (r : Request) :
    (s.withdrawn r).bins = s.bins ∧ (s.withdrawn r).aisles = s.aisles ∧ (s.withdrawn r).addresses = s.addresses := by
  unfold State.withdrawn
  split
  · rw [State.offerPresent_rest]
    exact ⟨rfl, rfl, rfl⟩
  · exact ⟨rfl, rfl, rfl⟩
end

/-- Settles O39: the checks of R118, then the trip by the RETRIEVE that serves it (R119). -/
theorem withdrawRequestSettlesTheTrip : Obligations.WithdrawRequestSettlesTheTrip := by
  intro tag n i r s hw ht hfind hi hn
  have hrange : tagInRange r.tag = true := ht
  have hreq : s.requestOf r.tag = some r := hfind
  refine ⟨fun hp => ?_, fun hp => ?_⟩
  · refine (order_work hw _ _ _).trans ?_
    simp only [hrange, Bool.not_true, Bool.false_eq_true, if_false, hreq, hp, if_true]
    rfl
  have htaken : exec (.withdrawRequest tag r.tag) s = .next ((s.withdraw r).acceptOrder tag .empty) := by
    refine (order_work hw _ _ _).trans ?_
    simp only [hrange, Bool.not_true, Bool.false_eq_true, if_false, hreq, hp]
    rfl
  obtain ⟨hbins, haisles, haddr⟩ := s.withdrawn_spec r
  have hwithdraw : s.withdraw r = (s.withdrawn r).settleTrip n r.station := by
    simp only [State.withdraw, State.homeOf_of_look hi, hn]
    rfl
  rw [hwithdraw] at htaken
  refine ⟨State.stillNeeded_iff (w := s.withdrawn r), fun a => State.queuedFor_eq_some (w := s.withdrawn r),
    State.queuedFor_eq_none (w := s.withdrawn r), fun a => State.stagedFor_eq_some (w := s.withdrawn r),
    State.stagedFor_eq_none (w := s.withdrawn r), fun hneed => ?_, fun a b hneed hq hb => ?_,
    fun a b x j hneed hq hst hb hx hj => ?_, fun hneed hq hst => ?_⟩
  · have hneed' : (s.withdrawn r).stillNeeded n r.station = true := hneed
    simp only [State.settleTrip, hneed', if_true] at htaken
    exact htaken
  · have hneed' : (s.withdrawn r).stillNeeded n r.station = false := hneed
    have hq' : (s.withdrawn r).queuedFor n r.station = some a := hq
    simp only [State.settleTrip, hneed', Bool.false_eq_true, if_false, hq'] at htaken
    have hfilter : (fun j => !servesTrip n r.station j) = fun j : Job =>
      !(decide (j.bin = some n) && decide (j.kind = .retrieve) && decide (j.station = some r.station)) :=
      funext fun j => by rw [servesTrip, Job.names, Job.boundFor, Bool.and_assoc]
    rw [hfilter] at htaken
    exact uncalled_cases (w := State.modAisle (s.withdrawn r) a _) (P := fun u => ∃ t : State,
      exec (.withdrawRequest tag r.tag) s = .next (t.acceptOrder tag .empty) ∧ Settled u t) hbins hb
      ⟨_, htaken, settled_settleWing _⟩
  · have hneed' : (s.withdrawn r).stillNeeded n r.station = false := hneed
    have hq' : (s.withdrawn r).queuedFor n r.station = none := hq
    have hst' : (s.withdrawn r).stagedFor n r.station = some a := hst
    have hx' : (s.withdrawn r).aisles.look a = some x := haisles ▸ hx
    have hcrane : (s.withdrawn r).craneAddress a = s.craneAddress a := by
      unfold State.craneAddress
      rw [haddr]
    have hdrop : (s.withdrawn r).dropStaged a =
        { s.withdrawn r with
          aisles := (s.withdrawn r).aisles.adjust a fun x => { x with crane := { x.crane with staged := none } }
          link := (s.withdrawn r).link.sendTo (s.craneAddress a) (.unstage j.tag) } := by
      simp only [State.dropStaged, hx', hj]
      rw [← hcrane]
      rfl
    simp only [State.settleTrip, hneed', Bool.false_eq_true, if_false, hq', hst', hdrop] at htaken
    exact uncalled_cases (w := { s.withdrawn r with
          aisles := (s.withdrawn r).aisles.adjust a fun x => { x with crane := { x.crane with staged := none } }
          link := (s.withdrawn r).link.sendTo (s.craneAddress a) (.unstage j.tag) }) (P := fun u => ∃ t : State,
      exec (.withdrawRequest tag r.tag) s = .next (t.acceptOrder tag .empty) ∧ Settled u t) hbins hb
      ⟨_, htaken, settled_settleWing _⟩
  · have hneed' : (s.withdrawn r).stillNeeded n r.station = false := hneed
    have hq' : (s.withdrawn r).queuedFor n r.station = none := hq
    have hst' : (s.withdrawn r).stagedFor n r.station = none := hst
    simp only [State.settleTrip, hneed', Bool.false_eq_true, if_false, hq', hst'] at htaken
    exact htaken

end Sys2Proof.Machine
end

section
/-! The loss of a bin: the requests that fail and the return entries that are displaced (O50). -/
namespace Sys2Proof.Machine

section
variable {α : Type} {t : Table α}

theorem Table.mapRecords_mapRecords (f g : Nat → α → α) :
    (t.mapRecords f).mapRecords g = t.mapRecords fun n x => g n (f n x) := by
  simp only [Table.mapRecords, List.map_map]
  rfl

/-- A change made once more of a record that it may have changed already. -/
theorem Table.adjust_mapRecords_ite (hw : t.wf = true) {p : Nat → Bool} {f : α → α} (hf : ∀ x, f (f x) = f x) (a : Nat) :
    (t.mapRecords fun n x => if p n then f x else x).adjust a f =
      t.mapRecords fun n x => if p n || decide (a = n) then f x else x := by
  rw [Table.adjust_mapRecords hw]
  refine Table.mapRecords_congr fun e _ => ?_
  by_cases h : e.1 = a
  · cases hp : p e.1 <;> simp [h, hf]
  · simp [h, Ne.symm h]

end

section
variable {s : State} {n st : Nat}

/-- The reports of a list, as the queues of the host link take them. -/
theorem State.posted_link (s : State) (l : List Report) :
    (s.posted l).link = l.foldl (fun k r => k.post (classOf s.classes r.kind) r) s.link := by
  induction l generalizing s with
  | nil => rfl
  | cons r l ih => exact ih (s.post r)

theorem State.posted_append (s : State) (l m : List Report) : s.posted (l ++ m) = (s.posted l).posted m :=
  List.foldl_append

/-! ### The requests that fail (R120, R121) -/

/-- The report of a failed request. -/
def failReport (code : RefusalCode) (r : Request) : Report :=
  { kind := .requestFailed, subject := .item r.item, order := some r.order, code := some (.refusal code) }

/-- Requests that fail: their reports, and their items SHELVED. -/
theorem State.foldl_failOne (hw : s.items.wf = true) (code : RefusalCode) (l : List Request) :
    l.foldl (State.failOne code) s =
      { s with
        items := s.items.mapRecords fun i y => if l.any fun r => decide (r.item = i) then { y with state := .shelved } else y
        link := (s.posted (l.map (failReport code))).link } := by
  induction l using List.reverseRecOn with
  | nil => simp [Table.mapRecords_eq_self, State.posted]
  | append_singleton l r ih =>
    rw [List.foldl_append, ih, List.map_append, State.posted_append, State.posted_rest s (l.map _)]
    simp only [List.foldl_cons, List.foldl_nil, State.failOne, State.reportRequest, State.post, State.modItem]
    rw [Table.adjust_mapRecords_ite hw (f := fun y : Item => { y with state := .shelved }) fun _ => rfl]
    simp only [List.any_append, List.any_cons, List.any_nil, Bool.or_false]
    rfl

/-! ### The return entries that are displaced (R133) -/

/-- The report of a displaced return entry. -/
def displaceReport (code : RefusalCode) (e : ReturnEntry) : Report :=
  { kind := .returnDisplaced, subject := .item e.item, order := none, code := some (.refusal code) }

/-- The room that return entries hold. -/
def State.roomOf (s : State) (l : List ReturnEntry) : Nat := (l.map fun e => s.thicknessOf e.item).sum

/-- Return entries of one target that are displaced: their reports, their items in OVERFLOW, their room freed. -/
theorem State.foldl_displaceOne (hw : s.items.wf = true) (code : RefusalCode) (l : List ReturnEntry)
    (hl : ∀ e ∈ l, e.target = n) : l.foldl (State.displaceOne code) s =
      { s with
        bins := s.bins.adjust n fun b => { b with reserved := b.reserved - s.roomOf l }
        items := s.items.mapRecords fun i y =>
          if l.any fun e => decide (e.item = i) then { y with state := .overflow, target := none } else y
        link := (s.posted (l.map (displaceReport code))).link } := by
  induction l using List.reverseRecOn with
  | nil => simp [Table.mapRecords_eq_self, State.posted, State.roomOf, Table.adjust_eq_self]
  | append_singleton l e ih =>
    have htarget : e.target = n := hl e (List.mem_append_right _ List.mem_cons_self)
    rw [List.foldl_append, ih fun q hq => hl q (List.mem_append_left _ hq), List.map_append, State.posted_append,
      State.posted_rest s (l.map _)]
    have hthick : ∀ w : State, (w.items = s.items.mapRecords fun i y =>
        if l.any fun e => decide (e.item = i) then { y with state := .overflow, target := none } else y) →
        w.thicknessOf e.item = s.thicknessOf e.item := fun w h => by
      rw [State.thicknessOf, State.thicknessOf, h, Table.look_mapRecords]
      cases s.items.look e.item with
      | none => rfl
      | some y => cases l.any fun q => decide (q.item = e.item) <;> rfl
    simp only [List.foldl_cons, List.foldl_nil, State.displaceOne, State.report, State.post, State.modItem, State.modBin,
      htarget, Table.adjust_adjust]
    rw [hthick _ rfl,
      Table.adjust_mapRecords_ite hw (f := fun y : Item => { y with state := .overflow, target := none }) fun _ => rfl]
    simp only [List.any_append, List.any_cons, List.any_nil, Bool.or_false, Bin.release, Nat.sub_sub, State.roomOf,
      List.map_append, List.map_cons, List.map_nil, List.sum_append, List.sum_cons, List.sum_nil, Nat.add_zero]
    rfl

/-- A displacement asks nothing of the stations. -/
theorem State.foldl_displaceOne_stations (code : RefusalCode) (l : List ReturnEntry) (w : State) (v : Table Station) :
    l.foldl (State.displaceOne code) { w with stations := v } =
      { l.foldl (State.displaceOne code) w with stations := v } := by
  induction l generalizing w with
  | nil => rfl
  | cons e l ih => exact ih (w.displaceOne code e)

/-- The return entries of a station that target the bin. -/
def Station.aimedAt (n : Nat) (x : Station) : List ReturnEntry := x.returns.filter fun e => decide (e.target = n)

/-- The return entries that target the bin, in ascending station (R133). -/
def State.aimedAt (s : State) (n : Nat) : List ReturnEntry := s.stations.flatMap fun e => e.2.aimedAt n

theorem State.target_of_aimedAt {e : ReturnEntry} (h : e ∈ s.aimedAt n) : e.target = n := by
  obtain ⟨x, -, hx⟩ := List.mem_flatMap.1 h
  exact of_decide_eq_true (List.mem_filter.1 hx).2

/-- The station without them. -/
def Station.spared (n : Nat) (x : Station) : Station :=
  { x with returns := x.returns.filter fun e => !decide (e.target = n) }

theorem State.displaceAt_of_look {code : RefusalCode} {x : Station} (hx : s.stations.look st = some x) :
    s.displaceAt n code st =
      { (x.aimedAt n).foldl (State.displaceOne code) s with
        stations := s.stations.adjust st (Station.spared n) } := by
  have hst : ((x.aimedAt n).foldl (State.displaceOne code) s).stations = s.stations :=
    (congrArg State.stations (State.foldl_displaceOne_stations code (x.aimedAt n) s s.stations)).trans rfl
  simp only [State.displaceAt, hx, State.modStation]
  rw [← hst]
  rfl

/-- The displacement of what targets the bin, station by station. -/
theorem State.displaceAll_eq_foldl (hw : s.stations.wf = true) (code : RefusalCode) : s.displaceAll n code =
    { (s.aimedAt n).foldl (State.displaceOne code) s with
      stations := s.stations.mapRecords fun _ => Station.spared n } := by
  have key := foldl_induct (step := fun s st => State.displaceAt s n code st) (l := s.stations.numbers) (s := s)
    (fun done u => u = { (done.flatMap fun m => ((s.stations.look m).map (Station.aimedAt n)).getD []).foldl (State.displaceOne code) s with
      stations := s.stations.mapRecords fun m x => if m ∈ done then x.spared n else x })
    (by simp [Table.mapRecords_eq_self])
    (fun done st rest u hl hu => ?_)
  · refine key.trans ?_
    rw [Table.mapRecords_numbers (t := s.stations) fun _ => Station.spared n,
      Table.flatMap_numbers hw fun _ o => (o.map (Station.aimedAt n)).getD []]
    rfl
  · have hnot := not_mem_of_split (Table.nodup_numbers hw) hl
    obtain ⟨x, hx⟩ := Option.isSome_iff_exists.1 (Table.look_isSome_of_mem (hl ▸ List.mem_append_right _ List.mem_cons_self))
    have hx' : u.stations.look st = some x := by
      rw [hu]
      exact (Table.look_passed (fun _ => Station.spared n) hnot).trans hx
    rw [State.displaceAt_of_look hx', hu, State.foldl_displaceOne_stations]
    simp only [List.flatMap_append, List.flatMap_cons, List.flatMap_nil, List.append_nil, hx, List.foldl_append]
    rw [Table.adjust_passed hw (fun _ => Station.spared n) hnot]
    rfl

/-- What targets the bin, displaced (R133). -/
theorem State.displaceAll_eq (ht : s.stations.wf = true) (hw : s.items.wf = true) (code : RefusalCode) : s.displaceAll n code =
    { s with
      stations := s.stations.mapRecords fun _ => Station.spared n
      bins := s.bins.adjust n fun b => { b with reserved := b.reserved - s.roomOf (s.aimedAt n) }
      items := s.items.mapRecords fun i y =>
        if (s.aimedAt n).any fun e => decide (e.item = i) then { y with state := .overflow, target := none } else y
      link := (s.posted ((s.aimedAt n).map (displaceReport code))).link } := by
  rw [State.displaceAll_eq_foldl ht, State.foldl_displaceOne hw code _ fun e he => State.target_of_aimedAt he]

/-! ### The loss (R11) -/

/-- Requests that fail leave the list (R120, R121). -/
theorem State.failRequests_eq (hw : s.items.wf = true) (p : Request → Bool) (code : RefusalCode) : s.failRequests p code =
    { s with
      requests := s.requests.filter fun r => !p r
      items := s.items.mapRecords fun i y =>
        if s.requests.any fun r => p r && decide (r.item = i) then { y with state := .shelved } else y
      link := (s.posted ((s.requests.filter p).map (failReport code))).link } := by
  unfold State.failRequests
  simp only [State.foldl_failOne hw, List.any_filter]
  rfl

/-- The first report of a loss. -/
def lossEntryReport (n : Nat) (v : BinState) (code : Option Code) : Report :=
  { kind := lossReport v, subject := .bin n, order := none, code := code }

/-- A station as a loss finds it: a bin that leaves IN_DOUBT has left the overdue list (R89). -/
def State.settleOverdue (s : State) (n : Nat) (v : BinState) (x : Station) : Station :=
  { x with overdue := if s.binState n = some .inDoubt ∧ v = .missing then x.overdue.filter (· != n) else x.overdue }

/-- A bin that has become MISSING or IN_DOUBT, before its requests and return entries are handed off. -/
def State.lossEntered (s : State) (n : Nat) (v : BinState) (code : Option Code) : State :=
  { s with
    bins := s.bins.adjust n fun b => { b with state := v, next := none }
    stations := s.stations.mapRecords fun _ => s.settleOverdue n v
    link := (s.post (lossEntryReport n v code)).link }

theorem State.lossEntered_eq {v : BinState} (hv : v = .missing ∨ v = .inDoubt) (code : Option Code) :
    ((s.setBinState n v).modBin n fun b => { b with next := none }).report (lossReport v) (.bin n) code =
      s.lossEntered n v code := by
  unfold State.setBinState State.lossEntered State.settleOverdue
  by_cases h : s.binState n = some .inDoubt ∧ v = .missing
  · obtain ⟨hd, rfl⟩ := h
    simp only [hd, decide_true, reduceCtorEq, decide_false, Bool.not_false, Bool.and_self, if_true, and_self,
      State.leaveOverdue, State.setStations, State.modBin, Table.adjust_adjust]
    rfl
  · have hno : (decide (s.binState n = some .inDoubt) && !decide (v = .inDoubt)) = false := by
      rcases hv with rfl | rfl
      · simpa using h
      · simp
    simp only [hno, Bool.false_eq_true, if_false, if_neg h, State.modBin, Table.adjust_adjust]
    rw [Table.mapRecords_eq_self fun _ _ => rfl]
    rfl

theorem State.aimedAt_congr {w : State} {f : Nat → Station → Station} (h : w.stations = s.stations.mapRecords f)
    (hf : ∀ m x, (f m x).returns = x.returns) : w.aimedAt n = s.aimedAt n := by
  rw [State.aimedAt, State.aimedAt, h, List.flatMap_def, List.flatMap_def]
  rw [Table.map_mapRecords _ _ _ fun m x => by simp only [Station.aimedAt, hf]]

/-- The thickness of an item does not change with its state. -/
theorem State.roomOf_congr {w : State} {f : Nat → Item → Item} (h : w.items = s.items.mapRecords f)
    (hf : ∀ i y, (f i y).thickness = y.thickness) (l : List ReturnEntry) : w.roomOf l = s.roomOf l := by
  refine congrArg List.sum (List.map_congr_left fun e _ => ?_)
  rw [State.thicknessOf, State.thicknessOf, h, Table.look_mapRecords]
  cases s.items.look e.item <;> simp [hf]

/-- The bin that is lost, after its requests have failed. -/
def State.lossFailed (s : State) (n : Nat) (v : BinState) (code : Option Code) : State :=
  { s.lossEntered n v code with
    requests := s.requests.filter fun r => !s.standsOn n r
    items := s.items.mapRecords fun i y =>
      if s.requests.any fun r => s.standsOn n r && decide (r.item = i) then { y with state := .shelved } else y
    link := (s.posted
      (lossEntryReport n v code :: (s.requests.filter (s.standsOn n)).map (failReport (lossCode v)))).link }

theorem State.lossFailed_eq (hw : s.items.wf = true) (v : BinState) (code : Option Code) :
    (s.lossEntered n v code).failRequests ((s.lossEntered n v code).standsOn n) (lossCode v) = s.lossFailed n v code := by
  refine (State.failRequests_eq (s := s.lossEntered n v code) hw _ _).trans ?_
  rw [State.posted_link, State.lossFailed, State.posted_link]
  rfl

/-- The loss of a bin, record by record. -/
theorem State.enterLoss_eq (ht : s.stations.wf = true) (hw : s.items.wf = true) {v : BinState}
    (hv : v = .missing ∨ v = .inDoubt) (code : Option Code) : s.enterLoss n v code =
      { s with
        requests := s.requests.filter fun r => !s.standsOn n r
        bins := s.bins.adjust n fun b =>
          { b with state := v, next := none, reserved := b.reserved - s.roomOf (s.aimedAt n) }
        stations := s.stations.mapRecords fun _ x =>
          { x with
            returns := x.returns.filter fun e => !decide (e.target = n)
            overdue := if s.binState n = some .inDoubt ∧ v = .missing then x.overdue.filter (· != n) else x.overdue }
        items := s.items.mapRecords fun i y =>
          if (s.aimedAt n).any fun e => decide (e.item = i) then { y with state := .overflow, target := none }
          else if s.requests.any fun r => s.standsOn n r && decide (r.item = i) then { y with state := .shelved }
          else y
        link := (s.posted (lossEntryReport n v code :: (s.requests.filter (s.standsOn n)).map (failReport (lossCode v))
          ++ (s.aimedAt n).map (displaceReport (lossCode v)))).link } := by
  have hloss : s.enterLoss n v code = (s.lossFailed n v code).displaceAll n (lossCode v) := by
    rw [← State.lossFailed_eq hw, ← State.lossEntered_eq hv]
    rfl
  have haimed : (s.lossFailed n v code).aimedAt n = s.aimedAt n :=
    State.aimedAt_congr (f := fun _ => s.settleOverdue n v) rfl fun _ _ => rfl
  have hroom : (s.lossFailed n v code).roomOf (s.aimedAt n) = s.roomOf (s.aimedAt n) :=
    State.roomOf_congr (f := fun i y =>
      if s.requests.any fun r => s.standsOn n r && decide (r.item = i) then { y with state := .shelved } else y) rfl
      (fun i y => by split <;> rfl) _
  have hts : (s.lossFailed n v code).stations.wf = true := by simpa [State.lossFailed, State.lossEntered] using ht
  have hws : (s.lossFailed n v code).items.wf = true := by simpa [State.lossFailed] using hw
  rw [hloss, State.displaceAll_eq (s := s.lossFailed n v code) hts hws, haimed, hroom]
  simp only [State.lossFailed, State.lossEntered, Table.adjust_adjust, Table.mapRecords_mapRecords, State.posted_link,
    List.foldl_append]
  congr 1
  refine Table.mapRecords_congr fun e _ => ?_
  split
  · split <;> rfl
  · rfl

end

/-- Settles O50: `enterLoss_eq`, with the names of the statement. -/
theorem lossFailsRequestsAndDisplacesReturns : Obligations.LossFailsRequestsAndDisplacesReturns := by
  intro n v code s hv ht
  obtain ⟨-, hst, -, -, -, -, -, -, hit⟩ := (tablesLawful_iff s).1 ht
  have h := State.enterLoss_eq (n := n) hst hit hv code
  rcases hv with rfl | rfl
  all_goals
    refine ⟨?_, (congrArg State.stations h).trans rfl, (congrArg State.bins h).trans rfl, (congrArg State.items h).trans rfl⟩
    rw [h]
    rfl

end Sys2Proof.Machine
end

section
/-! A crane that is lost (O53). -/
namespace Sys2Proof.Machine

section
variable {s u : State} {a n : Nat} {x y : Aisle} {j : Job} {b : Bin}

/-- The bin in a pending slot, or in none, as the end of its job leaves it (R10). -/
def Job.cleared (j : Job) (b : Bin) : Bin := if j.kind = .transfer then { b with pendingHome := none } else b

/-- The same, with the trip station of a RETRIEVE (R8). -/
def Job.called (j : Job) (b : Bin) : Bin := if j.kind = .retrieve then { b with trip := none } else j.cleared b

theorem Job.cleared_state (j : Job) (b : Bin) : (j.cleared b).state = b.state := by
  unfold Job.cleared
  split <;> rfl

theorem Job.called_state (j : Job) (b : Bin) : (j.called b).state = b.state := by
  unfold Job.called Job.cleared
  split
  · rfl
  · split <;> rfl

/-- A job that is dropped, up to the loss of its bin (R8, R10). -/
theorem State.dropJob_eq (hj : j.bin = some n) : u.dropJob j =
    if u.inLane n then u.modBin n j.cleared else (u.modBin n j.called).enterDoubt n := by
  have hself : u.modBin n (fun b => b) = u := by rw [State.modBin, Table.adjust_eq_self _ _ fun _ => rfl]
  unfold State.dropJob
  simp only [hj]
  by_cases ht : j.kind = .transfer
  · have hr : j.kind ≠ .retrieve := by rw [ht]; decide
    have hc : j.called = j.cleared := funext fun b => if_neg hr
    have hp : j.cleared = fun b => { b with pendingHome := none } := funext fun b => if_pos ht
    rw [if_pos ht, if_neg hr, hc, hp]
    rfl
  · have hc : j.cleared = fun b => b := funext fun b => if_neg ht
    rw [if_neg ht, hc, hself]
    by_cases hr : j.kind = .retrieve
    · have hp : j.called = fun b => { b with trip := none } := funext fun b => if_pos hr
      rw [if_pos hr, hp]
      rfl
    · have hp : j.called = fun b => b := funext fun b => (if_neg hr).trans (congrFun hc b)
      rw [if_neg hr, hp, hself]

theorem State.dropJob_of_lane (hj : j.bin = some n) (hl : u.inLane n = true) : u.dropJob j = u.modBin n j.cleared := by
  rw [State.dropJob_eq hj, if_pos hl]

theorem State.dropJob_of_doubted (hj : j.bin = some n) (hl : u.inLane n = false) (hb : u.bins.look n = some b)
    (hd : b.state = .inDoubt) : u.dropJob j = u.modBin n j.called := by
  have hst : (u.modBin n j.called).binState n = some .inDoubt := by
    simp [State.binState, State.modBin, hb, Job.called_state, hd]
  rw [State.dropJob_eq hj, if_neg (by simp [hl]), State.enterDoubt, if_pos (decide_eq_true hst)]

/-- The loss of a bin asks nothing of the aisles. -/
theorem State.enterLoss_modAisle (ht : u.stations.wf = true) (hw : u.items.wf = true) (f : Aisle → Aisle) {v : BinState}
    (hv : v = .missing ∨ v = .inDoubt) (code : Option Code) :
    (u.enterLoss n v code).modAisle a f = (u.modAisle a f).enterLoss n v code := by
  rw [State.enterLoss_eq ht hw hv, State.enterLoss_eq (s := u.modAisle a f) ht hw hv, State.posted_link, State.posted_link]
  rfl

/-- The aisle of a crane that is lost (R74, R76, R162). -/
def Aisle.lost (x : Aisle) : Aisle :=
  { x with
    service := .outOfService, queue := x.queue.filter fun j => !decide (j.kind = .park)
    crane := { state := .faulted, phase := none, position := none, active := none, staged := none
               retryIndex := 0, deadline := none, stopWait := none, suspension := none } }

/-- The report of the aisle, unless it was OUT_OF_SERVICE, and the fault (R74, R76, R162). -/
def State.lostRaise (u : State) (a : Nat) (k : FaultKind) (x : Aisle) (whole : Bool) : State :=
  let named := x.crane.active.or (x.crane.suspension.map (·.job))
  let v := if x.service = .outOfService then u else
    u.post { kind := .aisleState, subject := .aisle a, order := none, code := some (.service .outOfService) }
  v.raise
    { kind := k, subject := .aisle a, jobTag := named.map (·.tag), bin := named.bind (·.bin), detail := none
      recoverable := whole }

theorem Crane.faultJob_eq (c : Crane) : c.faultJob = c.active.or (c.suspension.map (·.job)) := by
  unfold Crane.faultJob
  cases c.active <;> rfl

theorem doubted_congr {t : State} (h : t.bins = u.bins) (o : Option Nat) : doubted s t o = doubted s u o := by
  unfold doubted State.binState
  rw [h]

/-- The state in which the jobs of a lost crane are settled: STOP has been sent, and the staged job has gone back. -/
def State.losing (s : State) (a : Nat) : State :=
  { s with
    aisles := s.aisles.adjust a Aisle.unstaged
    link := s.link.sendTo (s.craneAddress a) .stop }

/-- A lost crane, once its jobs are settled. -/
theorem State.loseCrane_eq (hx : s.aisles.look a = some x) (k : FaultKind) {whole : Bool}
    (hu : ((s.losing a).settleActive a x.crane).settleRecord a x.crane = u) (hy : u.aisles.look a = some y)
    (hs : y.service = x.service)
    (hw : (!(doubted s u (x.crane.active.bind (·.bin)) || doubted s u (x.crane.suspension.bind (·.job.bin)))) = whole) :
    s.loseCrane a k = (u.modAisle a Aisle.lost).lostRaise a k x whole := by
  have hlosing : (s.sendCrane a .stop).withdrawStaged false a = s.losing a := by
    rw [State.withdrawStaged_eq]
    rfl
  have hlost : ((u.dropQueuedPark a).modCrane a Crane.lose).setService a .outOfService =
      if x.service = .outOfService then u.modAisle a Aisle.lost
      else (u.modAisle a Aisle.lost).post
        { kind := .aisleState, subject := .aisle a, order := none, code := some (.service .outOfService) } := by
    have hlook : ((u.dropQueuedPark a).modCrane a Crane.lose).aisles.look a =
        some { y with queue := y.queue.filter fun j => !decide (j.kind = .park), crane := y.crane.lose } := by
      simp [State.dropQueuedPark, State.modCrane, State.modAisle, hy]
    by_cases hout : x.service = .outOfService
    · rw [if_pos hout, State.setService_of_eq hlook (hs.trans hout)]
      simp only [State.dropQueuedPark, State.modCrane, State.modAisle, Table.adjust_adjust]
      rw [Table.adjust_congr fun z hz => ?_]
      obtain rfl := Option.some.inj (hy.symm.trans hz)
      rw [Aisle.lost, ← hs.trans hout]
      rfl
    · rw [if_neg hout, State.setService_of_ne hlook (by rw [hs]; exact hout)]
      simp only [State.dropQueuedPark, State.modCrane, State.modAisle, Table.adjust_adjust]
      rfl
  simp only [State.loseCrane, hx, hlosing, hu, hlost, Crane.faultJob_eq]
  have hbins : (if x.service = .outOfService then u.modAisle a Aisle.lost
      else (u.modAisle a Aisle.lost).post
        { kind := .aisleState, subject := .aisle a, order := none, code := some (.service .outOfService) }).bins = u.bins := by
    split <;> rfl
  rw [doubted_congr hbins, doubted_congr hbins, hw]
  rfl

/-- Whether a lost job goes back to its queue (R75, R76). -/
theorem lostReturns_iff {k : JobKind} {p : Option Phase} (hk : k ≠ .park) :
    lostReturns k p = true ↔ k = .audit ∨ p = some .toSource := by
  cases k <;> simp [lostReturns] at hk ⊢

theorem Suspension.lostReturns_iff {r : Suspension} (hk : r.job.kind ≠ .park) :
    r.lostReturns = true ↔ r.job.kind = .audit ∨ (r.phaseAtStop = .toSource ∧ r.forks = false) := by
  cases h : r.job.kind <;> simp [Suspension.lostReturns, h] at hk ⊢

/-- A PARK has no bin to settle. -/
theorem State.settleLost_of_noBin (hb : j.bin = none) : u.settleLost a j false = u := by
  simp [State.settleLost, State.dropJob, hb]

/-- The records after the loss of the crane, with `q` what is left of the queue. -/
def State.lostOut (s : State) (a : Nat) (q : List Job) : State :=
  { s with
    aisles := s.aisles.adjust a fun x =>
      { x with
        service := .outOfService, queue := q.filter fun j => !decide (j.kind = .park)
        crane := { state := .faulted, phase := none, position := none, active := none, staged := none
                   retryIndex := 0, deadline := none, stopWait := none, suspension := none } }
    link := s.link.sendTo (s.craneAddress a) .stop }

theorem Aisle.unstaged_fixed (x : Aisle) :
    x.unstaged.geom = x.geom ∧ x.unstaged.service = x.service ∧ x.unstaged.retry = x.retry := by
  unfold Aisle.unstaged
  split <;> exact ⟨rfl, rfl, rfl⟩

theorem State.look_losing (hx : s.aisles.look a = some x) : (s.losing a).aisles.look a = some x.unstaged := by
  simp [State.losing, hx]

/-- The lost aisle, of whose record nothing but the queue is kept. -/
theorem State.losing_lost (hx : s.aisles.look a = some x) (f : List Job → List Job) :
    ((s.losing a).modAisle a fun x => { x with queue := f x.queue }).modAisle a Aisle.lost =
      s.lostOut a (f x.unstaged.queue) := by
  obtain ⟨hg, -, hr⟩ := x.unstaged_fixed
  simp only [State.losing, State.modAisle, Table.adjust_adjust, State.lostOut]
  rw [Table.adjust_congr fun y hy => ?_]
  obtain rfl := Option.some.inj (hx.symm.trans hy)
  simp only [Aisle.lost, hg, hr]

theorem State.losing_lost_self (hx : s.aisles.look a = some x) :
    (s.losing a).modAisle a Aisle.lost = s.lostOut a x.unstaged.queue := by
  refine Eq.trans ?_ (State.losing_lost hx id)
  simp only [State.modAisle, Table.adjust_adjust, id]

theorem doubted_of_noBin {t : State} : doubted s t none = false := rfl

/-- A bin whose state does not change is not doubted. -/
theorem doubted_of_kept {t : State} (h : t.binState n = s.binState n) : doubted s t (some n) = false := by
  simp only [doubted, h]
  cases decide (s.binState n = some .inDoubt) <;> rfl

/-- A lost crane without a job (R74). -/
theorem State.loseCrane_free (hx : s.aisles.look a = some x) (k : FaultKind)
    (hu : ((s.losing a).settleActive a x.crane).settleRecord a x.crane = s.losing a)
    (hd : ∀ t, doubted s t (x.crane.active.bind (·.bin)) = false ∧ doubted s t (x.crane.suspension.bind (·.job.bin)) = false) :
    s.loseCrane a k = (s.lostOut a x.unstaged.queue).lostRaise a k x true := by
  rw [State.loseCrane_eq (whole := true) hx k hu (State.look_losing hx) x.unstaged_fixed.2.1 (by simp [hd]),
    State.losing_lost_self hx]

section
variable (hx : s.aisles.look a = some x) (k : FaultKind) (back : Bool)
  (hu : ((s.losing a).settleActive a x.crane).settleRecord a x.crane = (s.losing a).settleLost a j back)
  (hd : ∀ t, (doubted s t (x.crane.active.bind (·.bin)) || doubted s t (x.crane.suspension.bind (·.job.bin))) =
    doubted s t j.bin)
include hx hu hd

/-- A lost crane whose job goes back to its queue (R75, R76). -/
theorem State.loseCrane_back (hb : back = true) :
    s.loseCrane a k = (s.lostOut a (rejoinQueue x.unstaged.queue j)).lostRaise a k x true := by
  subst hb
  have hlook : ((s.losing a).settleLost a j true).aisles.look a =
      some { x.unstaged with queue := rejoinQueue x.unstaged.queue j } := by
    simp [State.settleLost, State.returnJob, State.modAisle, State.look_losing hx]
  have hkept : doubted s ((s.losing a).settleLost a j true) j.bin = false := by
    cases j.bin with
    | none => rfl
    | some n => exact doubted_of_kept rfl
  rw [State.loseCrane_eq (whole := true) hx k hu hlook x.unstaged_fixed.2.1 (by rw [hd, hkept]; rfl)]
  exact congrArg (State.lostRaise · a k x true) (State.losing_lost hx (rejoinQueue · j))

variable (hb : back = false) (hj : j.bin = some n) (hbin : s.bins.look n = some b)
include hb hj hbin

/-- A lost crane whose job is dropped, with its bin in a lane, or in doubt already (R75, R92). -/
theorem State.loseCrane_kept {f : Bin → Bin} (hf : ∀ b, (f b).state = b.state)
    (hdrop : (s.losing a).dropJob j = (s.losing a).modBin n f) : s.loseCrane a k =
      State.lostRaise { s.lostOut a x.unstaged.queue with bins := s.bins.adjust n f } a k x true := by
  subst hb
  have hsettle : (s.losing a).settleLost a j false = (s.losing a).modBin n f := hdrop
  rw [hsettle] at hu
  have hkept : doubted s ((s.losing a).modBin n f) j.bin = false := by
    rw [hj]
    refine doubted_of_kept ?_
    simp [State.binState, State.modBin, State.losing, hbin, hf]
  have hlook : ((s.losing a).modBin n f).aisles.look a = some x.unstaged := State.look_losing hx
  rw [State.loseCrane_eq (whole := true) hx k hu hlook x.unstaged_fixed.2.1 (by rw [hd, hkept]; rfl)]
  refine congrArg (State.lostRaise · a k x true) ?_
  rw [← State.losing_lost_self hx]
  rfl

/-- A lost crane whose job is dropped, with its bin IN_DOUBT (R75, R76). -/
theorem State.loseCrane_doubt (ht : s.tablesLawful = true) (hl : s.inLane n = false) (hs : b.state ≠ .inDoubt) :
    s.loseCrane a k = State.lostRaise
      ({ s.lostOut a x.unstaged.queue with bins := s.bins.adjust n j.called }.enterLoss n .inDoubt none) a k x false := by
  subst hb
  obtain ⟨-, hst, -, -, -, -, -, -, hit⟩ := (tablesLawful_iff s).1 ht
  have hstate : ((s.losing a).modBin n j.called).binState n = some b.state := by
    simp [State.binState, State.modBin, State.losing, hbin, Job.called_state]
  have hsettle : (s.losing a).settleLost a j false = ((s.losing a).modBin n j.called).enterLoss n .inDoubt none := by
    have hl' : (s.losing a).inLane n = false := hl
    rw [State.settleLost, if_neg Bool.false_ne_true, State.dropJob_eq hj, if_neg (by simp [hl']), State.enterDoubt,
      if_neg (by simp [hstate, hs])]
  rw [hsettle] at hu
  have hloss := State.enterLoss_eq (s := (s.losing a).modBin n j.called) (n := n) (v := .inDoubt) hst hit (.inr rfl) none
  have hlook : (((s.losing a).modBin n j.called).enterLoss n .inDoubt none).aisles.look a = some x.unstaged := by
    rw [hloss]
    exact State.look_losing hx
  have hdoubt : doubted s (((s.losing a).modBin n j.called).enterLoss n .inDoubt none) j.bin = true := by
    have hbefore := State.binState_of_look hbin
    have hafter : (((s.losing a).modBin n j.called).enterLoss n .inDoubt none).binState n = some .inDoubt := by
      rw [hloss]
      simp [State.binState, State.modBin, State.losing, hbin]
    simp [hj, doubted, hbefore, hafter, hs]
  rw [State.loseCrane_eq (whole := false) hx k hu hlook x.unstaged_fixed.2.1 (by rw [hd, hdoubt]; rfl),
    State.enterLoss_modAisle (u := (s.losing a).modBin n j.called) hst hit _ (.inr rfl)]
  refine congrArg (fun u => State.lostRaise (State.enterLoss u n .inDoubt none) a k x false) ?_
  rw [← State.losing_lost_self hx]
  rfl

end

end

/-- A timer that has not run out. -/
theorem any_runsOut_eq_false {o : Option Nat} (h : ∀ w, o = some w → 1 < w) : o.any runsOut = false := by
  rw [← Bool.not_eq_true]
  intro hout
  obtain ⟨w, hw, hlast⟩ := (Option.any_eq_true ..).1 hout
  have := h w hw
  have := (runsOut_iff w).1 hlast
  omega

/-- A deadline that is paused, or that has not run out. -/
theorem any_out_eq_false {o : Option Deadline} (h : ∀ d, o = some d → d.running = false ∨ 1 < d.left) :
    o.any Deadline.out = false := by
  rw [← Bool.not_eq_true]
  intro hout
  obtain ⟨d, hd, hlast⟩ := (Option.any_eq_true ..).1 hout
  obtain ⟨hrun, hleft⟩ := (Deadline.out_iff d).1 hlast
  rcases h d hd with h | h
  · simp [hrun] at h
  · omega

/-- Settles O53: `loseCrane` by the job that the crane holds, active or in its record. -/
theorem lostCraneEndsTheAislesService : Obligations.LostCraneEndsTheAislesService := by
  intro c k a x s hx hm ht
  refine ⟨fun src had hst => (next_admission had _ _).trans (congrArg _ ?_), fun hlong => ?_, fun hlong => ?_,
    fun src had hst => ⟨_, next_admission had _ _, ?_⟩, fun hnf hno hcause => ?_⟩
  · simp only [State.takeCraneFault, hx, hst]
  · exact exec_craneDeadlineExpiry_of_notOverdue hm hx (by rw [Crane.overdue, any_out_eq_false hlong, Bool.and_false])
  · refine congrArg Host.Outcome.next ((State.whileInService_of_inService hm _).trans ?_)
    have hwait : (decide (x.crane.state = .stopping) && x.crane.stopWait.any runsOut) = false := by
      rcases hlong with h | h
      · rw [any_runsOut_eq_false h, Bool.and_false]
      · simp [h]
    simp only [State.stopWaitExpires, hx, hwait, Bool.false_eq_true, if_false]
  · simp only [State.takeCraneFault, hx, hst]
    exact settled_settleWing _
  have hrun : exec c s = .next (s.loseCrane a k).settleWing := by
    rcases hcause with ⟨rfl, src, rfl, had⟩ | ⟨rfl, rfl, ⟨d, hd, hrun, hleft⟩, hst⟩ | ⟨rfl, rfl, hst, w, hw, hleft⟩
    · refine (next_admission had _ _).trans (congrArg _ ?_)
      simp only [State.takeCraneFault, hx]
    · refine congrArg Host.Outcome.next ((State.whileInService_of_inService hm _).trans ?_)
      have hover : x.crane.overdue = true := by
        rcases hst with h | h | h <;> simp [Crane.overdue, h, hd, hrun, hleft]
      simp only [State.craneDeadlineExpires, hx, hover, if_true]
    · refine congrArg Host.Outcome.next ((State.whileInService_of_inService hm _).trans ?_)
      have hout : (decide (x.crane.state = .stopping) && x.crane.stopWait.any runsOut) = true := by simp [hst, hw, hleft]
      simp only [State.stopWaitExpires, hx, hout, if_true]
  refine ⟨fun ha hr => ⟨_, hrun, ?_⟩, fun j ha hr => ?_, fun r hr ha hk => ?_⟩
  · rw [State.loseCrane_free hx k (by simp only [State.settleActive, State.settleRecord, ha, hr])
      fun t => by simp [ha, hr, doubted_of_noBin]]
    exact settled_settleWing _
  · have hu : ((s.losing a).settleActive a x.crane).settleRecord a x.crane =
        (s.losing a).settleLost a j (lostReturns j.kind x.crane.phase) := by
      simp only [State.settleActive, State.settleRecord, ha, hr]
    have hd : ∀ t, (doubted s t (x.crane.active.bind (·.bin)) || doubted s t (x.crane.suspension.bind (·.job.bin))) =
        doubted s t j.bin := fun t => by simp [ha, hr, doubted_of_noBin]
    refine ⟨fun hk hb => ⟨_, hrun, ?_⟩, fun hk => ⟨fun hback => ⟨_, hrun, ?_⟩, fun n b hback hj hb =>
      ⟨fun hl => ⟨_, hrun, ?_⟩, fun hl hdoubt => ⟨_, hrun, ?_⟩, fun hl hdoubt => ⟨_, hrun, ?_⟩⟩⟩⟩
    · have hpark : lostReturns j.kind x.crane.phase = false := by rw [hk]; rfl
      rw [hpark, State.settleLost_of_noBin hb] at hu
      rw [State.loseCrane_free hx k hu fun t => by simp [ha, hr, hb, doubted_of_noBin]]
      exact settled_settleWing _
    · rw [State.loseCrane_back hx k _ hu hd ((lostReturns_iff hk).2 hback)]
      exact settled_settleWing _
    all_goals have hkeep := eq_false_of_ne_true (mt (lostReturns_iff hk).1 hback)
    · rw [State.loseCrane_kept hx k _ hu hd hkeep hj hb j.cleared_state
        (State.dropJob_of_lane (u := s.losing a) hj hl)]
      exact settled_settleWing _
    · rw [State.loseCrane_kept hx k _ hu hd hkeep hj hb j.called_state
        (State.dropJob_of_doubted (u := s.losing a) hj hl hb hdoubt)]
      exact settled_settleWing _
    · rw [State.loseCrane_doubt hx k _ hu hd hkeep hj hb ht hl hdoubt]
      exact settled_settleWing _
  · have hactive : ∀ u : State, u.settleActive a x.crane = u := fun u => by
      unfold State.settleActive
      split
      · rfl
      · obtain ⟨hpark, hb⟩ := ha _ ‹_›
        rw [hpark]
        exact State.settleLost_of_noBin hb
    have hnone : x.crane.active.bind (·.bin) = none := by
      cases h : x.crane.active with
      | none => rfl
      | some j => exact (ha j h).2
    have hu : ((s.losing a).settleActive a x.crane).settleRecord a x.crane = (s.losing a).settleLost a r.job r.lostReturns := by
      rw [hactive]
      simp only [State.settleRecord, hr]
    have hd : ∀ t, (doubted s t (x.crane.active.bind (·.bin)) || doubted s t (x.crane.suspension.bind (·.job.bin))) =
        doubted s t r.job.bin := fun t => by simp [hnone, hr, doubted_of_noBin]
    refine ⟨fun hback => ⟨_, hrun, ?_⟩, fun n b hback hj hb =>
      ⟨fun hl => ⟨_, hrun, ?_⟩, fun hl hdoubt => ⟨_, hrun, ?_⟩, fun hl hdoubt => ⟨_, hrun, ?_⟩⟩⟩
    · rw [State.loseCrane_back hx k _ hu hd ((Suspension.lostReturns_iff hk).2 hback)]
      exact settled_settleWing _
    all_goals have hkeep := eq_false_of_ne_true (mt (Suspension.lostReturns_iff hk).1 hback)
    · rw [State.loseCrane_kept hx k _ hu hd hkeep hj hb r.job.cleared_state (State.dropJob_of_lane (u := s.losing a) hj hl)]
      exact settled_settleWing _
    · rw [State.loseCrane_kept hx k _ hu hd hkeep hj hb r.job.called_state
        (State.dropJob_of_doubted (u := s.losing a) hj hl hb hdoubt)]
      exact settled_settleWing _
    · rw [State.loseCrane_doubt hx k _ hu hd hkeep hj hb ht hl hdoubt]
      exact settled_settleWing _

end Sys2Proof.Machine
end

section
/-! The resolution of suspension records (O35). -/
namespace Sys2Proof.Machine

section
variable {s u : State} {a n : Nat} {x : Aisle} {j : Job} {b : Bin}

theorem foldl_aisles {ι : Type} (l : List ι) {f : State → ι → State} (hf : ∀ u i, (f u i).aisles = u.aisles) (s : State) :
    (l.foldl f s).aisles = s.aisles := by
  induction l generalizing s with
  | nil => rfl
  | cons i l ih => exact (ih _).trans (hf s i)

/-- A loss leaves the aisles. -/
theorem State.enterLoss_aisles (s : State) (n : Nat) (v : BinState) (code : Option Code) :
    (s.enterLoss n v code).aisles = s.aisles := by
  have hset : (s.setBinState n v).aisles = s.aisles := by
    unfold State.setBinState
    dsimp only
    split <;> rfl
  have hdisplace : ∀ (u : State) (c : RefusalCode), (u.displaceAll n c).aisles = u.aisles := fun u c =>
    foldl_aisles _ (fun u st => by
      unfold State.displaceAt
      split
      · rfl
      · exact foldl_aisles (f := State.displaceOne c) _ (fun _ _ => rfl) u) u
  have hfail : ∀ (u : State) (p : Request → Bool) (c : RefusalCode), (u.failRequests p c).aisles = u.aisles := fun u p c =>
    foldl_aisles (f := State.failOne c) (u.requests.filter p) (fun _ _ => rfl) u
  exact (hdisplace _ _).trans ((hfail _ _ _).trans hset)

theorem State.enterDoubt_aisles (s : State) (n : Nat) : (s.enterDoubt n).aisles = s.aisles := by
  unfold State.enterDoubt
  split
  · rfl
  · exact State.enterLoss_aisles ..

theorem State.dropJob_aisles (s : State) (j : Job) : (s.dropJob j).aisles = s.aisles := by
  cases hj : j.bin with
  | none => simp [State.dropJob, hj]
  | some n =>
    rw [State.dropJob_eq hj]
    split
    · rfl
    · exact State.enterDoubt_aisles ..

/-- The home slot of a bin stands when its job is dropped. -/
theorem State.dropJob_home (hst : u.stations.wf = true) (hit : u.items.wf = true) (hj : j.bin = some n) (hb : u.bins.look n = some b) :
    ∃ c, (u.dropJob j).bins.look n = some c ∧ c.home = b.home := by
  have hhome : ∀ b : Bin, (j.cleared b).home = b.home ∧ (j.called b).home = b.home := fun b => by
    unfold Job.called Job.cleared
    split
    · split <;> exact ⟨rfl, rfl⟩
    · split <;> exact ⟨rfl, rfl⟩
  have hmod : ∀ f : Bin → Bin, (u.modBin n f).bins.look n = some (f b) := fun f => by simp [State.modBin, hb]
  rw [State.dropJob_eq hj]
  split
  · exact ⟨_, hmod _, (hhome b).1⟩
  · unfold State.enterDoubt
    split
    · exact ⟨_, hmod _, (hhome b).2⟩
    · rw [State.enterLoss_eq (s := u.modBin n j.called) hst hit (.inr rfl)]
      simp only [Table.look_adjust_same, hmod, Option.map_some]
      exact ⟨_, rfl, (hhome b).2⟩

/-- A load that no job accounts for ends the service of crane and aisle (R78). -/
theorem State.unaccountedLoad_eq (hx : s.aisles.look a = some x) : s.unaccountedLoad a n =
    let u := if s.binState n = some .stored ∨ s.binState n = some .missing then s.enterLoss n .inDoubt none else s
    let v := u.post { kind := .unexpectedBin, subject := .bin n, order := none, code := none }
    let w := { v with
      aisles := v.aisles.adjust a fun x =>
        { x with service := .outOfService, crane := { x.crane with state := .outOfService, stopWait := none } } }
    if x.service = .outOfService then w
    else w.post { kind := .aisleState, subject := .aisle a, order := none, code := some (.service .outOfService) } := by
  have hjudge : s.judgeRead n =
      if s.binState n = some .stored ∨ s.binState n = some .missing then s.enterLoss n .inDoubt none else s := by
    simp only [State.judgeRead, Bool.or_eq_true, decide_eq_true_eq]
  have haisles : (s.judgeRead n).aisles = s.aisles := by
    unfold State.judgeRead
    split
    · exact State.enterLoss_aisles ..
    · rfl
  simp only [State.unaccountedLoad]
  rw [← hjudge]
  generalize s.judgeRead n = u at haisles ⊢
  have hx' : u.aisles.look a = some x := haisles ▸ hx
  have hlook : ((u.unexpectedBin n none).modCrane a fun c => { c with stopWait := none }).aisles.look a =
      some { x with crane := { x.crane with stopWait := none } } := by
    simp [State.modCrane, State.unexpectedBin, State.report, hx']
  by_cases hv : x.service = .outOfService
  · have hlook' : ((((u.unexpectedBin n none).modCrane a fun c => { c with stopWait := none })).modCrane a
        fun c => { c with state := .outOfService }).aisles.look a =
        some { x with crane := { x.crane with stopWait := none, state := .outOfService } } := by
      simp [State.modCrane, State.unexpectedBin, State.report, hx']
    rw [if_pos hv, State.takeOut, State.setService_of_eq hlook' hv]
    simp only [State.modCrane, Table.adjust_adjust]
    rw [Table.adjust_congr fun y hy => ?_]
    · rfl
    · obtain rfl := Option.some.inj (hx'.symm.trans hy)
      rw [← hv]
  · rw [if_neg hv, State.takeOut_of_ne hlook hv]
    simp only [State.modCrane, Table.adjust_adjust]
    rfl

/-- A DRAINING aisle whose crane holds nothing more ends its service (R81). -/
theorem State.endDraining_drained {y : Aisle} (hy : u.aisles.look a = some y) (hs : y.service = x.service)
    (ha : y.crane.active = x.crane.active) (hr : y.crane.suspension = none) : u.endDraining a =
      if x.service = .draining ∧ x.crane.active = none then
        { u with aisles := u.aisles.adjust a fun x =>
            { x with service := .outOfService, crane := { x.crane with state := .outOfService } } }.post
          { kind := .aisleState, subject := .aisle a, order := none, code := some (.service .outOfService) }
      else u := by
  rw [State.endDraining_of_look hy, hs, ha]
  by_cases h : x.service = .draining ∧ x.crane.active = none
  · rw [if_pos ⟨h.1, h.2, hr⟩, if_pos h, State.takeOut_of_ne hy (by rw [hs, h.1]; decide)]
  · rw [if_neg fun h' => h ⟨h'.1, h'.2.1⟩, if_neg h]

/-- A record that resumes has the label of a bin. -/
theorem Suspension.resumes_of_none {r : Suspension} (h : r.parkLabel = some .none) : r.resumes = false := by
  simp [Suspension.resumes, h]

end

/-- Settles O35: `resolveRecord` by the park label and the job. -/
theorem suspensionRecordsResolveByParkLabel : Obligations.SuspensionRecordsResolveByParkLabel := by
  refine ⟨fun a s h => ?_, fun a x r s hx hr ht => ⟨fun hkeep => ?_, fun hl hback => ?_, fun hl hk hlost n b hj hb => ?_,
    fun n hl hres => ?_⟩, fun a n x s hx => State.unaccountedLoad_eq hx⟩
  · unfold State.resolveRecord
    cases hx : s.aisles.look a with
    | none => rfl
    | some x => simp only [h x hx]
  · unfold State.resolveRecord
    simp only [hx, hr]
    cases hl : r.parkLabel with
    | none => rfl
    | some l =>
      have hres : r.resumes = true := hkeep.resolve_left (by simp [hl])
      cases l with
      | none => exact absurd hres (by simp [Suspension.resumes_of_none hl])
      | label n => simp only [hres, if_true]
  · have hback' : s.resolveRecord a = ((s.dropRecord a).returnJob a r.job).endDraining a := by
      unfold State.resolveRecord
      simp only [hx, hr, hl]
      split
      · rfl
      · rcases hback with h | ⟨h, h'⟩
        · exact absurd h ‹_›
        · rw [if_pos (by simp [h, h'])]
    have hlook : ((s.dropRecord a).returnJob a r.job).aisles.look a =
        some { x with queue := rejoinQueue x.queue r.job, crane := { x.crane with suspension := none } } := by
      simp [State.dropRecord, State.modCrane, State.returnJob, State.modAisle, hx]
    rw [hback', State.endDraining_drained (x := x) hlook rfl rfl rfl]
    simp only [State.dropRecord, State.modCrane, State.returnJob, State.modAisle, Table.adjust_adjust]
  · have hdrop : s.resolveRecord a = ((s.dropRecord a).dropAndAudit a r.job).endDraining a := by
      have hno : (r.recoverable && decide (r.phaseAtStop = .toSource)) = false := by
        rcases hlost with h | h <;> simp [h]
      unfold State.resolveRecord
      simp only [hx, hr, hl, hno, Bool.false_eq_true, if_false]
    obtain ⟨-, hst, -, -, -, -, -, -, hit⟩ := (tablesLawful_iff s).1 ht
    obtain ⟨c, hc, hhome⟩ := State.dropJob_home (u := s.dropRecord a) (j := r.job) hst hit hj hb
    have haisles := State.dropJob_aisles (s.dropRecord a) r.job
    rw [hdrop]
    simp only [State.dropAndAudit, hj, hc]
    rw [State.addJob_tail fun _ => rfl, hhome]
    have hlook : ((s.dropRecord a).dropJob r.job).aisles.look a =
        some { x with crane := { x.crane with suspension := none } } := by
      rw [haisles]
      simp [State.dropRecord, State.modCrane, hx]
    have hlook' := (Table.look_adjust_same ((s.dropRecord a).dropJob r.job).aisles a fun x =>
      { x with queue := x.queue ++ [auditJob n b.home ((s.dropRecord a).dropJob r.job).jobTag] }).trans
      (congrArg _ hlook)
    exact State.endDraining_drained (x := x) hlook' rfl rfl rfl
  · have hres' : s.resolveRecord a = (if r.job.kind = .audit then (s.dropRecord a).returnJob a r.job
        else (s.dropRecord a).dropJob r.job).unaccountedLoad a n := by
      unfold State.resolveRecord
      simp only [hx, hr, hl, hres, Bool.false_eq_true, if_false]
      split
      · rw [if_pos ‹_›]
      · rw [if_neg ‹_›]
    exact hres'

end Sys2Proof.Machine
end

section
/-! The conditions that end SHUTDOWN and RESTORING (O34). -/
namespace Sys2Proof.Machine

/-! ### A resolution leaves the zones and what is in transit -/

/-- The zones of `t` are those of `s`, and the same bins are in transit. -/
structure Calm (s t : State) : Prop where
  zones : t.zones = s.zones
  transit : (t.stations.map fun e => (e.1, e.2.inTransit)) = s.stations.map fun e => (e.1, e.2.inTransit)

section
variable {s t u : State}

theorem Calm.refl (s : State) : Calm s s := ⟨rfl, rfl⟩

theorem Calm.trans (h : Calm s t) (k : Calm t u) : Calm s u := ⟨k.zones.trans h.zones, k.transit.trans h.transit⟩

theorem Calm.same (h : Calm s t) (hz : u.zones = t.zones) (hs : u.stations = t.stations) : Calm s u :=
  ⟨hz.trans h.zones, by rw [hs, h.transit]⟩

theorem Calm.modBin (h : Calm s t) (n : Nat) (f : Bin → Bin) : Calm s (t.modBin n f) := h.same rfl rfl

theorem Calm.report (h : Calm s t) (k : ReportKind) (v : Subject) (c : Option Code) : Calm s (t.report k v c) := h.same rfl rfl

theorem Calm.modCrane (h : Calm s t) (a : Nat) (f : Crane → Crane) : Calm s (t.modCrane a f) := h.same rfl rfl

theorem Calm.foldl {ι : Type} (h : Calm s t) (l : List ι) {f : State → ι → State} (hf : ∀ u i, Calm s u → Calm s (f u i)) :
    Calm s (l.foldl f t) := by
  induction l generalizing t with
  | nil => exact h
  | cons i l ih => exact ih (hf t i h)

theorem Calm.modStation (h : Calm s t) (n : Nat) {f : Station → Station} (hf : ∀ x, (f x).inTransit = x.inTransit) :
    Calm s (t.modStation n f) :=
  h.trans ⟨rfl, Table.map_adjust _ _ _ _ fun v => by rw [hf]⟩

theorem Calm.setBinState (h : Calm s t) (n : Nat) (v : BinState) : Calm s (t.setBinState n v) := by
  unfold State.setBinState
  dsimp only
  split
  · refine h.trans ⟨rfl, ?_⟩
    exact Table.map_mapRecords t.stations (fun _ x => { x with overdue := x.overdue.filter (· != n) })
      (fun e => (e.1, e.2.inTransit)) fun _ _ => rfl
  · exact h.same rfl rfl

theorem Calm.displaceAt (h : Calm s t) (n : Nat) (c : RefusalCode) (st : Nat) : Calm s (t.displaceAt n c st) := by
  unfold State.displaceAt
  split
  · exact h
  · exact .modStation (h.foldl _ (f := State.displaceOne c) fun _ _ h => h.same rfl rfl) st fun _ => rfl

theorem Calm.failRequests (h : Calm s t) (p : Request → Bool) (c : RefusalCode) : Calm s (t.failRequests p c) :=
  .same (h.foldl (t.requests.filter p) (f := State.failOne c) fun _ _ h => h.same rfl rfl) rfl rfl

theorem Calm.enterLoss (h : Calm s t) (n : Nat) (v : BinState) (code : Option Code) : Calm s (t.enterLoss n v code) :=
  .foldl (.failRequests (.report (.modBin (h.setBinState n v) n _) _ _ _) _ _) _ (f := fun u st => u.displaceAt n (lossCode v) st)
    fun _ st h => h.displaceAt n _ st

theorem Calm.enterDoubt (h : Calm s t) (n : Nat) : Calm s (t.enterDoubt n) := by
  unfold State.enterDoubt
  split
  · exact h
  · exact h.enterLoss n _ _

theorem Calm.dropJob (h : Calm s t) (j : Job) : Calm s (t.dropJob j) := by
  cases hj : j.bin with
  | none =>
    simp only [State.dropJob, hj]
    exact h
  | some n =>
    rw [State.dropJob_eq hj]
    split
    · exact h.same rfl rfl
    · exact .enterDoubt (h.modBin n _) n

theorem Calm.dropAndAudit (h : Calm s t) (a : Nat) (j : Job) : Calm s (t.dropAndAudit a j) := by
  unfold State.dropAndAudit
  split
  · exact h
  · dsimp only
    split
    · exact h.dropJob j
    · exact .same (h.dropJob j) rfl rfl

theorem Calm.takeOut (h : Calm s t) (a : Nat) : Calm s (t.takeOut a) := by
  unfold State.takeOut State.setService
  split
  · exact h.same rfl rfl
  · split <;> exact h.same rfl rfl

theorem Calm.endDraining (h : Calm s t) (a : Nat) : Calm s (t.endDraining a) := by
  unfold State.endDraining
  split
  · exact h
  · split
    · exact h.takeOut a
    · exact h

theorem Calm.unaccountedLoad (h : Calm s t) (a n : Nat) : Calm s (t.unaccountedLoad a n) := by
  have hjudge : Calm s (t.judgeRead n) := by
    unfold State.judgeRead
    split
    · exact h.enterLoss n _ _
    · exact h
  exact .takeOut (.modCrane (hjudge.report _ _ _) a _) a

theorem Calm.resolveRecord (h : Calm s t) (a : Nat) : Calm s (t.resolveRecord a) := by
  have hdrop : Calm s (t.dropRecord a) := h.same rfl rfl
  have hback : ∀ j, Calm s ((t.dropRecord a).returnJob a j) := fun j => h.same rfl rfl
  unfold State.resolveRecord
  split
  · exact h
  · split
    · exact h
    · split
      · exact h
      · split
        · exact .endDraining (hback _) a
        · split
          · exact .endDraining (hback _) a
          · exact .endDraining (hdrop.dropAndAudit a _) a
      · split
        · exact h
        · split
          · exact .unaccountedLoad (hback _) a _
          · exact .unaccountedLoad (hdrop.dropJob _) a _

end

/-! ### A fold over the numbers whose records are selected -/

section
variable {α : Type} {t : Table α}

theorem Table.nodup_select (hw : t.wf = true) (p : α → Bool) : (t.select p).Nodup :=
  (Table.nodup_numbers hw).sublist (List.filter_sublist.map _)

theorem Table.mem_select (hw : t.wf = true) {p : α → Bool} {n : Nat} {v : α} (h : (n, v) ∈ t) :
    n ∈ t.select p ↔ p v = true := by
  simp only [Table.select, List.mem_map, List.mem_filter]
  constructor
  · rintro ⟨⟨m, w⟩, ⟨hm, hp⟩, rfl⟩
    have := (Table.look_of_mem hw hm).symm.trans (Table.look_of_mem hw h)
    exact Option.some.inj this ▸ hp
  · exact fun hp => ⟨(n, v), ⟨h, hp⟩, rfl⟩

theorem Table.mapRecords_select (hw : t.wf = true) (p : α → Bool) (f : Nat → α → α) :
    (t.mapRecords fun n x => if n ∈ t.select p then f n x else x) = t.mapRecords fun n x => if p x then f n x else x :=
  Table.mapRecords_congr fun e he => by simp only [Table.mem_select hw (v := e.2) he]

/-- What is made of the record of each selected number is made of the selected records of the table. -/
theorem Table.flatMap_select {β : Type} (hw : t.wf = true) (p : α → Bool) (g : Nat → Option α → List β) :
    ((t.select p).flatMap fun a => g a (t.look a)) = t.flatMap fun e => if p e.2 then g e.1 (some e.2) else [] := by
  rw [Table.select, List.flatMap_map, List.flatMap_def, List.flatMap_def]
  have h : ∀ l : Table α, (∀ e ∈ l, t.look e.1 = some e.2) →
      ((l.filter fun e => p e.2).map fun e => g e.1 (t.look e.1)).flatten =
        (l.map fun e => if p e.2 then g e.1 (some e.2) else []).flatten := fun l hl => by
    induction l with
    | nil => rfl
    | cons e l ih =>
      have ih' := ih fun e' he' => hl e' (List.mem_cons_of_mem _ he')
      by_cases hp : p e.2
      · simp only [List.filter_cons_of_pos (p := fun e : Nat × α => p e.2) hp, List.map_cons, List.flatten_cons, ih', hp, if_true,
          hl e List.mem_cons_self]
      · simp only [List.filter_cons_of_neg (p := fun e : Nat × α => p e.2) hp, List.map_cons, List.flatten_cons, ih', hp]
        rfl
  exact h t fun e he => Table.look_of_mem hw he

theorem Table.look_isSome_of_select {p : α → Bool} {n : Nat} (h : n ∈ t.select p) : (t.look n).isSome = true := by
  obtain ⟨e, he, rfl⟩ := List.mem_map.1 h
  exact Table.look_isSome_of_mem (List.mem_map_of_mem (List.mem_filter.1 he).1)

end

section
variable {s u : State} {st z : Nat} {x : Station}

/-! ### The stations of a restored zone (R172) -/

/-- The station's paused in-transit deadlines run again (R48). -/
def Station.resumed (x : Station) : Station :=
  { x with inTransit := x.inTransit.map fun t => { t with deadline := { t.deadline with running := true } } }

/-- RESUME, and PRESENT for a presented bin (R102, R172). -/
def State.resumeFrames (s : State) (st : Nat) (x : Station) : List Frame :=
  fieldFrame x.loaded.address .resume ::
    match s.presentedBin st with
    | some n => [fieldFrame x.loaded.address (s.presentTelegram st n)]
    | none => []

theorem State.resumeStation_of_look (hx : s.stations.look st = some x) : s.resumeStation st =
    { s with
      stations := s.stations.adjust st Station.resumed
      link := { s.link with field := s.link.field ++ s.resumeFrames st x } } := by
  have hresume := State.sendStation_of_look hx .resume
  have hnext : ∀ t, (s.sendStation st .resume).sendStation st t =
      { s with link := { s.link with
          field := s.link.field ++ [fieldFrame x.loaded.address .resume, fieldFrame x.loaded.address t] } } := fun t => by
    have hx' : (s.sendStation st .resume).stations.look st = some x := by rw [hresume]; exact hx
    rw [State.sendStation_of_look hx', hresume]
    simp
  have hp : (s.sendStation st .resume).presentedBin st = s.presentedBin st := by rw [hresume]; rfl
  have ht : ∀ n, (s.sendStation st .resume).presentTelegram st n = s.presentTelegram st n := fun n => by rw [hresume]; rfl
  unfold State.resumeStation State.resumeFrames State.sendPresent
  rw [hp]
  cases s.presentedBin st with
  | none =>
    simp only [hresume]
    rfl
  | some n =>
    simp only [hnext, ht]
    rfl

theorem State.resumeFrames_congr (hl : u.stations.look st = s.stations.look st) (hb : u.bins = s.bins)
    (hr : u.requests = s.requests) (hi : u.items = s.items) : u.resumeFrames st x = s.resumeFrames st x := by
  have hp : u.presentedBin st = s.presentedBin st := by
    unfold State.presentedBin State.binState
    rw [hl, hb]
  have hh : u.homeOf = s.homeOf := by
    unfold State.homeOf
    rw [hi]
  have ht : ∀ n, u.presentTelegram st n = s.presentTelegram st n := fun n => by
    unfold State.presentTelegram State.toPick State.toShelve
    rw [hr, hl, hh]
  unfold State.resumeFrames
  rw [hp]
  simp only [ht]

/-- The stations of the zone are resumed, one after the other (R172). -/
theorem State.resumeStations_eq (hw : s.stations.wf = true) (z : Nat) :
    (s.stationsOf z).foldl State.resumeStation s =
      { s with
        stations := s.stations.mapRecords fun _ x => if x.loaded.zone = z then x.resumed else x
        link := { s.link with
          field := s.link.field ++ s.stations.flatMap fun e => if e.2.loaded.zone = z then s.resumeFrames e.1 e.2 else [] } } := by
  have key := foldl_induct (step := State.resumeStation) (l := s.stationsOf z) (s := s)
    (fun done u => u = { s with
      stations := s.stations.mapRecords fun m x => if m ∈ done then x.resumed else x
      link := { s.link with
        field := s.link.field ++ done.flatMap fun m => ((s.stations.look m).map (s.resumeFrames m)).getD [] } })
    (by simp [Table.mapRecords_eq_self])
    (fun done st rest u hl hu => ?_)
  · refine key.trans ?_
    rw [State.stationsOf, Table.mapRecords_select hw _ fun _ => Station.resumed,
      Table.flatMap_select hw _ fun m o => (o.map (s.resumeFrames m)).getD []]
    simp only [decide_eq_true_eq, Option.map_some, Option.getD_some]
  · have hnot := not_mem_of_split (Table.nodup_select hw _) hl
    obtain ⟨x, hx⟩ := Option.isSome_iff_exists.1 (Table.look_isSome_of_select
      (hl ▸ List.mem_append_right _ List.mem_cons_self : st ∈ s.stationsOf z))
    have hlook : u.stations.look st = s.stations.look st := by
      rw [hu]
      exact Table.look_passed (fun _ => Station.resumed) hnot
    have hframes : u.resumeFrames st x = s.resumeFrames st x :=
      State.resumeFrames_congr hlook (by rw [hu]) (by rw [hu]) (by rw [hu])
    rw [State.resumeStation_of_look (hlook.trans hx), hframes, hu]
    simp only [List.flatMap_append, List.flatMap_cons, List.flatMap_nil, List.append_nil, hx, Option.map_some,
      Option.getD_some, List.append_assoc]
    rw [Table.adjust_passed hw (fun _ => Station.resumed) hnot]

/-! ### The judging of a zone -/

variable {y : Zone}

/-- The zones, once the restoration of one is complete (R151, R172). -/
def State.zonesRestored (s : State) (z : Nat) : Table Zone :=
  s.zones.adjust z fun x =>
    if x.causes.isEmpty then { x with state := .normal } else { x with state := .alert, windowLeft := some x.window }

/-- The restored zone with its stations resumed, before the records are resolved (R172). -/
def State.restoredTo (s : State) (z : Nat) : State :=
  { s with
    zones := s.zonesRestored z, securedLine := securedLevel (s.zonesRestored z)
    stations := s.stations.mapRecords fun _ x => if x.loaded.zone = z then x.resumed else x
    link := { (s.post (zoneReport .normal z)).link with
      field := s.link.field ++ s.stations.flatMap fun e => if e.2.loaded.zone = z then s.resumeFrames e.1 e.2 else [] } }

theorem State.normalActions_eq (hw : s.stations.wf = true) (z : Nat) :
    ({ s with zones := s.zonesRestored z, securedLine := securedLevel (s.zonesRestored z)
              link := (s.post (zoneReport .normal z)).link }).normalActions z =
      (s.aislesOf z).foldl State.resolveRecord (s.restoredTo z) := by
  refine congrArg ((s.aislesOf z).foldl State.resolveRecord) ((State.resumeStations_eq (s := { s with
    zones := s.zonesRestored z, securedLine := securedLevel (s.zonesRestored z)
    link := (s.post (zoneReport .normal z)).link }) hw z).trans ?_)
  simp only [State.post_link_field]
  rfl

/-- Restoration is complete: the records are resolved between the two reports of a zone that has a cause (R151, R172). -/
theorem State.completeRestoration_eq (hw : s.stations.wf = true) (hz : s.zones.look z = some y) :
    s.completeRestoration z =
      if y.causes.isEmpty then (s.aislesOf z).foldl State.resolveRecord (s.restoredTo z)
      else ((s.aislesOf z).foldl State.resolveRecord (s.restoredTo z)).post (zoneReport .alert z) := by
  have hcause : s.hasCause z = !y.causes.isEmpty := by simp [State.hasCause, hz]
  rw [← State.normalActions_eq hw]
  unfold State.completeRestoration
  rw [hcause]
  cases hc : y.causes.isEmpty with
  | true =>
    have hzones : s.zonesRestored z = s.zones.adjust z fun x => { x with state := .normal } :=
      Table.adjust_congr fun w h => by
        obtain rfl := Option.some.inj (hz.symm.trans h)
        rw [if_pos hc]
    rw [hzones]
    rfl
  | false =>
    have hzones : s.zonesRestored z = s.zones.adjust z fun x => { x with state := .alert, windowLeft := some x.window } :=
      Table.adjust_congr fun w h => by
        obtain rfl := Option.some.inj (hz.symm.trans h)
        rw [if_neg (by simp [hc])]
    have hturned : (s.setZoneState z .normal).turnAlert z =
        { s with zones := s.zonesRestored z, securedLine := securedLevel (s.zonesRestored z)
                 link := (s.post (zoneReport .normal z)).link } := by
      rw [hzones]
      simp only [State.setZoneState, State.turnAlert, State.turnZone, State.modZone, State.judgeSecuredLine,
        State.setSecuredLine, State.reportZone, State.report, State.post, Table.adjust_adjust]
      rfl
    simp only [Bool.not_false, if_true, Bool.false_eq_true, if_false, hturned]
    rfl

end

section
variable {s : State} {z : Nat}

/-- The condition of R167, shutter by shutter and crane by crane. -/
theorem State.securedCondition_iff (ht : s.tablesLawful = true) : s.securedCondition z = true ↔
    (∀ n h, s.shutters.look n = some h → h.zone = z → h.state = .closed)
    ∧ ∀ a y, s.aisles.look a = some y → y.geom.zone = z →
        y.crane.state ∈ [CraneState.stopped, .faulted, .outOfService] := by
  obtain ⟨hai, -, -, -, hsh, -⟩ := (tablesLawful_iff s).1 ht
  rw [State.securedCondition, Bool.and_eq_true, Table.all_iff_look hsh, Table.all_iff_look hai]
  refine and_congr (forall₃_congr fun n h _ => ?_) (forall₃_congr fun a y _ => ?_)
  · by_cases hz : h.zone = z <;> simp [hz]
  · by_cases hz : y.geom.zone = z
    · cases y.crane.state <;> simp [hz, CraneState.atRest]
    · simp [hz]

/-- The condition of R171, shutter by shutter and crane by crane. -/
theorem State.restoredCondition_iff (ht : s.tablesLawful = true) : s.restoredCondition z = true ↔
    (∀ n h, s.shutters.look n = some h → h.zone = z → h.state = .opened)
    ∧ ∀ a y, s.aisles.look a = some y → y.geom.zone = z →
        y.crane.state ∈ [CraneState.idle, .busy, .faulted, .outOfService] := by
  obtain ⟨hai, -, -, -, hsh, -⟩ := (tablesLawful_iff s).1 ht
  rw [State.restoredCondition, Bool.and_eq_true, Table.all_iff_look hsh, Table.all_iff_look hai]
  refine and_congr (forall₃_congr fun n h _ => ?_) (forall₃_congr fun a y _ => ?_)
  · by_cases hz : h.zone = z <;> simp [hz]
  · by_cases hz : y.geom.zone = z
    · cases y.crane.state <;> simp [hz]
    · simp [hz]

/-- Without records there is nothing to resolve. -/
theorem State.resolveRecord_of_none {a : Nat} (h : ∀ y, s.aisles.look a = some y → y.crane.suspension = none) :
    s.resolveRecord a = s := by
  unfold State.resolveRecord
  cases hx : s.aisles.look a with
  | none => rfl
  | some x => simp only [h x hx]

end

/-- Settles O34: the conditions as `securedCondition_iff` and `restoredCondition_iff`, and `completeRestoration_eq`. -/
theorem zoneConditionsEndShutdownAndRestoration : Obligations.ZoneConditionsEndShutdownAndRestoration := by
  intro z x s hz ht
  have hst : s.zoneState z = some x.state := by simp [State.zoneState, hz]
  obtain ⟨hai, hstat, -⟩ := (tablesLawful_iff s).1 ht
  refine ⟨fun hs => ⟨fun hc => ?_, fun hc => ?_⟩, fun hr => ⟨fun hc => ?_, fun hc => ?_⟩, fun hs => ?_⟩
  · simp only [State.judgeZone, hst, hs, (State.securedCondition_iff ht).2 hc, if_true]
    rfl
  · simp only [State.judgeZone, hst, hs, if_neg (mt (State.securedCondition_iff ht).1 hc)]
  · simp only [State.judgeZone, hst, hr, if_neg (mt (State.restoredCondition_iff ht).1 hc)]
  · have hjudge : s.judgeZone z = if x.causes.isEmpty then (s.aislesOf z).foldl State.resolveRecord (s.restoredTo z)
        else ((s.aislesOf z).foldl State.resolveRecord (s.restoredTo z)).post (zoneReport .alert z) := by
      simp only [State.judgeZone, hst, hr, (State.restoredCondition_iff ht).2 hc, if_true]
      exact State.completeRestoration_eq hstat hz
    have hcalm : Calm (s.restoredTo z) (s.judgeZone z) := by
      have hfold : Calm (s.restoredTo z) ((s.aislesOf z).foldl State.resolveRecord (s.restoredTo z)) :=
        (Calm.refl _).foldl _ fun _ a h => h.resolveRecord a
      rw [hjudge]
      split
      · exact hfold
      · exact hfold.same rfl rfl
    refine ⟨hjudge, hcalm.zones, hcalm.transit, fun hnone => ?_⟩
    have hfold : ∀ l : List Nat, (∀ a ∈ l, ∀ y, s.aisles.look a = some y → y.crane.suspension = none) →
        l.foldl State.resolveRecord (s.restoredTo z) = s.restoredTo z := fun l hl => by
      induction l with
      | nil => rfl
      | cons a l ih =>
        rw [List.foldl_cons, State.resolveRecord_of_none (s := s.restoredTo z) (hl a List.mem_cons_self),
          ih fun b hb => hl b (List.mem_cons_of_mem _ hb)]
    refine hfold _ fun a ha y hy => hnone a y hy ?_
    exact of_decide_eq_true ((Table.mem_select hai (p := fun x : Aisle => decide (x.geom.zone = z)) (Table.mem_of_look hy)).1 ha)
  · rcases hs with h | h | h <;> simp only [State.judgeZone, hst, h]

end Sys2Proof.Machine
end

section
/-! REOPEN_COMMISSIONING (O33). -/
namespace Sys2Proof.Machine

section
variable {s : State} {tag : Nat} {key : Bool}

/-- Of the numbers of a table, those whose records are selected. -/
theorem Table.filter_numbers {α : Type} {t : Table α} (hw : t.wf = true) (p : α → Bool) :
    (t.numbers.filter fun n => (t.look n).any p) = t.select p := by
  rw [Table.numbers, List.filter_map, Table.select]
  exact congrArg _ (List.filter_congr fun e he => by simp [Table.look_of_mem hw he])

/-- What a reopening refuses WING_BUSY (R198). -/
theorem State.wingBusy_iff (ht : s.tablesLawful = true) : s.wingBusy = true ↔
    (∃ a x, s.aisles.look a = some x ∧ x.jobs ≠ []) ∨ s.requests ≠ []
      ∨ (∃ st x, s.stations.look st = some x ∧ (x.returns ≠ [] ∨ x.lane ≠ [] ∨ x.inTransit ≠ []))
      ∨ (∃ n b, s.bins.look n = some b ∧ b.state ∈ [BinState.onCrane, .inTransit, .inLane, .lockedOut, .homebound])
      ∨ ∃ z x, s.zones.look z = some x ∧ x.state ≠ .normal ∧ x.state ≠ .alert := by
  obtain ⟨ha, hst, hz, -, -, -, -, hb, -⟩ := (tablesLawful_iff s).1 ht
  have hmotion : ∀ v : BinState, v.inMotion = true ↔
      v ∈ [BinState.onCrane, .inTransit, .inLane, .lockedOut, .homebound] := fun v => by cases v <;> simp [BinState.inMotion]
  have hopen : ∀ v : ZoneState, v.isOpen = false ↔ v ≠ .normal ∧ v ≠ .alert := fun v => by cases v <;> simp [ZoneState.isOpen]
  simp only [State.wingBusy, Bool.or_eq_true, Table.any_iff_look ha, Table.any_iff_look hst, Table.any_iff_look hb,
    Table.any_iff_look hz, Bool.not_eq_true', List.isEmpty_eq_false_iff, hmotion, hopen, or_assoc]

/-- A zone as the reopening leaves it (R155). -/
def Zone.reopened (x : Zone) : Zone := { x with state := .normal, windowLeft := none, causes := Causes.empty }

/-- No zone is SECURED, so the secured line is negated (R168). -/
theorem securedLevel_eq_false {t : Table Zone} (h : ∀ e ∈ t, e.2.state ≠ .secured) : securedLevel t = false := by
  have hany : (t.any fun e => decide (e.2.state = .secured)) = false := by
    rw [List.any_eq_false]
    exact fun e he => by simp [h e he]
  rw [securedLevel, hany, Bool.false_and]

/-- A zone that is open, reopened (R155). -/
theorem State.reopenZone_of_look {u : State} {z : Nat} {x : Zone} (hx : u.zones.look z = some x)
    (hopen : x.state = .normal ∨ x.state = .alert) (hline : securedLevel (u.zones.adjust z Zone.reopened) = u.securedLine) :
    u.reopenZone z =
      { u with
        zones := u.zones.adjust z Zone.reopened
        link := (u.posted (if x.state = .alert then [zoneReport .normal z] else [])).link } := by
  rcases hopen with hs | hs
  · simp only [State.reopenZone, hx, hs, if_true, reduceCtorEq, if_false, State.modZone]
    rw [Table.adjust_congr (g := Zone.reopened) fun y hy => ?_]
    · rfl
    · obtain rfl := Option.some.inj (hx.symm.trans hy)
      rw [Zone.reopened, ← hs]
  · simp only [State.reopenZone, hx, hs, if_true, reduceCtorEq, if_false, State.setZoneState, State.turnZone, State.modZone,
      Table.adjust_adjust, State.judgeSecuredLine, State.setSecuredLine]
    have hadj : (u.zones.adjust z fun y => { y with state := .normal, causes := Causes.empty, windowLeft := none }) =
        u.zones.adjust z Zone.reopened := rfl
    rw [hadj, hline]
    rfl

/-- The zones of an idle wing are reopened (R155). -/
theorem State.reopenZones_eq (hw : s.zones.wf = true) (hl : s.securedLawful = true)
    (hopen : ∀ z x, s.zones.look z = some x → x.state = .normal ∨ x.state = .alert) :
    s.zones.numbers.foldl State.reopenZone s =
      { s with
        zones := s.zones.mapRecords fun _ => Zone.reopened
        link := (s.posted ((s.zones.select fun x => decide (x.state = .alert)).map (zoneReport .normal))).link } := by
  have hopen' : ∀ e ∈ s.zones, e.2.state ≠ .secured := fun e he => by
    rcases hopen e.1 e.2 (Table.look_of_mem hw he) with h | h <;> simp [h]
  have hline : s.securedLine = false := ((securedLawful_iff s).1 hl).trans (securedLevel_eq_false hopen')
  have key := foldl_induct (step := State.reopenZone) (l := s.zones.numbers) (s := s)
    (fun done u => u = { s with
      zones := s.zones.mapRecords fun z x => if z ∈ done then x.reopened else x
      link := (s.posted ((done.filter fun z => (s.zones.look z).any fun x => decide (x.state = .alert)).map
        (zoneReport .normal))).link })
    (by simp [Table.mapRecords_eq_self, State.posted])
    (fun done z rest u hl hu => ?_)
  · refine key.trans ?_
    rw [Table.mapRecords_numbers (t := s.zones) fun _ => Zone.reopened, Table.filter_numbers hw]
  · have hnot := not_mem_of_split (Table.nodup_numbers hw) hl
    obtain ⟨x, hx⟩ := Option.isSome_iff_exists.1 (Table.look_isSome_of_mem (hl ▸ List.mem_append_right _ List.mem_cons_self))
    have hlook : u.zones.look z = some x := by
      rw [hu]
      exact (Table.look_passed (fun _ => Zone.reopened) hnot).trans hx
    have hadj : u.zones.adjust z Zone.reopened =
        s.zones.mapRecords fun n x => if n ∈ done ++ [z] then x.reopened else x := by
      rw [hu]
      exact Table.adjust_passed hw (fun _ => Zone.reopened) hnot
    have hlevel : securedLevel (u.zones.adjust z Zone.reopened) = u.securedLine := by
      rw [hadj, hu]
      refine (securedLevel_eq_false fun e he => ?_).trans hline.symm
      obtain ⟨e', he', rfl⟩ := List.mem_map.1 he
      simp only
      split
      · simp [Zone.reopened]
      · exact hopen' e' he'
    rw [State.reopenZone_of_look hlook (hopen z x hx) hlevel, hadj, hu]
    simp only [List.filter_append, List.map_append, State.posted_link, List.foldl_append, List.filter_cons, hx, Option.any_some,
      List.filter_nil]
    by_cases ha : x.state = .alert
    · simp [ha]
    · simp [ha]

/-- REOPEN_COMMISSIONING (R198). -/
theorem exec_reopen (hr : s.receives tag = true) (hh : s.isHalted = false) :
    exec (.reopenCommissioning tag key) s = .next ((s.setKeyLine key).answer tag
      (if !s.isInService then .accept (s.setKeyLine key) .empty
      else refuseOr (firstRefusal [(!key, .locked), (s.wingBusy, .wingBusy)]) (.accept (s.setKeyLine key).reopen .empty))) := by
  obtain ⟨hp, ht⟩ := (receives_iff s tag).1 hr
  refine (order_of_portOpen hp _ _).trans ?_
  exact congrArg _ (judgeOrder_of_pass (s := s.setKeyLine key) ht (.inl hh) (.inr rfl) _)

end

/-- Settles O33: the two checks of R198, and the zones by `reopenZones_eq`. -/
theorem reopenReturnsToCommissioning : Obligations.ReopenReturnsToCommissioning := by
  intro tag key s hr hh ht hl
  have hexec := exec_reopen (key := key) hr hh
  have hbusy := State.wingBusy_iff ht
  refine ⟨fun hm => ?_, fun hm hk => ?_, fun hm hk hb => ?_, fun hm hk hb => ?_⟩
  · rw [hexec, State.isInService_of_commissioning hm]
    rfl
  · rw [hexec, State.isInService_of_mode hm, hk]
    rfl
  · rw [hexec, State.isInService_of_mode hm, hk, hbusy.2 hb]
    rfl
  · have hidle : s.wingBusy = false := eq_false_of_ne_true (mt hbusy.1 hb)
    have hopen : ∀ z x, s.zones.look z = some x → x.state = .normal ∨ x.state = .alert := fun z x hx =>
      or_iff_not_imp_left.2 fun hn => not_not.1 fun ha => hb (.inr (.inr (.inr (.inr ⟨z, x, hx, hn, ha⟩))))
    obtain ⟨-, -, hz, -⟩ := (tablesLawful_iff s).1 ht
    have hzones := State.reopenZones_eq (s := (s.setKeyLine key).setMode .commissioning) hz hl hopen
    rw [State.posted_link] at hzones
    rw [hexec, State.isInService_of_mode hm, hk, hidle, ← hk, State.posted_link]
    simp only [State.reopen, hzones]
    rw [hk]
    rfl

end Sys2Proof.Machine
end

section
/-! Folds over the members of a zone, and RESTORE_ZONE (O44). -/
namespace Sys2Proof.Machine

section
variable {s : State}

/-- The selected records of a table change one after the other, each with the telegrams that are sent for it; `put` is
the state with the table and the telegrams in it. -/
theorem foldl_selected {α : Type} {t : Table α} (hw : t.wf = true) (p : α → Bool) (put : Table α → List Frame → State)
    {step : State → Nat → State} (f : Nat → α → α) (g : Nat → α → List Frame)
    (hstep : ∀ v l n h, v.look n = some h → step (put v l) n = put (v.adjust n (f n)) (l ++ g n h)) (l : List Frame) :
    (t.select p).foldl step (put t l) =
      put (t.mapRecords fun n h => if p h then f n h else h) (l ++ t.flatMap fun e => if p e.2 then g e.1 e.2 else []) := by
  have key := foldl_induct (step := step) (l := t.select p) (s := put t l)
    (fun done u => u = put (t.mapRecords fun n h => if n ∈ done then f n h else h)
      (l ++ done.flatMap fun n => ((t.look n).map (g n)).getD []))
    (by simp [Table.mapRecords_eq_self])
    (fun done n rest u hl hu => ?_)
  · refine key.trans ?_
    rw [Table.mapRecords_select hw, Table.flatMap_select hw p fun n o => (o.map (g n)).getD []]
    simp only [Option.map_some, Option.getD_some]
  · have hnot := not_mem_of_split (Table.nodup_select hw _) hl
    obtain ⟨h, hh⟩ := Option.isSome_iff_exists.1 (Table.look_isSome_of_select
      (hl ▸ List.mem_append_right _ List.mem_cons_self : n ∈ t.select p))
    have hlook : (t.mapRecords fun n h => if n ∈ done then f n h else h).look n = some h :=
      (Table.look_passed f hnot).trans hh
    rw [hu, hstep _ _ _ _ hlook, Table.adjust_passed hw f hnot]
    simp only [List.flatMap_append, List.flatMap_cons, List.flatMap_nil, List.append_nil, hh, Option.map_some,
      Option.getD_some, List.append_assoc]

/-! ### The shutters and cranes of a zone that is restored (R170) -/

variable {z n a : Nat} {h : Shutter}

/-- A shutter at the entry of its zone to RESTORING (R170). -/
def Shutter.restored (h : Shutter) : Shutter :=
  match h.state with
  | .closed | .closing => { h with state := .opening }
  | .waitingMouth => { h with state := .opened, wait := none }
  | .jammed | .opened | .opening => h

/-- OPEN goes to a shutter that is CLOSED, CLOSING or JAMMED (R170). -/
def Shutter.opensFrame (h : Shutter) : Option Frame :=
  if h.state = .closed ∨ h.state = .closing ∨ h.state = .jammed then some (fieldFrame h.address .openShutter) else none

theorem State.restoreShutter_of_look (hh : s.shutters.look n = some h) : s.restoreShutter n =
    { s with
      shutters := s.shutters.adjust n Shutter.restored
      link := { s.link with field := s.link.field ++ h.opensFrame.toList } } := by
  have hrestored : ∀ f : Shutter → Shutter, f h = h.restored →
      s.shutters.adjust n f = s.shutters.adjust n Shutter.restored := fun f hf => Table.adjust_congr fun w hw => by
    rw [← Option.some.inj (hh.symm.trans hw), hf]
  have hself : h.restored = h → s.shutters.adjust n Shutter.restored = s.shutters := fun hr => by
    rw [← hrestored id hr.symm, Table.adjust_eq_self (f := id) _ _ fun _ => rfl]
  simp only [State.restoreShutter, hh, Shutter.opensFrame]
  cases hs : h.state with
  | closed | closing =>
    simp only [reduceCtorEq, true_or, or_true, if_true, Option.toList_some]
    rw [State.moveShutter_eq hh rfl, hrestored _ (by simp only [Shutter.restored, hs])]
  | jammed =>
    simp only [reduceCtorEq, or_true, if_true, Option.toList_some]
    rw [State.sendShutter_of_look hh, hself (by simp only [Shutter.restored, hs])]
  | waitingMouth =>
    simp only [reduceCtorEq, or_self, if_false, Option.toList_none, List.append_nil, State.modShutter]
    rw [hrestored _ (by simp only [Shutter.restored, hs])]
  | opened | opening =>
    simp only [reduceCtorEq, or_self, if_false, Option.toList_none, List.append_nil]
    rw [hself (by simp only [Shutter.restored, hs])]

/-- The shutters of the zone open (R170). -/
theorem State.restoreShutters_eq (hw : s.shutters.wf = true) (z : Nat) :
    (s.shuttersOf z).foldl State.restoreShutter s =
      { s with
        shutters := s.shutters.mapRecords fun _ h => if h.zone = z then h.restored else h
        link := { s.link with
          field := s.link.field ++ s.shutters.filterMap fun e => if e.2.zone = z then e.2.opensFrame else none } } := by
  refine (foldl_selected hw (fun h => decide (h.zone = z))
    (fun v l => { s with shutters := v, link := { s.link with field := l } }) (fun _ => Shutter.restored)
    (fun _ h => h.opensFrame.toList) (fun v l n h hh => State.restoreShutter_of_look hh) s.link.field).trans ?_
  rw [← flatMap_toList_eq_filterMap]
  have hframes : (fun e : Nat × Shutter => if decide (e.2.zone = z) = true then e.2.opensFrame.toList else []) =
      fun e => (if e.2.zone = z then e.2.opensFrame else none).toList := funext fun e => by
    by_cases he : e.2.zone = z <;> simp [he]
  rw [hframes]
  simp only [decide_eq_true_eq]

/-- A crane that is parked afresh: its record, and the PARK that joins its queue (R77). -/
def Aisle.parked (y : Aisle) (k : Nat) : Aisle :=
  { y with crane := { y.crane with state := .parking }, queue := y.queue ++ [parkJob k] }

theorem State.createPark_eq (s : State) (a : Nat) : s.createPark a =
    { s with aisles := s.aisles.adjust a fun y => y.parked s.jobTag, nextJob := tagAfter s.jobTag } := by
  have htag : (s.modCrane a fun c => { c with state := .parking }).jobTag = s.jobTag :=
    State.jobTag_modCrane a fun _ => ⟨rfl, rfl, rfl⟩
  rw [State.createPark, State.addJob_tail fun _ => rfl, htag]
  simp only [State.modCrane, Table.adjust_adjust]
  rfl

/-- The stopped cranes of a list of aisles are parked afresh (R170): what each aisle becomes, and what stays. -/
theorem State.foldl_parkStopped {l : List Nat} (hl : l.Nodup) :
    l.foldl State.parkStopped s =
      { s with aisles := (l.foldl State.parkStopped s).aisles, nextJob := (l.foldl State.parkStopped s).nextJob }
    ∧ ∀ a y, s.aisles.look a = some y →
        if a ∈ l ∧ y.crane.state = .stopped then ∃ k, (l.foldl State.parkStopped s).aisles.look a = some (y.parked k)
        else (l.foldl State.parkStopped s).aisles.look a = some y := by
  refine foldl_induct (step := State.parkStopped) (fun done u =>
    u = { s with aisles := u.aisles, nextJob := u.nextJob } ∧ ∀ a y, s.aisles.look a = some y →
      if a ∈ done ∧ y.crane.state = .stopped then ∃ k, u.aisles.look a = some (y.parked k) else u.aisles.look a = some y)
    ⟨rfl, fun a y hy => by simpa using hy⟩ fun done b rest u hsplit ⟨hu, hlook⟩ => ?_
  have hnot := not_mem_of_split hl hsplit
  unfold State.parkStopped
  cases hx : u.aisles.look b with
  | none =>
    refine ⟨hu, fun a y hy => ?_⟩
    have ha := hlook a y hy
    have hab : a ≠ b := fun h => by
      subst h
      rw [if_neg fun h => hnot h.1, hx] at ha
      cases ha
    simpa [hab] using ha
  | some x =>
    simp only
    by_cases hst : x.crane.state = .stopped
    · rw [if_pos hst, State.createPark_eq]
      refine ⟨by rw [hu], fun a y hy => ?_⟩
      have ha := hlook a y hy
      simp only [Table.look_adjust]
      by_cases hab : a = b
      · subst hab
        rw [if_neg fun h => hnot h.1, hx] at ha
        obtain rfl := Option.some.inj ha
        rw [if_pos ⟨by simp, hst⟩]
        exact ⟨u.jobTag, by simp [hx]⟩
      · simpa [hab] using ha
    · rw [if_neg hst]
      refine ⟨hu, fun a y hy => ?_⟩
      have ha := hlook a y hy
      by_cases hab : a = b
      · subst hab
        rw [if_neg fun h => hnot h.1, hx] at ha
        obtain rfl := Option.some.inj ha
        rw [if_neg fun h => hst h.2]
        exact hx
      · simpa [hab] using ha

/-- A taken RESTORE_ZONE (R170): the zone, its shutters, and then its cranes. -/
theorem State.enterRestoring_spec (ht : s.tablesLawful = true) (z : Nat) :
    s.enterRestoring z =
      { s with
        nextJob := (s.enterRestoring z).nextJob, aisles := (s.enterRestoring z).aisles
        zones := s.zones.adjust z fun x => { x with state := .restoring }
        securedLine := securedLevel (s.zones.adjust z fun x => { x with state := .restoring })
        shutters := s.shutters.mapRecords fun _ h => if h.zone = z then h.restored else h
        link := { (s.post (zoneReport .restoring z)).link with
          field := s.link.field ++ s.shutters.filterMap fun e => if e.2.zone = z then e.2.opensFrame else none } }
    ∧ ∀ a y, s.aisles.look a = some y →
        if y.geom.zone = z ∧ y.crane.state = .stopped then ∃ k, (s.enterRestoring z).aisles.look a = some (y.parked k)
        else (s.enterRestoring z).aisles.look a = some y := by
  obtain ⟨hai, -, -, -, hsh, -⟩ := (tablesLawful_iff s).1 ht
  have hshut := State.restoreShutters_eq (s := s.setZoneState z .restoring) hsh z
  have hpark := State.foldl_parkStopped (s := (s.shuttersOf z).foldl State.restoreShutter (s.setZoneState z .restoring))
    (Table.nodup_select hai fun x => decide (x.geom.zone = z))
  have hbase : (s.shuttersOf z).foldl State.restoreShutter (s.setZoneState z .restoring) =
      { s with
        zones := s.zones.adjust z fun x => { x with state := .restoring }
        securedLine := securedLevel (s.zones.adjust z fun x => { x with state := .restoring })
        shutters := s.shutters.mapRecords fun _ h => if h.zone = z then h.restored else h
        link := { (s.post (zoneReport .restoring z)).link with
          field := s.link.field ++ s.shutters.filterMap fun e => if e.2.zone = z then e.2.opensFrame else none } } := by
    rw [← State.post_link_field s (zoneReport .restoring z)]
    exact hshut
  have hrun : s.enterRestoring z = (s.aisles.select fun x => decide (x.geom.zone = z)).foldl State.parkStopped
      ((s.shuttersOf z).foldl State.restoreShutter (s.setZoneState z .restoring)) := rfl
  rw [hrun]
  refine ⟨hpark.1.trans (by rw [hbase]), fun a y hy => ?_⟩
  have ha := hpark.2 a y (by rw [hbase]; exact hy)
  simpa only [Table.mem_select hai (Table.mem_of_look hy), decide_eq_true_eq] using ha

/-- RESTORE_ZONE, of a zone with a record (R169). -/
theorem exec_restoreZone {tag : Nat} {force key : Bool} {x : Zone} (hw : s.receivesWork tag = true)
    (hz : within 1 8 z = true) (hx : s.zones.look z = some x) :
    exec (.restoreZone tag z force key) s = .next ((s.setKeyLine key).answer tag
      (refuseOr ((s.setKeyLine key).restoreRefusal z x.state (force && key))
        (.accept ((s.setKeyLine key).enterRestoring z).settleWing .empty))) := by
  obtain ⟨hp, ht, hm, hh⟩ := (receivesWork_iff s tag).1 hw
  have hst : (s.setKeyLine key).zoneState z = some x.state := by simp [State.zoneState, State.setKeyLine, hx]
  refine (order_of_portOpen hp _ _).trans (congrArg _ ?_)
  refine (judgeOrder_of_pass (s := s.setKeyLine key) ht (.inl hh) (.inl hm) _).trans ?_
  simp only [hz, Bool.not_true, Bool.false_eq_true, if_false, hst]
  rfl

/-- A detector of the zone stands (R169). -/
theorem State.detectorStands_iff (hw : s.concentrators.wf = true) : s.detectorStands z = true ↔
    ∃ n c, s.concentrators.look n = some c ∧ c.zone = z ∧ c.detectors ≠ [] := by
  rw [State.detectorStands, State.any_zoneConcentrators]
  simp only [Bool.not_eq_true', List.isEmpty_eq_false_iff]
  exact ⟨fun ⟨m, e, he, h⟩ => ⟨m, e, Table.look_of_mem hw he, h⟩, fun ⟨m, e, he, h⟩ => ⟨m, e, Table.mem_of_look he, h⟩⟩

end

/-- Settles O44: the checks of R169, and `enterRestoring_spec`. -/
theorem restoreZoneBeginsRestoration : Obligations.RestoreZoneBeginsRestoration := by
  intro tag z force key x s hw hz hx ht
  have hexec := exec_restoreZone (force := force) (key := key) hw hz hx
  obtain ⟨-, -, -, hc, -⟩ := (tablesLawful_iff s).1 ht
  have hdet := State.detectorStands_iff (s := s) (z := z) hc
  have hfire : ((s.setKeyLine key).detectorStands z || (s.setKeyLine key).firePanel) = true ↔
      s.firePanel = true ∨ ∃ n c, s.concentrators.look n = some c ∧ c.zone = z ∧ c.detectors ≠ [] := by
    rw [Bool.or_eq_true, or_comm]
    exact or_congr Iff.rfl hdet
  unfold State.restoreRefusal at hexec
  rw [State.answer_checks_cons, State.answer_checks_cons, State.answer_checks_nil] at hexec
  rw [hexec]
  refine ⟨fun hs hf => ?_, fun hs hf hstands => ?_, fun hs hpass => ?_⟩
  · cases hv : x.state with
    | secured => exact absurd hv hs
    | shutdown => simp [Bool.eq_false_iff.2 fun hforced => hf ⟨hv, hforced⟩]
    | normal | alert | restoring => simp
  · rw [hfire.2 hstands]
    simp [hs, hf]
  · obtain ⟨hstate, hlook⟩ := State.enterRestoring_spec (s := s.setKeyLine key) (z := z) ht
    have hfirst : (match x.state with
        | .normal | .alert | .restoring => true
        | .shutdown => !(force && key)
        | .secured => false) = false := by
      obtain hv | hv := hs <;> rw [hv]
      obtain hforced | ⟨hv', -⟩ := hpass
      · simp [hforced]
      · rw [hv] at hv'
        cases hv'
    have hsecond : (!(force && key) && ((s.setKeyLine key).detectorStands z || (s.setKeyLine key).firePanel)) = false := by
      obtain hforced | ⟨-, hnone⟩ := hpass
      · simp [hforced]
      · rw [Bool.eq_false_iff.2 fun h => hnone (hfire.1 h), Bool.and_false]
    refine ⟨(s.setKeyLine key).enterRestoring z, ((s.setKeyLine key).enterRestoring z).settleWing, ?_,
      settled_settleWing _, ?_, hlook⟩
    · rw [hsecond]
      refine congrArg Host.Outcome.next ((if_neg (Bool.eq_false_iff.1 hfirst)).trans ?_)
      rfl
    · refine hstate.trans ?_
      simp only [Shutter.opensFrame, State.setKeyLine, Shutter.restored, ← ite_and]
      rfl

end Sys2Proof.Machine
end

section
/-! The Dispatcher's rules: eligibility, activation, staging, withdrawal, parking and resumption (O20). -/
namespace Sys2Proof.Machine

section
variable {s : State} {a n own st : Nat} {x : Aisle} {j : Job}

/-! ### Eligibility (R61, R88) -/

/-- The claims of a station with the record `y` (R88). -/
def State.claimsAt (s : State) (st : Nat) (y : Station) : Nat :=
  y.lane.length + y.inTransit.length
    + (s.aisles.map fun e => (e.2.crane.active.toList ++ e.2.crane.staged.toList).countP fun j =>
        decide (j.kind = .retrieve) && decide (j.station = some st)).sum

/-- What R61 asks of the station of a RETRIEVE. -/
def State.lends (s : State) (own : Nat) (j : Job) : Prop :=
  j.kind = .retrieve → ∃ st y, j.station = some st ∧ s.stations.look st = some y
    ∧ s.zoneState y.loaded.zone = some .normal ∧ y.hold = false ∧ s.claimsAt st y - own < y.loaded.depth

/-- What R61 asks of a job other than PARK. -/
def State.readies (s : State) (x : Aisle) (own : Nat) (j : Job) : Prop :=
  x.service = .inService ∧ s.zoneState x.geom.zone = some .normal ∧ s.isHalted = false ∧ s.mode = .inService
    ∧ s.lends own j

theorem State.stationAdmits_iff : s.stationAdmits own st = true ↔ ∃ y, s.stations.look st = some y
    ∧ s.zoneState y.loaded.zone = some .normal ∧ y.hold = false ∧ s.claimsAt st y - own < y.loaded.depth := by
  cases hy : s.stations.look st with
  | none => simp [State.stationAdmits, hy]
  | some y =>
    have hclaims : s.claims st = s.claimsAt st y := by rw [State.claims, hy]; rfl
    simp [State.stationAdmits, hy, State.zoneNormal, hclaims, and_assoc]

theorem State.jobStationAdmits_iff : s.jobStationAdmits own j = true ↔ s.lends own j := by
  unfold State.jobStationAdmits State.lends
  cases hk : j.kind with
  | retrieve =>
    cases hst : j.station with
    | none => simp
    | some st => simp [State.stationAdmits_iff]
  | store | transfer | audit | park => simp

theorem State.eligible_iff : s.eligible x own j = true ↔ s.readies x own j := by
  simp only [State.eligible, State.readies, State.isInService, State.zoneNormal, Bool.and_eq_true, decide_eq_true_eq,
    Bool.not_eq_true', and_assoc, State.jobStationAdmits_iff]

/-- What `firstEligible` looks for. -/
theorem State.firstEligible_pred : (!decide (j.kind = .park) && s.eligible x 0 j) = true ↔
    j.kind ≠ .park ∧ s.readies x 0 j := by
  simp [State.eligible_iff]

theorem State.firstEligible_eq_none : s.firstEligible x = none ↔ ∀ k ∈ x.queue, k.kind = .park ∨ ¬s.readies x 0 k := by
  rw [State.firstEligible, List.find?_eq_none]
  refine forall_congr' fun k => forall_congr' fun _ => ?_
  rw [State.firstEligible_pred, not_and_or, not_not]

/-- The first eligible job, with the jobs passed over before it (R62). -/
theorem State.firstEligible_eq_some (h : s.firstEligible x = some j) : ∃ before after,
    x.queue = before ++ j :: after ∧ j.kind ≠ .park ∧ s.readies x 0 j
      ∧ (∀ k ∈ before, k.kind = .park ∨ ¬s.readies x 0 k) ∧ x.queue.erase j = before ++ after := by
  obtain ⟨hj, before, after, hq, hbefore⟩ := List.find?_eq_some_iff_append.1 h
  obtain ⟨hkind, hready⟩ := State.firstEligible_pred.1 hj
  have hpassed : ∀ k ∈ before, k.kind = .park ∨ ¬s.readies x 0 k := fun k hk => by
    rw [← not_not (a := k.kind = .park), ← not_and_or, ← State.firstEligible_pred]
    exact Bool.eq_false_iff.1 ((Bool.not_eq_true' _).mp (hbefore k hk))
  refine ⟨before, after, hq, hkind, hready, hpassed, ?_⟩
  rw [hq, List.erase_append_right _ fun hmem => ?_, List.erase_cons_head]
  rcases hpassed j hmem with h | h
  · exact hkind h
  · exact h hready

/-! ### Handing a job to a crane (R62, R63, R65) -/

/-- A job is taken out of the queue, and the crane changes. -/
theorem State.dequeue_modCrane (hx : s.aisles.look a = some x) {l : List Job} (hl : x.queue.erase j = l)
    (f : Crane → Crane) : (s.dequeue a j).modCrane a f =
      { s with aisles := s.aisles.adjust a fun x => { x with queue := l, crane := f x.crane } } := by
  simp only [State.dequeue, State.modCrane, State.modAisle, Table.adjust_adjust]
  have hq : s.aisles.adjust a (fun y => { y with queue := y.queue.erase j, crane := f y.crane }) =
      s.aisles.adjust a fun y => { y with queue := l, crane := f y.crane } := Table.adjust_congr fun y hy => by
    rw [← Option.some.inj (hx.symm.trans hy), hl]
  exact congrArg (fun v => { s with aisles := v }) hq

theorem State.activateNext_of_none (hx : s.aisles.look a = some x) (h : s.firstEligible x = none) :
    s.activateNext a = s := by
  simp only [State.activateNext, hx, h]

theorem State.activateNext_of_some (hx : s.aisles.look a = some x) (h : s.firstEligible x = some j) {l : List Job}
    (hl : x.queue.erase j = l) : s.activateNext a =
      { s with
        aisles := s.aisles.adjust a fun x =>
          { x with
            queue := l
            crane := { x.crane with
              state := .busy, phase := some .toSource, active := some j, retryIndex := 0
              deadline := some (s.armed x j (positionPoint x.geom x.crane.position)) } }
        link := s.link.sendTo (s.craneAddress a) (.job j.tag j.kind j.source j.destination (0, 0)) } := by
  simp only [State.activateNext, hx, h, State.startJob]
  rw [State.dequeue_modCrane hx hl]
  refine congrArg (fun v => { s with
    aisles := v, link := s.link.sendTo (s.craneAddress a) (.job j.tag j.kind j.source j.destination (0, 0)) })
    (Table.adjust_congr fun y hy => ?_)
  rw [← Option.some.inj (hx.symm.trans hy)]
  rfl

theorem State.offerStage_of_not (hx : s.aisles.look a = some x)
    (h : x.crane.state ≠ .busy ∨ x.crane.staged ≠ none ∨ x.service ≠ .inService) : s.offerStage a = s := by
  simp only [State.offerStage, hx]
  refine if_neg fun hc => ?_
  simp only [Bool.and_eq_true, decide_eq_true_eq, Option.isNone_iff_eq_none] at hc
  obtain ⟨⟨hb, hst⟩, hs⟩ := hc
  rcases h with h | h | h
  exacts [h hb, h hst, h hs]

theorem State.offerStage_of_none (hx : s.aisles.look a = some x) (h : s.firstEligible x = none) :
    s.offerStage a = s := by
  simp only [State.offerStage, hx, h, ite_self]

theorem State.offerStage_of_some (hx : s.aisles.look a = some x) (h : s.firstEligible x = some j) {l : List Job}
    (hl : x.queue.erase j = l) (hb : x.crane.state = .busy) (hst : x.crane.staged = none)
    (hs : x.service = .inService) : s.offerStage a =
      { s with
        aisles := s.aisles.adjust a fun x => { x with queue := l, crane := { x.crane with staged := some j } }
        link := s.link.sendTo (s.craneAddress a) (.stage j.tag j.kind j.source j.destination j.station) } := by
  simp only [State.offerStage, hx, h, hb, hst, hs, decide_true, Option.isNone_none, Bool.and_self, if_true]
  rw [State.dequeue_modCrane hx hl]
  rfl

/-! ### Withdrawal (R64) -/

theorem State.withdrawIneligible_of_staged (hx : s.aisles.look a = some x) (hj : x.crane.staged = some j) :
    s.withdrawIneligible a =
      if s.eligible x 1 j then s
      else { s with
        aisles := s.aisles.adjust a fun x =>
          { x with queue := rejoinQueue x.queue j, crane := { x.crane with staged := none } }
        link := s.link.sendTo (s.craneAddress a) (.unstage j.tag) } := by
  simp only [State.withdrawIneligible, State.withdrawStaged, hx, hj, if_true, State.returnJob, State.modCrane,
    State.modAisle, Table.adjust_adjust]
  rfl

/-! ### Parking (R77) -/

theorem State.parkEligible_iff : s.parkEligible x = true ↔
    (x.service = .inService ∨ x.service = .draining) ∧ s.isHalted = false ∧ s.mode = .inService
      ∧ (s.zoneState x.geom.zone = some .normal ∨ s.zoneState x.geom.zone = some .alert
        ∨ s.zoneState x.geom.zone = some .restoring) := by
  unfold State.parkEligible
  simp only [Bool.and_eq_true, Bool.or_eq_true, decide_eq_true_eq, Bool.not_eq_true', State.isInService]
  cases s.zoneState x.geom.zone with
  | none => simp
  | some v => cases v <;> simp [and_assoc]

theorem State.activatePark_of_not (hx : s.aisles.look a = some x)
    (h : x.crane.active ≠ none ∨ s.parkEligible x = false ∨ ∀ j ∈ x.queue, j.kind ≠ .park) :
    s.activatePark a = s := by
  simp only [State.activatePark, hx]
  split
  · rfl
  · next k hk =>
    refine if_neg fun hc => ?_
    obtain ⟨ha, hp⟩ := Bool.and_eq_true_iff.1 hc
    rcases h with h | h | h
    · exact h (Option.isNone_iff_eq_none.1 ha)
    · rw [h] at hp
      cases hp
    · exact h k (List.mem_of_find?_eq_some hk) (by simpa using List.find?_some hk)

theorem State.activatePark_of_first (hx : s.aisles.look a = some x) (ha : x.crane.active = none)
    (hp : s.parkEligible x = true) {before after : List Job} (hq : x.queue = before ++ j :: after)
    (hj : j.kind = .park) (hbefore : ∀ k ∈ before, k.kind ≠ .park) : s.activatePark a =
      { s with
        aisles := s.aisles.adjust a fun x =>
          { x with
            queue := before ++ after
            crane := { x.crane with
              phase := some .toDest, active := some j, retryIndex := 0
              deadline := some
                { left := deadlineFor x.geom (leg x.geom (positionPoint x.geom x.crane.position) frontPort)
                  running := true } } }
        link := s.link.sendTo (s.craneAddress a) (.park j.tag) } := by
  have hfind : x.queue.find? (fun j => decide (j.kind = .park)) = some j :=
    List.find?_eq_some_iff_append.2 ⟨decide_eq_true hj, before, after, hq, fun k hk => by simpa using hbefore k hk⟩
  have herase : x.queue.erase j = before ++ after := by
    rw [hq, List.erase_append_right _ fun hmem => hbefore j hmem hj, List.erase_cons_head]
  simp only [State.activatePark, hx, hfind, ha, Option.isNone_none, hp, Bool.and_self, if_true]
  rw [State.dequeue_modCrane hx herase]
  refine congrArg (fun v => { s with aisles := v, link := s.link.sendTo (s.craneAddress a) (.park j.tag) })
    (Table.adjust_congr fun y hy => ?_)
  rw [← Option.some.inj (hx.symm.trans hy)]
  simp only [State.armed, estimate, hj]

/-! ### Resumption (R175) -/

theorem State.mayResume_iff : s.mayResume x j = true ↔
    s.zoneState x.geom.zone = some .normal ∧ s.isHalted = false ∧ s.mode = .inService
      ∧ (x.service = .inService ∨ x.service = .draining) ∧ s.lends 0 j := by
  simp only [State.mayResume, State.zoneNormal, State.isInService, Bool.and_eq_true, decide_eq_true_eq,
    Bool.not_eq_true', Bool.or_eq_true, State.jobStationAdmits_iff, and_assoc]

theorem State.resume_of_not (hx : s.aisles.look a = some x) {r : Suspension} (hr : x.crane.suspension = some r)
    (h : r.resumes = false ∨ s.mayResume x r.job = false) : s.resume a = s := by
  simp only [State.resume, hx, hr]
  refine if_neg fun hc => ?_
  obtain ⟨h1, h2⟩ := Bool.and_eq_true_iff.1 hc
  rcases h with h | h
  · rw [h] at h1
    cases h1
  · rw [h] at h2
    cases h2

theorem State.resume_of_may (hx : s.aisles.look a = some x) {r : Suspension} (hr : x.crane.suspension = some r)
    {b : Bin} (hn : r.job.bin = some n) (hb : s.bins.look n = some b) (hlabel : r.parkLabel = some (.label n))
    (hk : r.job.kind = .retrieve ∨ r.job.kind = .store ∨ r.job.kind = .transfer) (hmay : s.mayResume x r.job = true) :
    s.resume a =
      { s with
        aisles := s.aisles.adjust a fun x =>
          { x with crane := { x.crane with
            state := .busy, phase := some .toDest, active := some r.job, retryIndex := 0, suspension := none
            deadline := some (s.armedResume x r.job) } }
        bins := s.bins.adjust n fun b =>
          if (b.state = .called ∧ r.job.kind ≠ .store) ∨ (b.state = .homebound ∧ r.job.kind = .store) then
            { b with state := .onCrane }
          else b
        link := s.link.sendTo (s.craneAddress a)
          (.job r.job.tag r.job.kind (some .frontPort) r.job.destination (0, 0)) } := by
  have hcarries : r.job.kind.carries = true := by
    rcases hk with hk | hk | hk <;> rw [hk] <;> rfl
  have hresumes : r.resumes = true := by
    rcases hk with hk | hk | hk <;> simp [Suspension.resumes, hk, hlabel, hn]
  have haisles : (s.aisles.adjust a fun z =>
      { z with crane := { z.crane with
        state := .busy, phase := some .toDest, active := some r.job, retryIndex := 0
        deadline := some (s.armedResume x r.job), suspension := none } }) =
      s.aisles.adjust a fun x =>
        { x with crane := { x.crane with
          state := .busy, phase := some .toDest, active := some r.job, retryIndex := 0, suspension := none
          deadline := some (s.armedResume x r.job) } } := Table.adjust_congr fun y hy => by
    rw [← Option.some.inj (hx.symm.trans hy)]
  have hbins : ∀ p : Prop, [Decidable p] →
      (p ↔ (b.state = .called ∧ r.job.kind ≠ .store) ∨ (b.state = .homebound ∧ r.job.kind = .store)) →
      (s.bins.adjust n fun b =>
        if (b.state = .called ∧ r.job.kind ≠ .store) ∨ (b.state = .homebound ∧ r.job.kind = .store) then
          { b with state := .onCrane }
        else b) = if p then s.bins.adjust n fun b => { b with state := .onCrane } else s.bins := fun p _ hp => by
    by_cases h : p
    · rw [if_pos h]
      exact Table.adjust_congr fun y hy => by
        rw [← Option.some.inj (hb.symm.trans hy), if_pos (hp.1 h)]
    · rw [if_neg h]
      refine Table.adjust_eq_self_of_look fun y hy => ?_
      rw [← Option.some.inj (hb.symm.trans hy), if_neg fun hq => h (hp.2 hq)]
  simp only [State.resume, hx, hr, hresumes, hmay, Bool.and_self, if_true]
  rw [State.liftBin_of_look (s := s.modCrane a _) (b := b) hn hb hcarries, hbins _ Iff.rfl]
  simp only [State.modCrane, haisles]
  split <;> rfl

/-- The deadline of a resumed job that has a bin on the forks (R41 to R43). -/
theorem State.armedResume_eq (hk : j.kind = .retrieve ∨ j.kind = .store ∨ j.kind = .transfer) (x : Aisle) :
    s.armedResume x j =
      { left := deadlineFor x.geom
          (if j.kind = .retrieve then x.geom.handling + s.conveyorOf j
          else leg x.geom { bay := 0, level := 1 } j.destination.point + x.geom.handling)
        running := true } := by
  rcases hk with hk | hk | hk
  · simp [State.armedResume, resumeEstimate, hk, leg, legH, legV]
  · simp [State.armedResume, resumeEstimate, hk, Job.destinationPoint, frontPort]
  · simp [State.armedResume, resumeEstimate, hk, Job.destinationPoint, frontPort]

/-! ### The end of a command (R62, R64, log 6) -/

theorem Flow.aisleNumbers {t : State} (h : Flow s t) : t.aisles.numbers = s.aisles.numbers :=
  numbers_of_map (fun e : Nat × Aisle => (e.1, e.2.geom, e.2.retry)) (fun _ => rfl) (congrArg Loaded.aisles h.loaded)

theorem Flow.zoneNumbers {t : State} (h : Flow s t) : t.zones.numbers = s.zones.numbers :=
  numbers_of_map (fun e : Nat × Zone => (e.1, e.2.window)) (fun _ => rfl) (congrArg Loaded.zones h.loaded)

/-- The three passes at the end of a command, over the aisles and zones of the state in which it begins. -/
theorem State.settleWing_eq (s : State) : s.settleWing =
    s.aisles.numbers.foldl State.lookAisle
      (s.aisles.numbers.foldl State.withdrawIneligible (s.zones.numbers.foldl State.judgeZone s)) := by
  have hjudged : s.judgeZones.aisles.numbers = s.aisles.numbers := (Flow.refl s).judgeZones.aisleNumbers
  have hwithdrawn : s.judgeZones.withdrawAll.aisles.numbers = s.aisles.numbers :=
    (Flow.refl s).judgeZones.withdrawAll.aisleNumbers
  rw [State.settleWing, State.lookAll, hwithdrawn, State.withdrawAll, hjudged]
  rfl

end

/-- Settles O20: each of the Dispatcher's operations by its equation. -/
theorem dispatcherHandsJobsToCranes : Obligations.DispatcherHandsJobsToCranes := by
  refine ⟨fun s a x j hx hfirst => ?_, fun s a x hx => ?_, fun s => ⟨rfl, rfl, s.settleWing_eq, fun ht => ?_⟩⟩
  · obtain ⟨before, after, hq, hkind, hready, hpassed, herase⟩ := State.firstEligible_eq_some hfirst
    exact ⟨before, after, hq, hkind, hready, hpassed, fun _ _ => State.activateNext_of_some hx hfirst herase,
      fun hb hst hs => State.offerStage_of_some hx hfirst herase hb hst hs⟩
  · refine ⟨State.firstEligible_eq_none,
      fun h => ⟨State.activateNext_of_none hx h, State.offerStage_of_none hx h⟩, State.offerStage_of_not hx,
      fun j own => State.eligible_iff, fun h => ?_, fun j hj => ⟨fun h => ?_, fun h => ?_⟩, ⟨fun h => ?_, ?_⟩, ?_, ?_⟩
    · simp only [State.withdrawIneligible, hx, h]
    · rw [State.withdrawIneligible_of_staged hx hj, if_pos (State.eligible_iff.2 h)]
    · rw [State.withdrawIneligible_of_staged hx hj, if_neg fun he => h (State.eligible_iff.1 he)]
      simp only [rejoinQueue, Job.isStore, decide_eq_true_eq]
      rfl
    · refine State.activatePark_of_not hx ?_
      rcases h with h | h | h
      exacts [.inl h, .inr (.inl (Bool.eq_false_iff.2 fun hp => h (State.parkEligible_iff.1 hp))), .inr (.inr h)]
    · exact fun before j after ha hmay hq hj hbefore =>
        State.activatePark_of_first hx ha (State.parkEligible_iff.2 hmay) hq hj hbefore
    · intro r hr
      refine ⟨fun h => State.resume_of_not hx hr ?_, fun n b hn hb hlabel hk hmay => ?_⟩
      · rcases h with h | h
        exacts [.inl h, .inr (Bool.eq_false_iff.2 fun hm => h (State.mayResume_iff.1 hm))]
      · rw [State.resume_of_may hx hr hn hb hlabel hk (State.mayResume_iff.2 hmay)]
        simp only [State.armedResume_eq hk]
    · cases hr : x.crane.suspension <;> simp only [State.lookAisle, hx, hr, if_true, reduceCtorEq, if_false] <;> rfl
  · obtain ⟨hai, -, hz, -⟩ := (tablesLawful_iff s).1 ht
    exact ⟨of_decide_eq_true ((Table.wf_eq _).symm.trans hai), of_decide_eq_true ((Table.wf_eq _).symm.trans hz)⟩

end Sys2Proof.Machine
end

section
/-! The entry actions of SHUTDOWN (R159, R160, R164), zone by zone. -/
namespace Sys2Proof.Machine

section
variable {s u t : State} {a n st z : Nat}

/-! ### One station, one crane, one shutter -/

/-- A station at the entry of its zone to SHUTDOWN (R159): its in-transit deadlines are paused. -/
def Station.paused (x : Station) : Station :=
  { x with inTransit := x.inTransit.map fun e => { e with deadline := { e.deadline with running := false } } }

/-- HOLD and RETRACT to the station (R159). -/
def Station.closeFrames (x : Station) : List Frame :=
  [fieldFrame x.loaded.address .hold, fieldFrame x.loaded.address .retract]

theorem State.shutdownStation_of_look {x : Station} (hx : s.stations.look st = some x) : s.shutdownStation st =
    { s with
      stations := s.stations.adjust st Station.paused
      link := { s.link with field := s.link.field ++ x.closeFrames } } := by
  have hheld : (s.sendStation st .hold).stations.look st = some x := by
    rw [State.sendStation_of_look hx]
    exact hx
  rw [State.shutdownStation, State.sendStation_of_look hheld, State.sendStation_of_look hx]
  simp only [List.append_assoc, List.cons_append, List.nil_append]
  rfl

/-- A crane with a STOP at the entry of its zone to SHUTDOWN (R160). -/
def State.entryFrames (s : State) (a : Nat) (x : Aisle) : List Frame :=
  (if x.crane.state.stops then (s.craneAddress a).map fun d => fieldFrame d .stop else none).toList

theorem State.stopCrane_modAisle (s : State) (a : Nat) (f : Aisle → Aisle) :
    (s.stopCrane a).modAisle a f =
      { s with
        aisles := s.aisles.adjust a fun x => f (x.sentStop s.settings.stop)
        link := { s.link with field := s.link.field ++ ((s.craneAddress a).map fun d => fieldFrame d .stop).toList } } := by
  rw [State.stopCrane_eq, State.sendCrane, State.send]
  simp only [State.modAisle, Table.adjust_adjust, Link.sendTo_eq]
  rfl

theorem Aisle.entered_stopped (wait : Nat) (x : Aisle) (h : x.crane.state = .stopped) :
    x.entered wait = { x with crane := x.crane.suspendFrozen } := by
  have hload : (decide (x.crane.phase = some .toDest) || decide (x.crane.phase = some .placing)) =
      (decide (x.crane.phase.getD .toSource = .toDest) || decide (x.crane.phase.getD .toSource = .placing)) := by
    cases x.crane.phase <;> simp
  unfold Aisle.entered Crane.suspendFrozen
  rw [h, hload]
  cases hj : x.crane.active with
  | none => rfl
  | some j => rfl

theorem Aisle.entered_idle (wait : Nat) (x : Aisle) (h : x.crane.state = .idle) :
    x.entered wait = { x.sentStop wait with crane := (x.sentStop wait).crane.clearParkLabel } := by
  have hsus : (x.sentStop wait).crane.suspension = x.crane.suspension := by
    unfold Aisle.sentStop Aisle.unstaged
    cases x.crane.staged <;> rfl
  unfold Aisle.entered Crane.clearParkLabel
  rw [h, hsus]

theorem State.shutdownCrane_of_look {x : Aisle} (hx : s.aisles.look a = some x) : s.shutdownCrane a =
    { s with
      aisles := s.aisles.adjust a (Aisle.entered s.settings.stop)
      link := { s.link with field := s.link.field ++ s.entryFrames a x } } := by
  have hrec : ∀ f : Aisle → Aisle, f x = x.entered s.settings.stop →
      s.aisles.adjust a f = s.aisles.adjust a (Aisle.entered s.settings.stop) := fun f hf =>
    Table.adjust_congr fun y hy => by rw [← Option.some.inj (hx.symm.trans hy), hf]
  have hself : x.entered s.settings.stop = x → s.aisles.adjust a (Aisle.entered s.settings.stop) = s.aisles := fun h => by
    rw [← hrec id h.symm, Table.adjust_eq_self (f := id) _ _ fun _ => rfl]
  have hstop := State.stopCrane_modAisle s a
  simp only [State.shutdownCrane, hx]
  cases hc : x.crane.state with
  | busy | parking =>
    have hid := hstop id
    rw [State.modAisle, Table.adjust_eq_self (f := id) _ _ fun _ => rfl] at hid
    simp only [State.entryFrames, hc, CraneState.stops]
    refine hid.trans ?_
    rw [hrec _ (by simp only [Aisle.entered, hc]; rfl)]
    rfl
  | idle =>
    simp only [State.entryFrames, hc, CraneState.stops]
    refine (hstop fun x => { x with crane := x.crane.clearParkLabel }).trans ?_
    rw [hrec _ (Aisle.entered_idle _ _ hc).symm]
    rfl
  | stopping =>
    simp only [State.entryFrames, hc, CraneState.stops, State.modCrane]
    cases hw : x.crane.stopWait with
    | none =>
      simp only [Option.isNone_none, if_true]
      rw [hrec _ (by simp only [Aisle.entered, hc, hw, Option.getD_none])]
      simp
    | some w =>
      simp only [Option.isNone_some, Bool.false_eq_true, if_false]
      rw [hself (by simp only [Aisle.entered, hc, hw, Option.getD_some]; rw [← hw, ← hc])]
      simp
  | stopped =>
    simp only [State.entryFrames, hc, CraneState.stops, State.modCrane]
    rw [hrec _ (Aisle.entered_stopped _ _ hc).symm]
    simp
  | faulted | outOfService =>
    simp only [State.entryFrames, hc, CraneState.stops]
    rw [hself (by simp only [Aisle.entered, hc])]
    simp

/-- CLOSE to a shutter at the entry of its zone to SHUTDOWN (R164). -/
def State.closeFrames (s : State) (n : Nat) (h : Shutter) : List Frame :=
  if h.state = .jammed ∨ ((h.state = .opened ∨ h.state = .opening) ∧ s.mouthOccupiedAt n = false) then
    [fieldFrame h.address (.closeShutter false)]
  else []

theorem State.startClose_of_look {h : Shutter} (hh : s.shutters.look n = some h) : s.startClose n =
    { s with
      shutters := s.shutters.adjust n (Shutter.shut (s.mouthOccupiedAt n) s.settings.shutter)
      link := { s.link with field := s.link.field ++ s.closeFrames n h } } := by
  have hrec : ∀ f : Shutter → Shutter, f h = h.shut (s.mouthOccupiedAt n) s.settings.shutter →
      s.shutters.adjust n f = s.shutters.adjust n (Shutter.shut (s.mouthOccupiedAt n) s.settings.shutter) := fun f hf =>
    Table.adjust_congr fun w hw => by rw [← Option.some.inj (hh.symm.trans hw), hf]
  have hself : h.shut (s.mouthOccupiedAt n) s.settings.shutter = h →
      s.shutters.adjust n (Shutter.shut (s.mouthOccupiedAt n) s.settings.shutter) = s.shutters := fun he => by
    rw [← hrec id he.symm, Table.adjust_eq_self (f := id) _ _ fun _ => rfl]
  simp only [State.startClose, hh]
  cases hs : h.state with
  | opened | opening =>
    cases hm : s.mouthOccupiedAt n with
    | true =>
      simp only [State.closeFrames, hs, hm, if_true, reduceCtorEq, or_false, or_true, or_self,
        if_false, List.append_nil, Bool.true_eq_false, and_false]
      simp only [hm] at hrec
      rw [State.modShutter, hrec _ (by simp only [Shutter.shut, hs, if_true])]
    | false =>
      simp only [State.closeFrames, hs, hm, if_true, reduceCtorEq, or_false, or_true, and_self,
        if_false, Bool.false_eq_true]
      simp only [hm] at hrec
      rw [State.moveShutter_eq hh rfl, hrec _ (by simp only [Shutter.shut, hs, Bool.false_eq_true, if_false])]
  | jammed =>
    rw [hself (by simp only [Shutter.shut, hs])]
    simp only [State.closeFrames, hs, true_or, if_true]
    exact State.sendShutter_of_look hh _
  | closing | waitingMouth | closed =>
    rw [hself (by simp only [Shutter.shut, hs])]
    simp only [State.closeFrames, hs, reduceCtorEq, or_self, false_and, if_false, List.append_nil]

/-! ### The members of a zone -/

/-- The stations of the zone after their entry action (R159). -/
def State.stationsShut (s : State) (z : Nat) : State :=
  { s with
    stations := s.stations.mapRecords fun _ x => if x.loaded.zone = z then x.paused else x
    link := { s.link with
      field := s.link.field ++ s.stations.flatMap fun e => if e.2.loaded.zone = z then e.2.closeFrames else [] } }

/-- The cranes of the zone after their entry action (R160). -/
def State.cranesShut (s : State) (z : Nat) : State :=
  { s with
    aisles := s.aisles.mapRecords fun _ x => if x.geom.zone = z then x.entered s.settings.stop else x
    link := { s.link with
      field := s.link.field ++ s.aisles.flatMap fun e => if e.2.geom.zone = z then s.entryFrames e.1 e.2 else [] } }

/-- The shutters of the zone after the start of their close (R164). -/
def State.shuttersShut (s : State) (z : Nat) : State :=
  { s with
    shutters := s.shutters.mapRecords fun n h =>
      if h.zone = z then h.shut (s.mouthOccupiedAt n) s.settings.shutter else h
    link := { s.link with
      field := s.link.field ++ s.shutters.flatMap fun e => if e.2.zone = z then s.closeFrames e.1 e.2 else [] } }

theorem State.shutdownStations_eq (hw : s.stations.wf = true) (z : Nat) :
    (s.stationsOf z).foldl State.shutdownStation s = s.stationsShut z := by
  have h := foldl_selected hw (fun x => decide (x.loaded.zone = z))
    (fun v l => { s with stations := v, link := { s.link with field := l } }) (step := State.shutdownStation)
    (fun _ => Station.paused) (fun _ => Station.closeFrames)
    (fun v l n x hx => State.shutdownStation_of_look hx) s.link.field
  simp only [decide_eq_true_eq] at h
  exact h

theorem State.shutdownCranes_eq (hw : s.aisles.wf = true) (z : Nat) :
    (s.aislesOf z).foldl State.shutdownCrane s = s.cranesShut z := by
  have h := foldl_selected hw (fun x => decide (x.geom.zone = z))
    (fun v l => { s with aisles := v, link := { s.link with field := l } }) (step := State.shutdownCrane)
    (fun _ => Aisle.entered s.settings.stop) s.entryFrames
    (fun v l n x hx => State.shutdownCrane_of_look hx) s.link.field
  simp only [decide_eq_true_eq] at h
  exact h

theorem State.startCloses_eq (hw : s.shutters.wf = true) (z : Nat) :
    (s.shuttersOf z).foldl State.startClose s = s.shuttersShut z := by
  have h := foldl_selected hw (fun x => decide (x.zone = z))
    (fun v l => { s with shutters := v, link := { s.link with field := l } }) (step := State.startClose)
    (fun n => Shutter.shut (s.mouthOccupiedAt n) s.settings.shutter) s.closeFrames
    (fun v l n x hx => State.startClose_of_look hx) s.link.field
  simp only [decide_eq_true_eq] at h
  exact h

/-- The mouth that a shutter is bound to depends on the loaded fields and the mouths of the stations alone. -/
theorem State.mouthOccupiedAt_mapRecords {f : Nat → Station → Station} (hl : ∀ n x, (f n x).loaded = x.loaded)
    (hm : ∀ n x, (f n x).mouthOccupied = x.mouthOccupied) (h : u.stations = s.stations.mapRecords f) (n : Nat) :
    u.mouthOccupiedAt n = s.mouthOccupiedAt n := by
  have hbound : u.boundStation n = s.boundStation n := by
    rw [State.boundStation, h, Table.mapRecords, List.find?_map, Option.map_map]
    simp only [Function.comp_def, hl]
    rfl
  unfold State.mouthOccupiedAt
  rw [hbound, h]
  cases s.boundStation n with
  | none => rfl
  | some st => cases hx : s.stations.look st <;> simp [hx, hm]

theorem Station.paused_ite_loaded (p : Prop) [Decidable p] (x : Station) :
    (if p then x.paused else x).loaded = x.loaded := by split <;> rfl

theorem Station.paused_ite_mouth (p : Prop) [Decidable p] (x : Station) :
    (if p then x.paused else x).mouthOccupied = x.mouthOccupied := by split <;> rfl

/-- The frames of the entry actions on the zone (R159, R160, R164). -/
def State.actionFrames (s : State) (z : Nat) : List Frame :=
  (s.stations.flatMap fun e => if e.2.loaded.zone = z then e.2.closeFrames else [])
    ++ (s.aisles.flatMap fun e => if e.2.geom.zone = z then s.entryFrames e.1 e.2 else [])
    ++ s.shutters.flatMap fun e => if e.2.zone = z then s.closeFrames e.1 e.2 else []

/-- The entry actions on the members of one zone. -/
theorem State.entryActions_eq (ha : s.aisles.wf = true) (hst : s.stations.wf = true) (hsh : s.shutters.wf = true)
    (z : Nat) : s.entryActions z =
      { s with
        aisles := s.aisles.mapRecords fun _ x => if x.geom.zone = z then x.entered s.settings.stop else x
        stations := s.stations.mapRecords fun _ x => if x.loaded.zone = z then x.paused else x
        shutters := s.shutters.mapRecords fun n h =>
          if h.zone = z then h.shut (s.mouthOccupiedAt n) s.settings.shutter else h
        link := { s.link with field := s.link.field ++ s.actionFrames z } } := by
  have hrun : s.entryActions z = ((s.stationsShut z).cranesShut z).shuttersShut z := by
    unfold State.entryActions
    rw [State.shutdownStations_eq hst]
    exact (congrArg ((s.shuttersOf z).foldl State.startClose) (State.shutdownCranes_eq (s := s.stationsShut z) ha z)).trans
      (State.startCloses_eq (s := (s.stationsShut z).cranesShut z) hsh z)
  have hmouth : ((s.stationsShut z).cranesShut z).mouthOccupiedAt = s.mouthOccupiedAt := funext fun n =>
    State.mouthOccupiedAt_mapRecords (f := fun _ x => if x.loaded.zone = z then x.paused else x)
      (fun _ x => x.paused_ite_loaded _) (fun _ x => x.paused_ite_mouth _) rfl n
  have hframes : ((s.stationsShut z).cranesShut z).closeFrames = s.closeFrames := by
    unfold State.closeFrames
    rw [hmouth]
  rw [hrun, State.shuttersShut, hmouth, hframes]
  simp only [State.cranesShut, State.stationsShut, List.append_assoc, State.actionFrames]
  rfl

/-! ### The zones of a list -/

/-- `u` is `s` after the entry actions of SHUTDOWN on the members of the zones of `l` (R159, R160, R164). -/
structure Acted (s u : State) (l : List Nat) : Prop where
  settings : u.settings = s.settings
  addresses : u.addresses = s.addresses
  aisles : u.aisles = s.aisles.mapRecords fun _ x => if x.geom.zone ∈ l then x.entered s.settings.stop else x
  stations : u.stations = s.stations.mapRecords fun _ x => if x.loaded.zone ∈ l then x.paused else x
  shutters : u.shutters = s.shutters.mapRecords fun n h =>
    if h.zone ∈ l then h.shut (s.mouthOccupiedAt n) s.settings.shutter else h
  sent : ∃ m, u.link.field = s.link.field ++ m
    ∧ (∀ st x, s.stations.look st = some x → x.loaded.zone ∈ l → ∀ f ∈ x.closeFrames, f ∈ m)
    ∧ (∀ a x, s.aisles.look a = some x → x.geom.zone ∈ l → ∀ f ∈ s.entryFrames a x, f ∈ m)
    ∧ ∀ n h, s.shutters.look n = some h → h.zone ∈ l → ∀ f ∈ s.closeFrames n h, f ∈ m

theorem Acted.refl (s : State) : Acted s s [] :=
  ⟨rfl, rfl, by simp [Table.mapRecords_eq_self], by simp [Table.mapRecords_eq_self], by simp [Table.mapRecords_eq_self],
    [], by simp, by simp, by simp, by simp⟩

theorem Aisle.entered_geom (wait : Nat) (x : Aisle) : (x.entered wait).geom = x.geom := by
  have hstop : (x.sentStop wait).geom = x.geom := by
    unfold Aisle.sentStop Aisle.unstaged
    cases x.crane.staged <;> rfl
  unfold Aisle.entered
  cases x.crane.state with
  | stopped => cases x.crane.active <;> rfl
  | busy | parking | idle => exact hstop
  | stopping | faulted | outOfService => rfl

theorem Shutter.shut_zone (m : Bool) (wait : Nat) (h : Shutter) : (h.shut m wait).zone = h.zone := by
  unfold Shutter.shut
  cases h.state with
  | opened | opening => cases m <;> rfl
  | jammed | closing | waitingMouth | closed => rfl

/-- Two passes over a table, for the zones of a list and then for one more, are one pass. -/
theorem Table.mapRecords_zones {α : Type} (t : Table α) (zone : α → Nat) {f : Nat → α → α}
    (hf : ∀ n x, zone (f n x) = zone x) {l : List Nat} (hz : z ∉ l) :
    ((t.mapRecords fun n x => if zone x ∈ l then f n x else x).mapRecords fun n x => if zone x = z then f n x else x) =
      t.mapRecords fun n x => if zone x ∈ l ++ [z] then f n x else x := by
  rw [Table.mapRecords_mapRecords]
  refine Table.mapRecords_congr fun e _ => ?_
  simp only [List.mem_append, List.mem_singleton]
  by_cases hl : zone e.2 ∈ l
  · have hne : zone e.2 ≠ z := fun h => hz (h ▸ hl)
    simp [hl, hf, hne]
  · simp [hl]

theorem Acted.mouth {l : List Nat} (h : Acted s u l) : u.mouthOccupiedAt = s.mouthOccupiedAt := funext fun n =>
  State.mouthOccupiedAt_mapRecords (f := fun _ x => if x.loaded.zone ∈ l then x.paused else x)
    (fun _ x => x.paused_ite_loaded _) (fun _ x => x.paused_ite_mouth _) h.stations n

theorem Acted.closeFrames {l : List Nat} (h : Acted s u l) : u.closeFrames = s.closeFrames := by
  unfold State.closeFrames
  rw [h.mouth]

theorem Acted.entryFrames {l : List Nat} (h : Acted s u l) : u.entryFrames = s.entryFrames := by
  unfold State.entryFrames State.craneAddress
  rw [h.addresses]

/-- The zone `z` is not among those of `l`, and its entry actions are made. -/
theorem Acted.entryActions (ht : s.tablesLawful = true) {l : List Nat} (h : Acted s u l) (hz : z ∉ l) :
    Acted s (u.entryActions z) (l ++ [z]) := by
  obtain ⟨ha, hst, -, -, hsh, -⟩ := (tablesLawful_iff s).1 ht
  obtain ⟨m, hm, hms, hma, hmh⟩ := h.sent
  have heq := State.entryActions_eq (s := u) (by rw [h.aisles, Table.wf_mapRecords]; exact ha)
    (by rw [h.stations, Table.wf_mapRecords]; exact hst) (by rw [h.shutters, Table.wf_mapRecords]; exact hsh) z
  rw [h.mouth, h.settings] at heq
  have hmem : ∀ {k : Nat}, k ∈ l ++ [z] → k ∈ l ∨ k = z := fun hk => by simpa using hk
  refine ⟨?_, ?_, ?_, ?_, ?_, m ++ u.actionFrames z, ?_, fun st x hx hk f hf => ?_, fun a x hx hk f hf => ?_,
    fun n x hx hk f hf => ?_⟩
  · rw [heq]
  · rw [heq]
    exact h.addresses
  · rw [heq]
    dsimp only
    rw [h.aisles]
    exact Table.mapRecords_zones s.aisles (fun x => x.geom.zone) (fun _ x => congrArg _ (x.entered_geom _)) hz
  · rw [heq]
    dsimp only
    rw [h.stations]
    exact Table.mapRecords_zones s.stations (fun x => x.loaded.zone) (f := fun _ => Station.paused) (fun _ _ => rfl) hz
  · rw [heq]
    dsimp only
    rw [h.shutters]
    exact Table.mapRecords_zones s.shutters (fun x => x.zone)
      (f := fun n => Shutter.shut (s.mouthOccupiedAt n) s.settings.shutter) (fun _ x => x.shut_zone _ _) hz
  · rw [heq]
    rw [hm, List.append_assoc]
  · refine List.mem_append.2 ((hmem hk).imp (fun hl => hms st x hx hl f hf) fun he => ?_)
    have hu : u.stations.look st = some x := by
      rw [h.stations, Table.look_mapRecords, hx, Option.map_some, if_neg (he ▸ hz)]
    refine List.mem_append_left _ (List.mem_append_left _ (List.mem_flatMap.2 ⟨(st, x), Table.mem_of_look hu, ?_⟩))
    rwa [if_pos he]
  · refine List.mem_append.2 ((hmem hk).imp (fun hl => hma a x hx hl f hf) fun he => ?_)
    have hu : u.aisles.look a = some x := by
      rw [h.aisles, Table.look_mapRecords, hx, Option.map_some, if_neg (he ▸ hz)]
    refine List.mem_append_left _ (List.mem_append_right _ (List.mem_flatMap.2 ⟨(a, x), Table.mem_of_look hu, ?_⟩))
    rwa [if_pos he, h.entryFrames]
  · refine List.mem_append.2 ((hmem hk).imp (fun hl => hmh n x hx hl f hf) fun he => ?_)
    have hu : u.shutters.look n = some x := by
      rw [h.shutters, Table.look_mapRecords, hx, Option.map_some, if_neg (he ▸ hz)]
    refine List.mem_append_right _ (List.mem_flatMap.2 ⟨(n, x), Table.mem_of_look hu, ?_⟩)
    rwa [if_pos he, h.closeFrames]

/-- Only the members of a zone, and what was sent, change by the entry actions. -/
theorem State.entryActions_rest (hw : u.aisles.wf = true) (hst : u.stations.wf = true) (hsh : u.shutters.wf = true)
    (z : Nat) : u.entryActions z =
      { u with
        aisles := (u.entryActions z).aisles, stations := (u.entryActions z).stations
        shutters := (u.entryActions z).shutters
        link := { u.link with field := (u.entryActions z).link.field } } := by
  rw [State.entryActions_eq hw hst hsh]

end

end Sys2Proof.Machine
end

section
/-! The passes at the end of a command, aisle by aisle and zone by zone (R62, R64, R167). -/
namespace Sys2Proof.Machine

section
variable {s t u : State} {a b z : Nat} {p q : Nat → Prop} {x : Aisle}

/-! ### What one turn of the Dispatcher touches -/

/-- The Dispatcher has acted on aisles other than those of `p`: aisles, bins and what was sent may change, nothing else. -/
structure Passes (p : Nat → Prop) (s t : State) : Prop where
  rest : t = { s with aisles := t.aisles, bins := t.bins, link := { s.link with field := t.link.field } }
  sent : ∃ l, t.link.field = s.link.field ++ l
  others : ∀ c, p c → t.aisles.look c = s.aisles.look c

theorem Passes.refl (p : Nat → Prop) (s : State) : Passes p s s := ⟨rfl, ⟨[], by simp⟩, fun _ _ => rfl⟩

theorem Passes.trans (h : Passes p s t) (k : Passes p t u) : Passes p s u := by
  obtain ⟨l, hl⟩ := h.sent
  obtain ⟨m, hm⟩ := k.sent
  refine ⟨?_, ⟨l ++ m, by rw [hm, hl, List.append_assoc]⟩, fun c hc => (k.others c hc).trans (h.others c hc)⟩
  rw [k.rest, h.rest]

theorem Passes.mono (h : Passes p s t) (hpq : ∀ c, q c → p c) : Passes q s t :=
  ⟨h.rest, h.sent, fun c hc => h.others c (hpq c hc)⟩

theorem Passes.zones (h : Passes p s t) : t.zones = s.zones := by rw [h.rest]

theorem Passes.mode (h : Passes p s t) : t.mode = s.mode := by rw [h.rest]

theorem Passes.zoneState (h : Passes p s t) (z : Nat) : t.zoneState z = s.zoneState z := by
  unfold State.zoneState
  rw [h.zones]

theorem Passes.modAisle (s : State) (a : Nat) (f : Aisle → Aisle) : Passes (· ≠ a) s (s.modAisle a f) :=
  ⟨rfl, ⟨[], (List.append_nil _).symm⟩, fun c hc => by simp [State.modAisle, Table.look_adjust, hc]⟩

theorem Passes.modCrane (s : State) (a : Nat) (f : Crane → Crane) : Passes (· ≠ a) s (s.modCrane a f) :=
  .modAisle s a _

theorem Passes.sendCrane (p : Nat → Prop) (s : State) (a : Nat) (v : FieldTelegram) : Passes p s (s.sendCrane a v) := by
  unfold State.sendCrane State.send
  cases s.craneAddress a with
  | none => exact .refl p s
  | some d => exact ⟨rfl, ⟨_, rfl⟩, fun _ _ => rfl⟩

theorem Passes.liftBin (p : Nat → Prop) (s : State) (j : Job) : Passes p s (s.liftBin j) := by
  unfold State.liftBin
  cases j.bin with
  | none => exact .refl p s
  | some n =>
    dsimp only
    split
    · next hc =>
      rw [State.setBinState_of_ne fun h => by simp [h] at hc]
      exact ⟨rfl, ⟨[], (List.append_nil _).symm⟩, fun _ _ => rfl⟩
    · exact .refl p s

theorem Passes.activateNext (s : State) (a : Nat) : Passes (· ≠ a) s (s.activateNext a) := by
  unfold State.activateNext
  split
  · exact .refl _ s
  · split
    · exact .refl _ s
    · exact (Passes.modAisle s a _).trans ((Passes.modCrane _ a _).trans (.sendCrane _ _ a _))

theorem Passes.offerStage (s : State) (a : Nat) : Passes (· ≠ a) s (s.offerStage a) := by
  unfold State.offerStage
  split
  · exact .refl _ s
  · split
    · split
      · exact .refl _ s
      · exact (Passes.modAisle s a _).trans ((Passes.modCrane _ a _).trans (.sendCrane _ _ a _))
    · exact .refl _ s

theorem Passes.activatePark (s : State) (a : Nat) : Passes (· ≠ a) s (s.activatePark a) := by
  unfold State.activatePark
  split
  · exact .refl _ s
  · split
    · exact .refl _ s
    · split
      · exact (Passes.modAisle s a _).trans ((Passes.modCrane _ a _).trans (.sendCrane _ _ a _))
      · exact .refl _ s

theorem Passes.resume (s : State) (a : Nat) : Passes (· ≠ a) s (s.resume a) := by
  unfold State.resume
  split
  · exact .refl _ s
  · split
    · exact .refl _ s
    · split
      · exact (Passes.modCrane s a _).trans ((Passes.liftBin _ _ _).trans (.sendCrane _ _ a _))
      · exact .refl _ s

theorem Passes.lookAisle (s : State) (a : Nat) : Passes (· ≠ a) s (s.lookAisle a) := by
  unfold State.lookAisle
  split
  · exact .refl _ s
  · split
    · split
      · exact (Passes.resume s a).trans (.offerStage _ a)
      · exact (Passes.activateNext s a).trans (.offerStage _ a)
    · exact .activatePark s a
    · exact .offerStage s a
    all_goals exact .refl _ s

theorem Passes.withdrawIneligible (s : State) (a : Nat) : Passes (· ≠ a) s (s.withdrawIneligible a) := by
  unfold State.withdrawIneligible State.withdrawStaged
  split
  · exact .refl _ s
  · split
    · exact .refl _ s
    · split
      · exact .refl _ s
      · next j hj _ =>
        simp only [hj, if_true]
        exact (Passes.modCrane s a _).trans ((Passes.modAisle _ a _).trans (.sendCrane _ _ a _))

/-! ### A pass over the aisles -/

section
variable {step : State → Nat → State} (hstep : ∀ u b, Passes (· ≠ b) u (step u b))
include hstep

theorem Passes.foldl {l : List Nat} (hl : ∀ b ∈ l, ∀ c, p c → c ≠ b) (s : State) : Passes p s (l.foldl step s) := by
  induction l generalizing s with
  | nil => exact .refl p s
  | cons b l ih =>
    exact ((hstep s b).mono (hl b List.mem_cons_self)).trans (ih (fun c hc => hl c (List.mem_cons_of_mem _ hc)) _)

/-- A pass comes to an aisle once: what went before and what comes after leave it. -/
theorem Passes.foldl_at {l : List Nat} (hl : l.Nodup) (ha : a ∈ l) (s : State) :
    ∃ u, Passes (· = a) s u ∧ Passes (· = a) (step u a) (l.foldl step s) := by
  obtain ⟨l₁, l₂, rfl⟩ := List.append_of_mem ha
  have hl' := List.nodup_append.1 hl
  have h₁ : ∀ b ∈ l₁, ∀ c, c = a → c ≠ b := fun b hb c hc => hc ▸ fun h => hl'.2.2 b hb a List.mem_cons_self h.symm
  have h₂ : ∀ b ∈ l₂, ∀ c, c = a → c ≠ b := fun b hb c hc => hc ▸ fun h =>
    (List.nodup_cons.1 hl'.2.1).1 (h ▸ hb)
  refine ⟨l₁.foldl step s, .foldl hstep h₁ s, ?_⟩
  rw [List.foldl_append]
  exact .foldl hstep h₂ _

end

/-- A staged job is withdrawn where the zone of its aisle is not NORMAL, and in COMMISSIONING (R61, R64). -/
theorem State.withdrawAll_look (hw : s.aisles.wf = true) (hx : s.aisles.look a = some x)
    (hz : s.mode = .inService → s.zoneState x.geom.zone ≠ some .normal) : s.withdrawAll.aisles.look a = some x.unstaged := by
  obtain ⟨u, hu, hafter⟩ := Passes.foldl_at Passes.withdrawIneligible (Table.nodup_numbers hw)
    (Table.mem_numbers_of_look hx) s
  have hux : u.aisles.look a = some x := (hu.others a rfl).trans hx
  refine (hafter.others a rfl).trans ?_
  cases hj : x.crane.staged with
  | none =>
    rw [State.withdrawIneligible, hux]
    simp only [hj, hux, Aisle.unstaged]
  | some j =>
    have hnot : u.eligible x 1 j = false := Bool.eq_false_iff.2 fun h => by
      obtain ⟨-, hnormal, -, hmode, -⟩ := State.eligible_iff.1 h
      exact hz (hu.mode.symm.trans hmode) ((hu.zoneState _).symm.trans hnormal)
    rw [State.withdrawIneligible_of_staged hux hj, hnot]
    simp [hux, Aisle.unstaged, hj]

/-- Where the Dispatcher has no part in a crane's state, it leaves the aisle. -/
theorem State.lookAll_look (hw : s.aisles.wf = true) (hx : s.aisles.look a = some x) (hi : x.crane.state ≠ .idle)
    (hp : x.crane.state ≠ .parking) (hb : x.crane.state ≠ .busy) : s.lookAll.aisles.look a = some x := by
  obtain ⟨u, hu, hafter⟩ := Passes.foldl_at Passes.lookAisle (Table.nodup_numbers hw) (Table.mem_numbers_of_look hx) s
  have hux : u.aisles.look a = some x := (hu.others a rfl).trans hx
  refine (hafter.others a rfl).trans ?_
  rw [State.lookAisle, hux]
  cases hc : x.crane.state with
  | idle => exact absurd hc hi
  | parking => exact absurd hc hp
  | busy => exact absurd hc hb
  | stopping | stopped | faulted | outOfService => simp only [hc, hux]

theorem Passes.withdrawAll (s : State) : Passes (fun _ => False) s s.withdrawAll :=
  .foldl Passes.withdrawIneligible (fun _ _ _ h => h.elim) s

theorem Passes.lookAll (s : State) : Passes (fun _ => False) s s.lookAll :=
  .foldl Passes.lookAisle (fun _ _ _ h => h.elim) s

/-! ### The judging of the zones -/

/-- The zones that are SECURED when the zones are judged (R167). -/
def State.securable (s : State) (z : Nat) : Bool := decide (s.zoneState z = some .shutdown) && s.securedCondition z

/-- A zone after the judging (R167). -/
def State.zoneJudged (s : State) (z : Nat) (x : Zone) : Zone := if s.securable z then { x with state := .secured } else x

/-- The zones after those that meet the condition of R167 are SECURED. -/
def State.zonesSecured (s : State) : Table Zone := s.zones.mapRecords s.zoneJudged

/-- Where no restoration is complete, the judging of the zones makes some of them SECURED. -/
theorem State.judgeZones_eq (hw : s.zones.wf = true) (hsec : s.securedLine = securedLevel s.zones)
    (hr : ∀ z, s.zoneState z = some .restoring → s.restoredCondition z = false) :
    s.judgeZones =
      { s with
        zones := s.zonesSecured, securedLine := securedLevel s.zonesSecured
        link := (s.posted ((s.zones.numbers.filter s.securable).map (zoneReport .secured))).link } := by
  have key := foldl_induct (step := State.judgeZone) (l := s.zones.numbers) (s := s)
    (fun done u => u = { s with
      zones := s.zones.mapRecords fun z x => if z ∈ done then s.zoneJudged z x else x
      securedLine := securedLevel (s.zones.mapRecords fun z x => if z ∈ done then s.zoneJudged z x else x)
      link := (s.posted ((done.filter s.securable).map (zoneReport .secured))).link })
    (by simp [Table.mapRecords_eq_self, ← hsec, State.posted])
    (fun done z rest u hl hu => ?_)
  · refine key.trans ?_
    rw [Table.mapRecords_numbers (t := s.zones) s.zoneJudged]
    rfl
  · have hz := not_mem_of_split (Table.nodup_numbers hw) hl
    have hstate : u.zoneState z = s.zoneState z := by
      rw [hu]
      exact congrArg (Option.map Zone.state) (Table.look_passed s.zoneJudged hz)
    have hturn : u.judgeZone z = if s.securable z then u.setZoneState z .secured else u := by
      have hcond : u.securedCondition z = s.securedCondition z := by rw [hu]; rfl
      have hres : u.restoredCondition z = s.restoredCondition z := by rw [hu]; rfl
      unfold State.judgeZone State.securable
      rw [hstate, hcond, hres]
      cases hv : s.zoneState z with
      | none => simp
      | some v => cases v <;> simp [hr z, hv]
    have hzones := Table.adjust_passed hw s.zoneJudged hz
    rw [hturn]
    cases hs : s.securable z with
    | true =>
      have hf : s.zoneJudged z = fun x => { x with state := .secured } := funext fun x => if_pos hs
      rw [hf] at hzones
      rw [if_pos rfl, hu]
      simp only [State.setZoneState, State.turnZone, State.modZone, State.judgeSecuredLine, hzones, List.filter_append,
        List.filter_cons, List.filter_nil, hs, if_true, List.map_append, List.map_cons, List.map_nil, State.posted_append]
      rfl
    | false =>
      have hf : s.zoneJudged z = fun x => x := funext fun x => if_neg (by simp [hs])
      rw [hf, Table.adjust_eq_self _ _ fun _ => rfl] at hzones
      rw [if_neg (by simp), hu]
      simp only [hzones, List.filter_append, List.filter_cons, List.filter_nil, hs, Bool.false_eq_true, if_false,
        List.append_nil]

end

end Sys2Proof.Machine
end

section
/-! Zones that enter SHUTDOWN (R152), and the state that the end of the command leaves. -/
namespace Sys2Proof.Machine

section
variable {s t u w : State} {a b z : Nat} {l : List Nat} {x : Aisle}

theorem Acted.congr (h : Acted s u l) (h1 : w.settings = u.settings) (h2 : w.addresses = u.addresses)
    (h3 : w.aisles = u.aisles) (h4 : w.stations = u.stations) (h5 : w.shutters = u.shutters)
    (h6 : w.link.field = u.link.field) : Acted s w l :=
  ⟨h1.trans h.settings, h2.trans h.addresses, h3.trans h.aisles, h4.trans h.stations, h5.trans h.shutters, by
    rw [h6]
    exact h.sent⟩

/-- A zone in a state from which it enters SHUTDOWN (R152). -/
def State.mayShut (s : State) (z : Nat) : Bool :=
  decide (s.zoneState z = some .normal) || decide (s.zoneState z = some .alert) || decide (s.zoneState z = some .restoring)

/-- The zones of the list in SHUTDOWN, their windows disarmed (R152). -/
def State.zonesShut (s : State) (l : List Nat) : Table Zone :=
  s.zones.mapRecords fun z x => if z ∈ l then { x with state := .shutdown, windowLeft := none } else x

theorem State.zonesShut_look (hz : z ∉ l) : (s.zonesShut l).look z = s.zones.look z := Table.look_passed _ hz

theorem State.enterShutdown_of_not (h : s.mayShut z = false) : s.enterShutdown z = s := by
  unfold State.enterShutdown
  unfold State.mayShut at h
  cases hz : s.zoneState z with
  | none => rfl
  | some v => cases v <;> simp_all

theorem State.enterShutdown_of_may (h : s.mayShut z = true) : s.enterShutdown z =
    ((s.modZone z fun x => { x with windowLeft := none }).setZoneState z .shutdown).entryActions z := by
  unfold State.enterShutdown
  unfold State.mayShut at h
  cases hz : s.zoneState z with
  | none => simp [hz] at h
  | some v => cases v <;> simp_all

/-- The state between the change of the zone and its entry actions. -/
def State.zoneShut (s : State) (z : Nat) : State :=
  { s with
    zones := s.zones.adjust z fun x => { x with state := .shutdown, windowLeft := none }
    securedLine := securedLevel (s.zones.adjust z fun x => { x with state := .shutdown, windowLeft := none })
    link := (s.post (zoneReport .shutdown z)).link }

theorem State.zoneShut_eq (s : State) (z : Nat) :
    (s.modZone z fun x => { x with windowLeft := none }).setZoneState z .shutdown = s.zoneShut z := by
  simp only [State.setZoneState, State.turnZone, State.modZone, State.judgeSecuredLine, Table.adjust_adjust]
  rfl

/-- Zone after zone enters SHUTDOWN, where it is in a state that lets it. -/
theorem entered_foldl (ht : s.tablesLawful = true) (hsec : s.securedLawful = true) (hl : l.Nodup) :
    Entered s (l.foldl State.enterShutdown s) (l.filter s.mayShut) := by
  obtain ⟨hai, hst, hzo, -, hsh, -⟩ := (tablesLawful_iff s).1 ht
  have key := foldl_induct (step := State.enterShutdown) (l := l) (s := s)
    (fun done u => Acted s u (done.filter s.mayShut) ∧ u = { s with
      zones := s.zonesShut (done.filter s.mayShut)
      securedLine := securedLevel (s.zonesShut (done.filter s.mayShut))
      aisles := u.aisles, stations := u.stations, shutters := u.shutters
      link := { (s.posted ((done.filter s.mayShut).map (zoneReport .shutdown))).link with field := u.link.field } })
    ⟨.refl s, by
      simp [State.zonesShut, Table.mapRecords_eq_self, ← (securedLawful_iff s).1 hsec, State.posted]⟩
    (fun done z rest u hdone hu => ?_)
  · obtain ⟨hacted, hu⟩ := key
    obtain ⟨m, hm, hms, hma, hmh⟩ := hacted.sent
    have hzones : (l.foldl State.enterShutdown s).zones = s.zonesShut (l.filter s.mayShut) := by rw [hu]
    refine ⟨?_, m, hm, fun st x hx hz => ?_, fun a x d hx hz hd hstop => ?_, fun n h hh hz hopen => ?_⟩
    · refine hu.trans ?_
      rw [hacted.aisles, hacted.stations, hacted.shutters, hzones]
      rfl
    · exact ⟨hms st x hx hz _ (by simp [Station.closeFrames]), hms st x hx hz _ (by simp [Station.closeFrames])⟩
    · refine hma a x hx hz _ ?_
      simp [State.entryFrames, (CraneState.stops_iff _).2 hstop, hd]
    · refine hmh n h hh hz _ ?_
      rw [State.closeFrames, if_pos hopen]
      exact List.mem_singleton_self _
  · obtain ⟨hacted, hu⟩ := hu
    have hz : z ∉ done.filter s.mayShut := fun h => not_mem_of_split hl hdone (List.mem_filter.1 h).1
    have hstate : u.zoneState z = s.zoneState z := by
      rw [hu]
      exact congrArg (Option.map Zone.state) (State.zonesShut_look hz)
    have hmay : u.mayShut z = s.mayShut z := by
      unfold State.mayShut
      rw [hstate]
    rw [List.filter_append]
    cases hs : s.mayShut z with
    | false =>
      rw [State.enterShutdown_of_not (hmay.trans hs)]
      simpa [hs] using ⟨hacted, hu⟩
    | true =>
      rw [State.enterShutdown_of_may (hmay.trans hs), State.zoneShut_eq]
      have hfilter : [z].filter s.mayShut = [z] := by simp [hs]
      have hnext := (hacted.congr (w := u.zoneShut z) rfl rfl rfl rfl rfl (State.post_link_field u _)).entryActions ht hz
      have hrest := State.entryActions_rest (u := u.zoneShut z)
        (show u.aisles.wf = true by rw [hacted.aisles, Table.wf_mapRecords]; exact hai)
        (show u.stations.wf = true by rw [hacted.stations, Table.wf_mapRecords]; exact hst)
        (show u.shutters.wf = true by rw [hacted.shutters, Table.wf_mapRecords]; exact hsh) z
      rw [hfilter]
      refine ⟨hnext, hrest.trans ?_⟩
      have hzones : (s.zonesShut (done.filter s.mayShut)).adjust z
          (fun x => { x with state := .shutdown, windowLeft := none }) = s.zonesShut (done.filter s.mayShut ++ [z]) :=
        Table.adjust_passed hzo (fun _ x => { x with state := .shutdown, windowLeft := none }) hz
      have hlink : ∀ f, { (u.post (zoneReport .shutdown z)).link with field := f } =
          { (s.posted ((done.filter s.mayShut ++ [z]).map (zoneReport .shutdown))).link with field := f } := fun f => by
        rw [List.map_append, State.posted_append, State.post, hu]
        dsimp only
        rw [Link.post_with_field, State.posted_rest]
        rfl
      generalize (u.zoneShut z).entryActions z = v
      simp only [State.zoneShut, hlink]
      rw [hu]
      simp only [hzones]

/-! ### What an entry leaves of the records -/

theorem Entered.aisles_eq (h : Entered w u l) : u.aisles =
    w.aisles.mapRecords fun _ x => if x.geom.zone ∈ l then x.entered w.settings.stop else x := by
  rw [h.rest]

theorem Entered.stations_eq (h : Entered w u l) : u.stations =
    w.stations.mapRecords fun _ x => if x.loaded.zone ∈ l then x.paused else x := by
  rw [h.rest]
  rfl

theorem Entered.shutters_eq (h : Entered w u l) : u.shutters = w.shutters.mapRecords fun n h =>
    if h.zone ∈ l then h.shut (w.mouthOccupiedAt n) w.settings.shutter else h := by
  rw [h.rest]

theorem Entered.zones_eq (h : Entered w u l) : u.zones = w.zonesShut l := by
  rw [h.rest]
  rfl

theorem Entered.tablesLawful (h : Entered w u l) (ht : w.tablesLawful = true) : u.tablesLawful = true := by
  rw [tablesLawful_iff] at ht ⊢
  rw [h.rest]
  simpa only [Table.wf_mapRecords] using ht

theorem Entered.zoneState_of_mem (h : Entered w u l) (hz : z ∈ l) (hr : (w.zoneState z).isSome = true) :
    u.zoneState z = some .shutdown := by
  unfold State.zoneState at hr ⊢
  rw [h.zones_eq, State.zonesShut, Table.look_mapRecords]
  cases hx : w.zones.look z with
  | none => simp [hx] at hr
  | some x => simp [hz]

theorem Entered.zoneState_of_not_mem (h : Entered w u l) (hz : z ∉ l) : u.zoneState z = w.zoneState z := by
  unfold State.zoneState
  rw [h.zones_eq, State.zonesShut_look hz]

theorem Entered.shutter_look (h : Entered w u l) (hz : z ∉ l) {n : Nat} {x : Shutter} (hx : x.zone = z) :
    u.shutters.look n = some x ↔ w.shutters.look n = some x := by
  rw [h.shutters_eq, Table.look_mapRecords, Option.map_eq_some_iff]
  refine ⟨fun ⟨y, hy, he⟩ => ?_, fun hy => ⟨x, hy, if_neg (hx ▸ hz)⟩⟩
  split at he
  · next hl =>
    rw [← he, Shutter.shut_zone] at hx
    exact absurd (hx ▸ hl) hz
  · exact he ▸ hy

theorem Entered.aisle_look (h : Entered w u l) (hz : z ∉ l) (hx : x.geom.zone = z) :
    u.aisles.look a = some x ↔ w.aisles.look a = some x := by
  rw [h.aisles_eq, Table.look_mapRecords, Option.map_eq_some_iff]
  refine ⟨fun ⟨y, hy, he⟩ => ?_, fun hy => ⟨x, hy, if_neg (hx ▸ hz)⟩⟩
  split at he
  · next hl =>
    rw [← he, Aisle.entered_geom] at hx
    exact absurd (hx ▸ hl) hz
  · exact he ▸ hy

theorem Entered.securedCondition (h : Entered w u l) (ht : w.tablesLawful = true) (hz : z ∉ l) :
    u.securedCondition z = w.securedCondition z := by
  rw [Bool.eq_iff_iff, State.securedCondition_iff ht, State.securedCondition_iff (h.tablesLawful ht)]
  refine and_congr (forall₂_congr fun n x => ?_) (forall₂_congr fun a x => ?_)
  · rw [imp.swap, imp.swap (a := w.shutters.look n = some x)]
    exact imp_congr_right fun hx => by rw [h.shutter_look hz hx]
  · rw [imp.swap, imp.swap (a := w.aisles.look a = some x)]
    exact imp_congr_right fun hx => by rw [h.aisle_look hz hx]

theorem Entered.restoredCondition (h : Entered w u l) (ht : w.tablesLawful = true) (hz : z ∉ l) :
    u.restoredCondition z = w.restoredCondition z := by
  rw [Bool.eq_iff_iff, State.restoredCondition_iff ht, State.restoredCondition_iff (h.tablesLawful ht)]
  refine and_congr (forall₂_congr fun n x => ?_) (forall₂_congr fun a x => ?_)
  · rw [imp.swap, imp.swap (a := w.shutters.look n = some x)]
    exact imp_congr_right fun hx => by rw [h.shutter_look hz hx]
  · rw [imp.swap, imp.swap (a := w.aisles.look a = some x)]
    exact imp_congr_right fun hx => by rw [h.aisle_look hz hx]

/-! ### The aisles of a closed zone -/

theorem Aisle.unstaged_state (x : Aisle) : x.unstaged.crane.state = x.crane.state := by
  unfold Aisle.unstaged
  cases x.crane.staged <;> rfl

theorem Aisle.unstaged_suspension (x : Aisle) : x.unstaged.crane.suspension = x.crane.suspension := by
  unfold Aisle.unstaged
  cases x.crane.staged <;> rfl

theorem Aisle.unstaged_geom (x : Aisle) : x.unstaged.geom = x.geom := by
  unfold Aisle.unstaged
  cases x.crane.staged <;> rfl

/-- After the entry the Dispatcher has no part in the crane. -/
theorem Aisle.entered_state (wait : Nat) (x : Aisle) : (x.entered wait).crane.state =
    match x.crane.state with
    | .busy | .parking | .idle | .stopping => .stopping
    | .stopped => .stopped
    | .faulted => .faulted
    | .outOfService => .outOfService := by
  unfold Aisle.entered
  cases hc : x.crane.state with
  | stopped =>
    cases x.crane.active with
    | none => exact hc
    | some j => exact hc
  | busy | parking | idle => rfl
  | stopping | faulted | outOfService => exact hc

theorem Aisle.entered_idles_not (wait : Nat) (x : Aisle) : (x.entered wait).crane.state ≠ .idle
    ∧ (x.entered wait).crane.state ≠ .parking ∧ (x.entered wait).crane.state ≠ .busy := by
  rw [Aisle.entered_state]
  cases x.crane.state <;> simp

/-- An entry makes no record one that resumes (R160). -/
theorem Aisle.entered_resumes (wait : Nat) (x : Aisle) (h : x.crane.suspension.any Suspension.resumes = false) :
    (x.entered wait).crane.suspension.any Suspension.resumes = false := by
  have hstop : (x.sentStop wait).crane.suspension = x.crane.suspension := x.unstaged_suspension
  unfold Aisle.entered
  cases hc : x.crane.state with
  | busy | parking => exact hstop ▸ h
  | idle => cases x.crane.suspension <;> simp [Suspension.resumes]
  | stopped => cases x.crane.active <;> simp [Suspension.resumes, h]
  | stopping | faulted | outOfService => exact h

end

end Sys2Proof.Machine
end

section
/-! Zones that are shut, SECURED where they may be, and looked at (O43). -/
namespace Sys2Proof.Machine

section
variable {s t u w : State} {a b z : Nat} {l : List Nat} {x y : Aisle}

/-! ### What the Dispatcher's pass keeps -/

theorem Table.look_mapTo {α β : Type} (t : Table α) (f : α → β) (n : Nat) :
    Table.look (List.map (fun e => (e.1, f e.2)) t) n = (t.look n).map f := by
  induction t with
  | nil => rfl
  | cons e t ih =>
    by_cases h : e.1 = n
    · simp [Table.look, h]
    · simpa [Table.look, h] using ih

theorem Table.look_map_eq {α β : Type} {t u : Table α} (f : α → β)
    (h : (t.map fun e => (e.1, f e.2)) = u.map fun e => (e.1, f e.2)) (n : Nat) :
    (t.look n).map f = (u.look n).map f := by
  rw [← Table.look_mapTo, ← Table.look_mapTo, h]

theorem Dispatched.look_fixed (h : Dispatched s t) (hy : t.aisles.look a = some y) :
    ∃ x, s.aisles.look a = some x ∧ y.fixed = x.fixed := by
  have hl := Table.look_map_eq Aisle.fixed h.fixed a
  rw [hy, Option.map_some] at hl
  obtain ⟨x, hx, hf⟩ := Option.map_eq_some_iff.1 hl.symm
  exact ⟨x, hx, hf.symm⟩

theorem Aisle.geom_of_fixed (h : y.fixed = x.fixed) : y.geom = x.geom := congrArg Prod.fst h

/-- An aisle of a zone that is not NORMAL, after the passes at the end of a command. -/
theorem State.passes_look (hw : s.aisles.wf = true) (hx : s.aisles.look a = some x)
    (hz : s.mode = .inService → s.zoneState x.geom.zone ≠ some .normal)
    (hc : x.crane.state ≠ .idle ∧ x.crane.state ≠ .parking ∧ x.crane.state ≠ .busy) :
    s.withdrawAll.lookAll.aisles.look a = some x.unstaged := by
  have hw' : s.withdrawAll.aisles.wf = true := by
    rw [Table.wf_eq] at hw ⊢
    rw [(Flow.refl s).withdrawAll.aisleNumbers]
    exact hw
  obtain ⟨hi, hp, hb⟩ := hc
  rw [← x.unstaged_state] at hi hp hb
  exact State.lookAll_look hw' (State.withdrawAll_look hw hx hz) hi hp hb

/-! ### The zones of an entry, judged -/

/-- A zone that enters SHUTDOWN has a record. -/
theorem State.zoneState_isSome_of_mayShut (h : s.mayShut z = true) : (s.zoneState z).isSome = true := by
  unfold State.mayShut at h
  cases hz : s.zoneState z with
  | none => simp [hz] at h
  | some v => rfl

theorem State.steady_secured (h : s.steady = true) (hz : s.zoneState z = some .shutdown) :
    s.securedCondition z = false := by
  have hall := List.all_eq_true.1 (Bool.and_eq_true_iff.1 h).1 z (mem_numbers_of_zoneState hz)
  rw [hz] at hall
  simpa using hall

theorem State.steady_restored (h : s.steady = true) (hz : s.zoneState z = some .restoring) :
    s.restoredCondition z = false := by
  have hall := List.all_eq_true.1 (Bool.and_eq_true_iff.1 h).1 z (mem_numbers_of_zoneState hz)
  rw [hz] at hall
  simpa using hall

/-- Of a steady state, only the zones that have entered SHUTDOWN can become SECURED. -/
theorem Entered.securable (h : Entered w u l) (ht : w.tablesLawful = true) (hs : w.steady = true)
    (hl : ∀ z ∈ l, w.mayShut z = true) (z : Nat) : u.securable z = (decide (z ∈ l) && u.securedCondition z) := by
  unfold State.securable
  by_cases hz : z ∈ l
  · rw [h.zoneState_of_mem hz (State.zoneState_isSome_of_mayShut (hl z hz))]
    simp [hz]
  · rw [h.zoneState_of_not_mem hz, h.securedCondition ht hz]
    by_cases hc : w.zoneState z = some .shutdown
    · simp [State.steady_secured hs hc]
    · simp [hc, hz]

theorem Entered.noneRestored (h : Entered w u l) (ht : w.tablesLawful = true) (hs : w.steady = true)
    (hl : ∀ z ∈ l, w.mayShut z = true) (hz : u.zoneState z = some .restoring) : u.restoredCondition z = false := by
  by_cases hmem : z ∈ l
  · rw [h.zoneState_of_mem hmem (State.zoneState_isSome_of_mayShut (hl z hmem))] at hz
    cases hz
  · rw [h.restoredCondition ht hmem]
    rw [h.zoneState_of_not_mem hmem] at hz
    exact State.steady_restored hs hz

theorem Entered.noneResumes (h : Entered w u l) (hs : noneResumes w = true) : noneResumes u = true := by
  unfold Machine.noneResumes at hs ⊢
  rw [h.aisles_eq]
  refine Table.all_mapRecords _ _ _ hs fun n x hx => ?_
  dsimp only at hx ⊢
  rw [Bool.not_eq_true'] at hx ⊢
  split
  · exact x.entered_resumes _ hx
  · exact hx

/-- A zone report is URGENT: it changes the urgent queue and its mark alone. -/
theorem Link.post_zoneReport (k : Link) (t : Table ReportClass) (v : ZoneState) (z : Nat) :
    k.post (classOf t (zoneReport v z).kind) (zoneReport v z) =
      { k with
        urgent := (k.post (classOf t (zoneReport v z).kind) (zoneReport v z)).urgent
        urgentOverrun := (k.post (classOf t (zoneReport v z).kind) (zoneReport v z)).urgentOverrun } := by
  have hclass : classOf t (zoneReport v z).kind = .urgent := rfl
  rw [hclass, Link.post, Link.joinUrgent]
  split <;> rfl

theorem State.posted_zoneReports (s : State) {l : List Report} (hl : ∀ r ∈ l, ∃ v z, r = zoneReport v z) :
    (s.posted l).link =
      { s.link with urgent := (s.posted l).link.urgent, urgentOverrun := (s.posted l).link.urgentOverrun } := by
  induction l generalizing s with
  | nil => rfl
  | cons r l ih =>
    obtain ⟨v, z, rfl⟩ := hl r List.mem_cons_self
    have hfirst : (s.post (zoneReport v z)).link = { s.link with
        urgent := (s.post (zoneReport v z)).link.urgent
        urgentOverrun := (s.post (zoneReport v z)).link.urgentOverrun } := Link.post_zoneReport s.link s.classes v z
    have hwith : ∀ m b, ({ (s.post (zoneReport v z)).link with urgent := m, urgentOverrun := b } : Link) =
        { s.link with urgent := m, urgentOverrun := b } := fun m b => by rw [hfirst]
    exact (ih (s.post (zoneReport v z)) fun r hr => hl r (List.mem_cons_of_mem _ hr)).trans (hwith _ _)

theorem State.posted_zoneReports_field (s : State) {l : List Report} (hl : ∀ r ∈ l, ∃ v z, r = zoneReport v z) :
    (s.posted l).link.field = s.link.field := by rw [State.posted_zoneReports s hl]

/-- What was sent on the field link has no part in the queues of reports. -/
theorem State.posted_with_field {f : List Frame} (hl : t.link = { s.link with field := f }) (hc : t.classes = s.classes)
    (l : List Report) : (t.posted l).link = { (s.posted l).link with field := f } := by
  induction l generalizing s t with
  | nil => exact hl
  | cons r l ih =>
    refine ih (t := t.post r) (s := s.post r) ?_ hc
    rw [State.post, hl, hc, Link.post_with_field]
    rfl

/-! ### The state that the end of the command leaves -/

theorem State.zoneReports_map (v : ZoneState) (l : List Nat) : ∀ r ∈ l.map (zoneReport v), ∃ v z, r = zoneReport v z :=
  fun _ hr => by
    obtain ⟨z, -, rfl⟩ := List.mem_map.1 hr
    exact ⟨v, z, rfl⟩

theorem Entered.securedLine_eq (h : Entered w u l) : u.securedLine = securedLevel u.zones :=
  congrArg State.securedLine h.rest

/-- The zones that an entry lets become SECURED, in ascending number. -/
theorem Entered.filter_securable (h : Entered w u l) (ht : w.tablesLawful = true) (hs : w.steady = true)
    (hl : ∀ z ∈ l, w.mayShut z = true) (hord : w.zones.numbers.filter (fun z => decide (z ∈ l)) = l) :
    u.zones.numbers.filter u.securable = l.filter u.securedCondition := by
  have hnum : u.zones.numbers = w.zones.numbers := by rw [h.zones_eq, State.zonesShut, Table.numbers_mapRecords]
  calc u.zones.numbers.filter u.securable
      = w.zones.numbers.filter (fun z => u.securedCondition z && decide (z ∈ l)) := by
        rw [hnum]
        exact List.filter_congr fun z _ => by rw [h.securable ht hs hl, Bool.and_comm]
    _ = l.filter u.securedCondition := by rw [← List.filter_filter, hord]

/-- The state after the zones are judged. -/
theorem Entered.judged (h : Entered w u l) (ht : w.tablesLawful = true) (hs : w.steady = true)
    (hl : ∀ z ∈ l, w.mayShut z = true) (hord : w.zones.numbers.filter (fun z => decide (z ∈ l)) = l) :
    u.judgeZones =
      { u with
        zones := u.zonesSecured, securedLine := securedLevel u.zonesSecured
        link := (u.posted ((l.filter u.securedCondition).map (zoneReport .secured))).link } := by
  have huzo := ((tablesLawful_iff u).1 (h.tablesLawful ht)).2.2.1
  rw [State.judgeZones_eq huzo h.securedLine_eq fun z hz => h.noneRestored ht hs hl hz,
    h.filter_securable ht hs hl hord]

/-- The link after the zones are judged: the reports of the entries, then those of the zones that are SECURED. -/
theorem Entered.judged_link (h : Entered w u l) (ht : w.tablesLawful = true) (hs : w.steady = true)
    (hl : ∀ z ∈ l, w.mayShut z = true) (hord : w.zones.numbers.filter (fun z => decide (z ∈ l)) = l) :
    u.judgeZones.link =
      { (w.posted (l.map (zoneReport .shutdown) ++ (l.filter u.securedCondition).map (zoneReport .secured))).link with
        field := u.link.field } := by
  rw [h.judged ht hs hl hord, State.posted_append]
  refine State.posted_with_field (t := u) (s := w.posted (l.map (zoneReport .shutdown))) (f := u.link.field)
    (congrArg State.link h.rest) ?_ _
  have hclasses : u.classes = w.classes := by rw [h.rest]
  rw [State.posted_rest w]
  exact hclasses

/-- After the judging the Dispatcher alone acts. -/
theorem Entered.dispatched (h : Entered w u l) (ht : w.tablesLawful = true) (hs : w.steady = true)
    (hl : ∀ z ∈ l, w.mayShut z = true) (hord : w.zones.numbers.filter (fun z => decide (z ∈ l)) = l) :
    Dispatched u.judgeZones u.settleWing := by
  have hnone : Machine.noneResumes u.judgeZones = true := by
    rw [h.judged ht hs hl hord]
    exact h.noneResumes (noneResumes_of_steady hs)
  refine (Dispatched.withdrawAll _).trans (Dispatched.lookAll _ ?_)
  rw [noneResumes_of_fixed (Dispatched.withdrawAll _).fixed]
  exact hnone

/-- An aisle of a zone that has entered SHUTDOWN, at the end of the command. -/
theorem Entered.settled_look (h : Entered w u l) (ht : w.tablesLawful = true) (hs : w.steady = true)
    (hl : ∀ z ∈ l, w.mayShut z = true) (hord : w.zones.numbers.filter (fun z => decide (z ∈ l)) = l)
    (hx : w.aisles.look a = some x) (hz : x.geom.zone ∈ l) :
    u.settleWing.aisles.look a = some (x.shut w.settings.stop) := by
  have hjudged := h.judged ht hs hl hord
  have haisles : u.judgeZones.aisles = u.aisles := by rw [hjudged]
  have hux : u.judgeZones.aisles.look a = some (x.entered w.settings.stop) := by
    rw [haisles, h.aisles_eq, Table.look_mapRecords, hx, Option.map_some, if_pos hz]
  refine State.passes_look ?_ hux ?_ (x.entered_idles_not _)
  · rw [haisles]
    exact ((tablesLawful_iff u).1 (h.tablesLawful ht)).1
  · have hshut := h.zoneState_of_mem hz (State.zoneState_isSome_of_mayShut (hl _ hz))
    intro _
    rw [Aisle.entered_geom, hjudged]
    unfold State.zoneState State.zonesSecured at *
    rw [Table.look_mapRecords]
    cases hv : u.zones.look x.geom.zone with
    | none => simp
    | some v =>
      simp only [hv, Option.map_some, Option.some.injEq] at hshut ⊢
      unfold State.zoneJudged
      split <;> simp [hshut]

/-- The condition of R167 of a zone that has entered SHUTDOWN does not change in the passes. -/
theorem Entered.settled_condition (h : Entered w u l) (ht : w.tablesLawful = true) (hs : w.steady = true)
    (hl : ∀ z ∈ l, w.mayShut z = true) (hord : w.zones.numbers.filter (fun z => decide (z ∈ l)) = l) (hz : z ∈ l) :
    u.settleWing.securedCondition z = u.securedCondition z := by
  have hut := h.tablesLawful ht
  have htt : u.settleWing.tablesLawful = true := by rw [(Flow.refl u).settleWing.tables]; exact hut
  have hdis := h.dispatched ht hs hl hord
  have hjudged := h.judged ht hs hl hord
  have hshutters : u.settleWing.shutters = u.shutters := by rw [hdis.rest, hjudged]
  have hstate : ∀ x : Aisle, (x.shut w.settings.stop).crane.state = (x.entered w.settings.stop).crane.state := fun x =>
    Aisle.unstaged_state _
  have hgeom : ∀ x : Aisle, (x.shut w.settings.stop).geom = x.geom := fun x =>
    (Aisle.unstaged_geom _).trans (x.entered_geom _)
  rw [Bool.eq_iff_iff, State.securedCondition_iff hut, State.securedCondition_iff htt, hshutters]
  refine and_congr_right fun _ => ⟨fun hall a y hy hyz => ?_, fun hall a y hy hyz => ?_⟩
  · rw [h.aisles_eq, Table.look_mapRecords] at hy
    obtain ⟨x, hx, rfl⟩ := Option.map_eq_some_iff.1 hy
    have hxz : x.geom.zone = z := by
      rw [← hyz]
      split
      · rw [Aisle.entered_geom]
      · rfl
    rw [if_pos (hxz ▸ hz), ← hstate]
    exact hall a _ (h.settled_look ht hs hl hord hx (hxz ▸ hz)) ((congrArg Geometry.zone (hgeom x)).trans hxz)
  · obtain ⟨v, hv, hfixed⟩ := hdis.look_fixed hy
    have hvu : u.aisles.look a = some v := by
      rw [hjudged] at hv
      exact hv
    have hvz : v.geom.zone = z := by rw [← Aisle.geom_of_fixed hfixed, hyz]
    rw [h.aisles_eq, Table.look_mapRecords] at hvu
    obtain ⟨x, hx, he⟩ := Option.map_eq_some_iff.1 hvu
    have hxz : x.geom.zone = z := by
      rw [← hvz, ← he]
      split
      · rw [Aisle.entered_geom]
      · rfl
    have hyx := (h.settled_look ht hs hl hord hx (hxz ▸ hz)).symm.trans hy
    obtain rfl := Option.some.inj hyx
    rw [hstate]
    refine hall a _ ?_ ((congrArg Geometry.zone (x.entered_geom _)).trans hxz)
    rw [h.aisles_eq, Table.look_mapRecords, hx, Option.map_some, if_pos (hxz ▸ hz)]

/-- The zones that enter SHUTDOWN from a steady state, at the end of the command. -/
theorem Entered.shut (h : Entered w u l) (ht : w.tablesLawful = true) (hs : w.steady = true)
    (hl : ∀ z ∈ l, w.mayShut z = true) (hord : w.zones.numbers.filter (fun z => decide (z ∈ l)) = l) :
    Shut w u.settleWing l := by
  have hdis := h.dispatched ht hs hl hord
  have hjudged := h.judged ht hs hl hord
  have hcond : ∀ z ∈ l, u.settleWing.securedCondition z = u.securedCondition z := fun z =>
    h.settled_condition ht hs hl hord
  have hreports : l.filter u.settleWing.securedCondition = l.filter u.securedCondition := List.filter_congr hcond
  obtain ⟨m, hm, hms, hma, -⟩ := h.sent
  obtain ⟨m', hm'⟩ := hdis.sent
  have hlink := h.judged_link ht hs hl hord
  have hzones : u.settleWing.zones = u.zonesSecured := by rw [hdis.rest, hjudged]
  have hstations : u.settleWing.stations = u.stations := by rw [hdis.rest, hjudged]
  have hshutters : u.settleWing.shutters = u.shutters := by rw [hdis.rest, hjudged]
  have hurgent : u.settleWing.link.urgent = u.judgeZones.link.urgent := by rw [hdis.rest]
  have hoverrun : u.settleWing.link.urgentOverrun = u.judgeZones.link.urgentOverrun := by rw [hdis.rest]
  refine ⟨?_, ?_, ?_, fun a x hx hz => h.settled_look ht hs hl hord hx hz, fun a x hx hz => ?_, ?_, ?_, m ++ m', ?_,
    fun st x hx hz => ?_, fun a x d hx hz hd hst => ?_⟩
  · rw [hzones, hstations, hshutters, hurgent, hoverrun]
    refine hdis.rest.trans ?_
    have hposted := State.posted_zoneReports w (l := l.map (zoneReport .shutdown) ++
      (l.filter u.securedCondition).map (zoneReport .secured)) fun r hr => (List.mem_append.1 hr).elim
        (State.zoneReports_map _ _ r) (State.zoneReports_map _ _ r)
    rw [hlink, hposted, hjudged]
    generalize u.settleWing = t
    generalize u.zonesSecured = zs
    generalize w.posted _ = v
    rw [h.rest]
  · rw [hzones, State.zonesSecured, h.zones_eq, State.zonesShut, Table.mapRecords_mapRecords]
    refine Table.mapRecords_congr fun e _ => ?_
    rw [State.zoneJudged, h.securable ht hs hl]
    by_cases hz : e.1 ∈ l
    · rw [hcond _ hz]
      simp only [hz, decide_true, Bool.true_and, if_true]
      split <;> rfl
    · simp [hz]
  · rw [hurgent, hoverrun, hlink, hreports]
  · have hv : u.judgeZones.aisles.look a = some x := by
      rw [hjudged]
      exact (h.aisle_look hz rfl).2 hx
    have hfixed := Table.look_map_eq Aisle.fixed hdis.fixed a
    rw [hv, Option.map_some] at hfixed
    obtain ⟨y, hy, he⟩ := Option.map_eq_some_iff.1 hfixed
    refine ⟨y, hy, he, fun j hj => ?_⟩
    obtain ⟨y', hy', hj'⟩ := hdis.jobs a x j hv hj
    exact Option.some.inj (hy'.symm.trans hy) ▸ hj'
  · rw [hstations]
    exact h.stations_eq
  · rw [hshutters]
    exact h.shutters_eq
  · have hfield : u.judgeZones.link.field = u.link.field := by rw [hlink]
    rw [hm', hfield, hm, List.append_assoc]
  · obtain ⟨h1, h2⟩ := hms st x hx hz
    exact ⟨List.mem_append_left _ h1, List.mem_append_left _ h2⟩
  · exact List.mem_append_left _ (hma a x d hx hz hd hst)

end

end Sys2Proof.Machine
end

section
/-! Fire: the events that take zones to SHUTDOWN (O43). -/
namespace Sys2Proof.Machine

section
variable {s w : State} {a b z n d : Nat} {l : List Nat}

/-- What zones that enter SHUTDOWN leave at the end of the command. -/
theorem shuts_of_foldl (ht : w.tablesLawful = true) (hsec : w.securedLawful = true) (hl : l.Nodup)
    (hord : w.zones.numbers.filter (fun z => decide (z ∈ l.filter w.mayShut)) = l.filter w.mayShut) :
    (∃ u, Entered w u (l.filter w.mayShut) ∧ Settled u (l.foldl State.enterShutdown w).settleWing)
    ∧ (w.steady = true → Shut w (l.foldl State.enterShutdown w).settleWing (l.filter w.mayShut)) := by
  have h := entered_foldl ht hsec hl
  exact ⟨⟨_, h, settled_settleWing _⟩, fun hs => h.shut ht hs (fun z hz => (List.mem_filter.1 hz).2) hord⟩

theorem Table.filter_numbers_eq_singleton {α : Type} {t : Table α} (hw : t.wf = true) (hz : z ∈ t.numbers) :
    t.numbers.filter (fun y => decide (y ∈ [z])) = [z] := by
  have hnd := Table.nodup_numbers hw
  have h : t.numbers.filter (· == z) = [z] := by
    rw [List.filter_beq, List.count_eq_one_of_mem hnd hz, List.replicate_one]
  refine (List.filter_congr fun y _ => ?_).trans h
  simp [Bool.beq_eq_decide_eq]

/-- One zone enters SHUTDOWN, where it is in a state that lets it. -/
theorem shuts_of_zone (ht : w.tablesLawful = true) (hsec : w.securedLawful = true) (z : Nat) :
    (∃ u, Entered w u ([z].filter w.mayShut) ∧ Settled u (w.enterShutdown z).settleWing)
    ∧ (w.steady = true → Shut w (w.enterShutdown z).settleWing ([z].filter w.mayShut)) := by
  refine shuts_of_foldl (l := [z]) ht hsec (List.nodup_singleton z) ?_
  cases hm : w.mayShut z with
  | false => simp [hm]
  | true =>
    obtain ⟨v, hv⟩ := Option.isSome_iff_exists.1 (State.zoneState_isSome_of_mayShut hm)
    have hone : [z].filter w.mayShut = [z] := by simp [hm]
    rw [hone]
    exact Table.filter_numbers_eq_singleton ((tablesLawful_iff w).1 ht).2.2.1 (mem_numbers_of_zoneState hv)

/-- All zones enter SHUTDOWN that may (R153). -/
theorem shuts_of_all (ht : w.tablesLawful = true) (hsec : w.securedLawful = true) :
    (∃ u, Entered w u (w.zones.numbers.filter w.mayShut)
      ∧ Settled u (w.zones.numbers.foldl State.enterShutdown w).settleWing)
    ∧ (w.steady = true →
        Shut w (w.zones.numbers.foldl State.enterShutdown w).settleWing (w.zones.numbers.filter w.mayShut)) := by
  refine shuts_of_foldl ht hsec (Table.nodup_numbers ((tablesLawful_iff w).1 ht).2.2.1) (List.filter_congr fun z hz => ?_)
  simp [hz]

theorem State.filter_mayShut (s : State) (z : Nat) : [z].filter s.mayShut = if s.mayShut z then [z] else [] := by
  cases h : s.mayShut z <;> simp [h]

/-- The fire panel mark is ASSERTED, and FIRE_PANEL is posted (R153). -/
def State.alarmed (s : State) : State :=
  { s with firePanel := true }.post
    { kind := .firePanel, subject := .wing, order := none, code := some (.firePanel true) }

/-! ### A detector is heard -/

/-- The state after a detector's entry is set and the cause set of its zone re-formed (R145, R148). -/
def State.heard (s : State) (n d z : Nat) (v : Condition) : State := (s.setDetector n d v).formCauses z

theorem State.heard_zoneState (s : State) (n d z : Nat) (v : Condition) (y : Nat) :
    (s.heard n d z v).zoneState y = s.zoneState y := by
  simp only [State.heard, State.formCauses, State.zoneState, State.modZone, Table.look_adjust]
  split
  · next h =>
    subst h
    show Option.map _ (Option.map _ (s.zones.look y)) = _
    cases s.zones.look y <;> rfl
  · rfl

theorem State.heard_mayShut (s : State) (n d z : Nat) (v : Condition) : (s.heard n d z v).mayShut = s.mayShut :=
  funext fun y => by simp only [State.mayShut, State.heard_zoneState]

theorem State.heard_tables (s : State) (n d z : Nat) (v : Condition) (ht : s.tablesLawful = true) :
    (s.heard n d z v).tablesLawful = true := by
  rw [tablesLawful_iff] at ht ⊢
  simpa [State.heard, State.formCauses, State.setDetector, State.modZone, State.modConcentrator, Table.wf_adjust] using ht

theorem State.heard_secured (s : State) (n d z : Nat) (v : Condition) (hs : s.securedLawful = true) :
    (s.heard n d z v).securedLawful = true := by
  rw [securedLawful_iff] at hs ⊢
  exact hs.trans (securedLevel_adjust s.zones z
    (fun x => { x with causes := (s.setDetector n d v).causesOf z x.causes.start }) fun _ => rfl).symm

theorem State.heard_steady (s : State) (n d z : Nat) (v : Condition) (hs : s.steady = true) :
    (s.heard n d z v).steady = true := by
  have hnum : (s.heard n d z v).zones.numbers = s.zones.numbers := Table.numbers_adjust _ _ _
  unfold State.steady
  simp only [hnum, State.heard_zoneState]
  exact hs

/-- A fire in a zone, after a detector of it is heard (R146, R147). -/
theorem shuts_of_fire (ht : s.tablesLawful = true) (hsec : s.securedLawful = true) (n d z : Nat) (v : Condition) :
    (∃ u, Entered (s.heard n d z v) u ([z].filter s.mayShut) ∧ Settled u ((s.setDetector n d v).fireIn z))
    ∧ (s.steady = true → Shut (s.heard n d z v) ((s.setDetector n d v).fireIn z) ([z].filter s.mayShut)) := by
  have h := shuts_of_zone (s.heard_tables n d z v ht) (s.heard_secured n d z v hsec) z
  rw [State.heard_mayShut] at h
  exact ⟨h.1, fun hs => h.2 (s.heard_steady n d z v hs)⟩

theorem Table.mem_put_of_ne {α : Type} {t : Table α} {v : α} {e : Nat × α} (h : e ∈ t) (hne : e.1 ≠ n) :
    e ∈ t.put n v := by
  induction t with
  | nil => cases h
  | cons x t ih =>
    obtain ⟨k, w⟩ := x
    unfold Table.put
    split
    · exact List.mem_cons_of_mem _ h
    · split
      · next hk =>
        refine List.mem_cons_of_mem _ ((List.mem_cons.1 h).resolve_left fun he => hne ?_)
        rw [he, ← hk]
      · rcases List.mem_cons.1 h with he | he
        · exact he ▸ List.mem_cons_self
        · exact List.mem_cons_of_mem _ (ih he)

/-- Another detector of the zone is in PRE (R147). -/
theorem State.otherPre_of_other {c e : Concentrator} {m k : Nat} (hc : s.concentrators.look n = some c)
    (he : s.concentrators.look m = some e) (hz : e.zone = z) (hk : (k, Condition.pre) ∈ e.detectors)
    (hne : (m, k) ≠ (n, d)) : (s.setDetector n d .pre).otherPre z n d = true := by
  have hlook : ∃ e', (s.setDetector n d .pre).concentrators.look m = some e' ∧ e'.zone = z
      ∧ (k, Condition.pre) ∈ e'.detectors := by
    simp only [State.setDetector, State.modConcentrator, Table.look_adjust]
    by_cases hm : m = n
    · subst hm
      obtain rfl := Option.some.inj (hc.symm.trans he)
      have hkd : k ≠ d := fun h => hne (h ▸ rfl)
      exact ⟨{ c with detectors := c.detectors.put d .pre }, by simp [hc], hz, Table.mem_put_of_ne hk hkd⟩
    · exact ⟨e, by simpa [hm] using he, hz, hk⟩
  obtain ⟨e', he', hz', hk'⟩ := hlook
  simp only [State.otherPre, List.any_eq_true, Bool.and_eq_true, decide_eq_true_eq, Bool.not_eq_true', ← Bool.not_eq_true]
  exact ⟨(m, e'), Table.mem_of_look he', hz', (k, .pre), hk', rfl, fun h => hne (Prod.ext h.1 h.2)⟩

end

/-- SHUT_ZONE of a zone with a record (R154). -/
theorem exec_shutZone {s : State} {tag z : Nat} {x : Zone} (hw : s.receivesWork tag = true) (hz : within 1 8 z = true)
    (hx : s.zones.look z = some x) : exec (.shutZone tag z) s = .next (s.answer tag
      (match x.state with
      | .shutdown | .secured => .accept s .empty
      | .normal | .alert | .restoring => .accept (s.enterShutdown z).settleWing .empty)) := by
  have hst : s.zoneState z = some x.state := by simp [State.zoneState, hx]
  refine (order_work hw _ _ _).trans ?_
  simp only [hz, Bool.not_true, Bool.false_eq_true, if_false, hst]
  cases x.state <;> rfl

/-- Settles O43: each event as zones that enter SHUTDOWN, with `entered_foldl` and `Entered.shut`. -/
theorem fireShutsTheZone : Obligations.FireShutsTheZone := by
  intro s ht hsec
  refine ⟨fun src n d c had hc hd => ⟨⟨_, next_admission had _ _, ?_⟩, fun hfirst ⟨m, e, k, he, hez, hk, hne⟩ =>
      ⟨_, next_admission had _ _, ?_⟩⟩,
    fun tag z x hw hz hx => ⟨fun ho => ?_, fun ho => ?_⟩, fun hm => ?_, fun hm => ?_⟩
  · simp only [State.takeAlarm, State.withDetector, hc, hd, if_true]
    exact shuts_of_fire ht hsec n d c.zone .alarm
  · have htake : s.takePrealarm d n = (s.setDetector n d .pre).fireIn c.zone := by
      rcases hfirst with h | h <;>
        simp only [State.takePrealarm, State.withDetector, hc, hd, if_true, h, State.otherPre_of_other hc he hez hk hne]
    rw [htake]
    exact shuts_of_fire ht hsec n d c.zone .pre
  · have hshut : x.state = .shutdown ∨ x.state = .secured := by
      have hst : s.zoneState z = some x.state := by simp [State.zoneState, hx]
      change [z].filter s.mayShut = [] at ho
      simp only [State.filter_mayShut, State.mayShut, hst] at ho
      cases hv : x.state <;> simp [hv] at ho ⊢
    rw [exec_shutZone hw hz hx]
    rcases hshut with h | h <;> rw [h] <;> rfl
  · have hmay : s.mayShut z = true := by
      rw [← Bool.not_eq_false]
      intro hnot
      exact ho ((s.filter_mayShut z).trans (by rw [hnot]; rfl))
    have hone : [z].filter s.mayShut = [z] := by simp [hmay]
    have h := shuts_of_zone ht hsec z
    rw [hone] at h
    refine ⟨(s.enterShutdown z).settleWing, ?_, h⟩
    rw [exec_shutZone hw hz hx]
    have hst : s.zoneState z = some x.state := by simp [State.zoneState, hx]
    unfold State.mayShut at hmay
    rw [hst] at hmay
    cases hv : x.state with
    | normal | alert | restoring => rfl
    | shutdown | secured => simp [hv] at hmay
  · have hopens : (fun z => !([z].filter s.mayShut).isEmpty) = s.mayShut := funext fun z => by
      rw [State.filter_mayShut]
      cases s.mayShut z <;> rfl
    refine ⟨⟨(s.alarmed.zones.numbers.foldl State.enterShutdown s.alarmed).settleWing, ?_, ?_⟩, ?_⟩
    · exact congrArg Host.Outcome.next (if_pos (decide_eq_true hm))
    · have h := shuts_of_all (w := s.alarmed) ht hsec
      have hmay : s.alarmed.zones.numbers.filter s.alarmed.mayShut =
          s.zones.numbers.filter fun z => !([z].filter s.mayShut).isEmpty := by rw [hopens]; rfl
      have hsteady : s.alarmed.steady = s.steady := rfl
      rw [hmay, hsteady] at h
      exact h
    · exact congrArg Host.Outcome.next (if_pos (decide_eq_true hm))
  · constructor
    · show execFirePanelAsserted s = _
      simp [execFirePanelAsserted, State.isInService, State.setFirePanel, hm]
    · show execFirePanelNegated s = _
      simp [execFirePanelNegated, State.isInService, State.setFirePanel, hm]

end Sys2Proof.Machine
end

section
/-! The end of a command in which no job but a PARK can be taken: the close and the restart. -/
namespace Sys2Proof.Machine

section
variable {s t u w : State} {a b z : Nat} {l : List Nat} {x y : Aisle}

/-! ### A wing in which only a PARK is eligible -/

/-- No zone is NORMAL, or the mode is COMMISSIONING: only a PARK can be eligible (R61). -/
def State.parksOnly (s : State) : Prop := s.mode = .inService → ∀ z, s.zoneState z ≠ some .normal

theorem State.parksOnly.congr (h : s.parksOnly) (hm : t.mode = s.mode) (hz : t.zones = s.zones) : t.parksOnly := fun hi z => by
  unfold State.zoneState
  rw [hz]
  exact h (hm.symm.trans hi) z

theorem State.parksOnly.not_readies (h : s.parksOnly) (x : Aisle) (own : Nat) (j : Job) : ¬s.readies x own j :=
  fun ⟨_, hz, _, hm, _⟩ => h hm _ hz

theorem State.parksOnly.firstEligible (h : s.parksOnly) (x : Aisle) : s.firstEligible x = none :=
  State.firstEligible_eq_none.2 fun k _ => .inr (h.not_readies x 0 k)

theorem State.parksOnly.mayResume (h : s.parksOnly) (x : Aisle) (j : Job) : s.mayResume x j = false :=
  Bool.eq_false_iff.2 fun hr => by
    obtain ⟨hz, -, hm, -⟩ := State.mayResume_iff.1 hr
    exact h hm _ hz

theorem State.parksOnly.offerStage (h : s.parksOnly) (a : Nat) : s.offerStage a = s := by
  cases hx : s.aisles.look a with
  | none => rw [State.offerStage, hx]
  | some x => exact State.offerStage_of_none hx (h.firstEligible x)

/-- The Dispatcher has no part in the aisle but that of a PARKING crane. -/
theorem State.parksOnly.lookAisle (h : s.parksOnly) (a : Nat) : s.lookAisle a =
    if (s.aisles.look a).any fun x => decide (x.crane.state = .parking) then s.activatePark a else s := by
  unfold State.lookAisle
  cases hx : s.aisles.look a with
  | none => rfl
  | some x =>
    cases hc : x.crane.state with
    | idle =>
      cases hr : x.crane.suspension with
      | none => simp [State.activateNext_of_none hx (h.firstEligible x), h.offerStage, hc, hr]
      | some r => simp [State.resume_of_not hx hr (.inr (h.mayResume x r.job)), h.offerStage, hc, hr]
    | busy => simp [h.offerStage, hc]
    | parking | stopping | stopped | faulted | outOfService => simp [hc]

theorem State.activatePark_bins (s : State) (a : Nat) : (s.activatePark a).bins = s.bins := by
  unfold State.activatePark
  split
  · rfl
  · split
    · rfl
    · split
      · rw [State.sendCrane, State.send]
        rfl
      · rfl

/-- In such a wing the Dispatcher's looks leave the bins. -/
theorem State.parksOnly.lookAll_bins (h : s.parksOnly) : s.lookAll.bins = s.bins := by
  have key := foldl_induct (step := State.lookAisle) (l := s.aisles.numbers) (s := s)
    (fun _ u => u.mode = s.mode ∧ u.zones = s.zones ∧ u.bins = s.bins) ⟨rfl, rfl, rfl⟩
    (fun done b rest u _ ⟨hm, hz, hb⟩ => ?_)
  · exact key.2.2
  · have hp := Passes.lookAisle u b
    refine ⟨hp.mode.trans hm, hp.zones.trans hz, ?_⟩
    rw [(h.congr hm hz).lookAisle]
    split
    · exact (u.activatePark_bins b).trans hb
    · exact hb

/-- The passes of the Dispatcher in such a wing: aisles change, and telegrams are sent. -/
theorem State.parksOnly.passes (h : s.parksOnly) : s.withdrawAll.lookAll =
    { s with
      aisles := s.withdrawAll.lookAll.aisles
      link := { s.link with field := s.withdrawAll.lookAll.link.field } } := by
  have hw := (Dispatched.withdrawAll s).rest
  have hp := (Passes.lookAll s.withdrawAll).rest
  have hq : s.withdrawAll.parksOnly := h.congr (by rw [hw]) (by rw [hw])
  rw [hq.lookAll_bins] at hp
  refine hp.trans ?_
  generalize s.withdrawAll.lookAll = t
  rw [hw]

/-- The passes come to an aisle with its staged job withdrawn. -/
theorem State.parksOnly.passes_at (h : s.parksOnly) (hw : s.aisles.wf = true) (hx : s.aisles.look a = some x) :
    ∃ u, Passes (fun _ => False) s u ∧ u.parksOnly ∧ u.aisles.look a = some x.unstaged
      ∧ Passes (· = a) (u.lookAisle a) s.withdrawAll.lookAll := by
  have hwithdrawn := State.withdrawAll_look hw hx fun hm => h hm _
  have hwf : s.withdrawAll.aisles.wf = true := by
    rw [Table.wf_eq] at hw ⊢
    rw [(Flow.refl s).withdrawAll.aisleNumbers]
    exact hw
  obtain ⟨u, hu, hafter⟩ := Passes.foldl_at Passes.lookAisle (Table.nodup_numbers hwf)
    (Table.mem_numbers_of_look hwithdrawn) s.withdrawAll
  have hsu := (Passes.withdrawAll s).trans (hu.mono fun _ hf => hf.elim)
  exact ⟨u, hsu, h.congr hsu.mode hsu.zones, (hu.others a rfl).trans hwithdrawn, hafter⟩

/-- An aisle whose crane is not PARKING, after the passes. -/
theorem State.parksOnly.passes_look (h : s.parksOnly) (hw : s.aisles.wf = true) (hx : s.aisles.look a = some x)
    (hc : x.crane.state ≠ .parking) : s.withdrawAll.lookAll.aisles.look a = some x.unstaged := by
  obtain ⟨u, -, hq, hux, hafter⟩ := h.passes_at hw hx
  refine (hafter.others a rfl).trans ?_
  rw [hq.lookAisle, hux]
  simp [Aisle.unstaged_state, hc, hux]

/-- An aisle whose crane is PARKING, after the passes: its PARK may have become active. -/
theorem State.parksOnly.passes_park (h : s.parksOnly) (hw : s.aisles.wf = true) (hx : s.aisles.look a = some x)
    (hc : x.crane.state = .parking) : ∃ u, Passes (fun _ => False) s u ∧ u.aisles.look a = some x.unstaged
      ∧ Passes (· = a) (u.activatePark a) s.withdrawAll.lookAll := by
  obtain ⟨u, hu, hq, hux, hafter⟩ := h.passes_at hw hx
  rw [hq.lookAisle, hux] at hafter
  simp only [Option.any_some, Aisle.unstaged_state, hc, decide_true, if_true] at hafter
  exact ⟨u, hu, hux, hafter⟩

theorem Aisle.fixed_unstaged (x : Aisle) : x.unstaged.fixed = x.fixed := by
  unfold Aisle.unstaged
  cases x.crane.staged <;> rfl

theorem State.activatePark_look (hx : s.aisles.look a = some x) :
    ∃ y, (s.activatePark a).aisles.look a = some y ∧ y.fixed = x.fixed ∧ y.crane.state = x.crane.state := by
  by_cases h : x.crane.active ≠ none ∨ s.parkEligible x = false ∨ ∀ j ∈ x.queue, j.kind ≠ .park
  · rw [State.activatePark_of_not hx h]
    exact ⟨x, hx, rfl, rfl⟩
  · simp only [State.activatePark, hx]
    split
    · exact ⟨x, hx, rfl, rfl⟩
    · split
      · rw [State.dequeue_modCrane hx rfl, State.sendCrane, State.send]
        refine ⟨_, (Table.look_adjust _ _ _ _).trans ((if_pos rfl).trans (congrArg _ hx)), rfl, rfl⟩
      · exact ⟨x, hx, rfl, rfl⟩

/-- What the passes keep of every aisle. -/
theorem State.parksOnly.passes_keeps (h : s.parksOnly) (hw : s.aisles.wf = true) (hx : s.aisles.look a = some x) :
    ∃ y, s.withdrawAll.lookAll.aisles.look a = some y ∧ y.fixed = x.fixed ∧ y.crane.state = x.crane.state := by
  by_cases hc : x.crane.state = .parking
  · obtain ⟨u, -, hux, hafter⟩ := h.passes_park hw hx hc
    obtain ⟨y, hy, hf, hst⟩ := State.activatePark_look hux
    exact ⟨y, (hafter.others a rfl).trans hy, hf.trans x.fixed_unstaged, hst.trans x.unstaged_state⟩
  · exact ⟨_, h.passes_look hw hx hc, x.fixed_unstaged, x.unstaged_state⟩

/-- The condition of R167 does not change in the passes. -/
theorem State.parksOnly.passes_condition (h : s.parksOnly) (ht : s.tablesLawful = true) (z : Nat) :
    s.withdrawAll.lookAll.securedCondition z = s.securedCondition z := by
  obtain ⟨hai, -⟩ := (tablesLawful_iff s).1 ht
  have hflow : Flow s s.withdrawAll.lookAll := (Flow.refl s).withdrawAll.lookAll
  have hshutters : s.withdrawAll.lookAll.shutters = s.shutters := by rw [h.passes]
  rw [Bool.eq_iff_iff, State.securedCondition_iff (hflow.tables.trans ht), State.securedCondition_iff ht, hshutters]
  refine and_congr_right fun _ => ⟨fun hall a x hx hz => ?_, fun hall a y hy hz => ?_⟩
  · obtain ⟨y, hy, hf, hst⟩ := h.passes_keeps hai hx
    exact hst ▸ hall a y hy ((congrArg Geometry.zone (Aisle.geom_of_fixed hf)).trans hz)
  · have hmem : a ∈ s.aisles.numbers := hflow.aisleNumbers ▸ Table.mem_numbers_of_look hy
    obtain ⟨x, hx⟩ := Option.isSome_iff_exists.1 (Table.look_isSome_of_mem hmem)
    obtain ⟨y', hy', hf, hst⟩ := h.passes_keeps hai hx
    obtain rfl := Option.some.inj (hy'.symm.trans hy)
    exact hst ▸ hall a x hx ((congrArg Geometry.zone (Aisle.geom_of_fixed hf)).symm.trans hz)

/-- A crane that is PARKING without a job takes the PARK at the end of its queue (R77). -/
theorem State.parksOnly.passes_activates (h : s.parksOnly) (hw : s.aisles.wf = true) (hx : s.aisles.look a = some x)
    (hc : x.crane.state = .parking) (hactive : x.crane.active = none) (hstaged : x.crane.staged = none) {q : List Job}
    {k : Nat} (hq : x.queue = q ++ [parkJob k]) (hnone : ∀ j ∈ q, j.kind ≠ .park) (hp : s.parkEligible x = true) :
    s.withdrawAll.lookAll.aisles.look a = some
      { x with
        queue := q
        crane := { x.crane with
          phase := some .toDest, active := some (parkJob k), retryIndex := 0
          deadline := some
            { left := deadlineFor x.geom (leg x.geom (positionPoint x.geom x.crane.position) frontPort)
              running := true } } }
    ∧ ∃ l m, s.withdrawAll.lookAll.link.field =
        s.link.field ++ (l ++ ((s.craneAddress a).map fun d => fieldFrame d (.park k)).toList ++ m) := by
  obtain ⟨u, hu, hux, hafter⟩ := h.passes_park hw hx hc
  have hself : x.unstaged = x := by rw [Aisle.unstaged, hstaged]
  rw [hself] at hux
  have hpu : u.parkEligible x = true := by rw [hu.rest]; exact hp
  have hact := State.activatePark_of_first hux hactive hpu (before := q) (after := []) hq rfl hnone
  have haddress : u.craneAddress a = s.craneAddress a := by rw [hu.rest]; rfl
  obtain ⟨l, hl⟩ := hu.sent
  obtain ⟨m, hm⟩ := hafter.sent
  refine ⟨(hafter.others a rfl).trans ?_, l, m, ?_⟩
  · rw [hact]
    simp [hux]
  · rw [hm, hact, Link.sendTo_eq, haddress]
    simp only [hl, List.append_assoc]
    rfl

/-! ### The entry actions of every zone in SHUTDOWN -/

/-- The zones in SHUTDOWN, in ascending number. -/
def State.shutZones (s : State) : List Nat := s.zones.numbers.filter fun z => decide (s.zoneState z = some .shutdown)

theorem State.mem_shutZones : z ∈ s.shutZones ↔ s.zoneState z = some .shutdown := by
  rw [State.shutZones, List.mem_filter, decide_eq_true_eq]
  exact ⟨And.right, fun h => ⟨mem_numbers_of_zoneState h, h⟩⟩

/-- The entry actions, zone by zone, on those in SHUTDOWN. -/
theorem acted_foldl (ht : s.tablesLawful = true) {step : State → Nat → State}
    (hstep : ∀ u z, step u z = if u.zoneState z = some .shutdown then u.entryActions z else u) :
    Acted s (s.zones.numbers.foldl step s) s.shutZones
    ∧ s.zones.numbers.foldl step s =
      { s with
        aisles := (s.zones.numbers.foldl step s).aisles, stations := (s.zones.numbers.foldl step s).stations
        shutters := (s.zones.numbers.foldl step s).shutters
        link := { s.link with field := (s.zones.numbers.foldl step s).link.field } } := by
  obtain ⟨hai, hst, hzo, -, hsh, -⟩ := (tablesLawful_iff s).1 ht
  refine foldl_induct (step := step) (l := s.zones.numbers) (s := s)
    (fun done u => Acted s u (done.filter fun z => decide (s.zoneState z = some .shutdown)) ∧ u = { s with
      aisles := u.aisles, stations := u.stations, shutters := u.shutters
      link := { s.link with field := u.link.field } })
    ⟨.refl s, rfl⟩ (fun done z rest u hdone ⟨hacted, hu⟩ => ?_)
  have hz := not_mem_of_split (Table.nodup_numbers hzo) hdone
  have hstate : u.zoneState z = s.zoneState z := by rw [hu]; rfl
  rw [hstep, hstate, List.filter_append]
  by_cases hs : s.zoneState z = some .shutdown
  · have hone : [z].filter (fun z => decide (s.zoneState z = some .shutdown)) = [z] := by simp [hs]
    have hrest := State.entryActions_rest (u := u) (by rw [hacted.aisles, Table.wf_mapRecords]; exact hai)
      (by rw [hacted.stations, Table.wf_mapRecords]; exact hst)
      (by rw [hacted.shutters, Table.wf_mapRecords]; exact hsh) z
    rw [if_pos hs, hone]
    refine ⟨hacted.entryActions ht fun h => hz (List.mem_filter.1 h).1, hrest.trans ?_⟩
    generalize u.entryActions z = v
    rw [hu]
  · simpa [hs] using ⟨hacted, hu⟩

end

end Sys2Proof.Machine
end

section
/-! An accepted CLOSE_COMMISSIONING sets up zones, concentrators and cranes (O32). -/
namespace Sys2Proof.Machine

section
variable {s t u w : State} {a b z k : Nat} {l : List Nat} {x y : Aisle}

theorem State.causesOf_congr (h : t.concentrators = s.concentrators) : t.causesOf = s.causesOf := by
  unfold State.causesOf State.zoneConcentrators
  rw [h]

/-! ### The zones (R156) -/

/-- The state in which the close begins a zone (R156). -/
def State.begins (s : State) : ZoneState := if s.firePanel then .shutdown else .alert

/-- A zone at the close (R156). -/
def State.zoneBegun (s : State) (z : Nat) (x : Zone) : Zone :=
  { x with causes := s.causesOf z true, windowLeft := if s.firePanel then none else some x.window, state := s.begins }

/-- The state after the zones are begun. -/
def State.zonesBegun (s : State) : State :=
  { s with
    zones := s.zones.mapRecords s.zoneBegun
    securedLine := securedLevel (s.zones.mapRecords s.zoneBegun)
    link := (s.posted (s.zones.numbers.map (zoneReport s.begins))).link }

theorem State.commissionZones_eq (hw : s.zones.wf = true) (hsec : s.securedLine = securedLevel s.zones) :
    s.zones.numbers.foldl State.commissionZone s = s.zonesBegun := by
  have key := foldl_induct (step := State.commissionZone) (l := s.zones.numbers) (s := s)
    (fun done u => u = { s with
      zones := s.zones.mapRecords fun z x => if z ∈ done then s.zoneBegun z x else x
      securedLine := securedLevel (s.zones.mapRecords fun z x => if z ∈ done then s.zoneBegun z x else x)
      link := (s.posted (done.map (zoneReport s.begins))).link })
    (by simp [Table.mapRecords_eq_self, ← hsec, State.posted])
    (fun done z rest u hl hu => ?_)
  · refine key.trans ?_
    rw [Table.mapRecords_numbers (t := s.zones) s.zoneBegun]
    rfl
  · have hz := not_mem_of_split (Table.nodup_numbers hw) hl
    have hturn : u.commissionZone z = { u with
        zones := u.zones.adjust z (s.zoneBegun z)
        securedLine := securedLevel (u.zones.adjust z (s.zoneBegun z))
        link := (u.post (zoneReport s.begins z)).link } := by
      have hc : u.causesOf = s.causesOf := State.causesOf_congr (by rw [hu])
      have hf : u.firePanel = s.firePanel := by rw [hu]
      simp only [State.commissionZone, State.setZoneState, State.turnZone, State.modZone, State.judgeSecuredLine,
        Table.adjust_adjust, hc, hf]
      rfl
    rw [hturn]
    have hzones : u.zones.adjust z (s.zoneBegun z) =
        s.zones.mapRecords fun n x => if n ∈ done ++ [z] then s.zoneBegun n x else x := by
      rw [hu]
      exact Table.adjust_passed hw s.zoneBegun hz
    rw [hzones, hu]
    simp only [List.map_append, List.map_cons, List.map_nil, State.posted_append]
    rfl

theorem State.zonesBegun_zoneState (h : (s.zones.look z).isSome = true) : s.zonesBegun.zoneState z = some s.begins := by
  obtain ⟨x, hx⟩ := Option.isSome_iff_exists.1 h
  simp [State.zoneState, State.zonesBegun, hx, State.zoneBegun]

/-! ### The cranes (R60) -/

/-- An aisle IN_SERVICE at the close (R60): its crane STOPPED in a zone in SHUTDOWN, parked afresh otherwise. -/
def Aisle.begun (shut : Bool) (k : Nat) (x : Aisle) : Aisle :=
  if shut then { x with crane := { x.crane with position := none, state := .stopped } }
  else ({ x with crane := { x.crane with position := none } } : Aisle).parked k

theorem State.commissionCrane_of_not (hx : s.aisles.look a = some x) (hs : x.service ≠ .inService) :
    s.commissionCrane a = s := by
  simp only [State.commissionCrane, hx, ne_eq, hs, not_false_eq_true, if_true]

theorem State.commissionCrane_of_shut (hx : s.aisles.look a = some x) (hs : x.service = .inService)
    (hz : s.zoneState x.geom.zone = some .shutdown) : s.commissionCrane a =
      { s with
        aisles := s.aisles.adjust a (Aisle.begun true 0)
        link := s.link.sendTo (s.craneAddress a) .stop } := by
  simp only [State.commissionCrane, hx, hs, ne_eq, not_true_eq_false, if_false, hz, State.modCrane, Table.adjust_adjust]
  rfl

theorem State.commissionCrane_of_open (hx : s.aisles.look a = some x) (hs : x.service = .inService)
    (hz : s.zoneState x.geom.zone ≠ some .shutdown) : s.commissionCrane a =
      { s with aisles := s.aisles.adjust a (Aisle.begun false s.jobTag), nextJob := tagAfter s.jobTag } := by
  have htag : (s.modCrane a fun c => { c with position := none }).jobTag = s.jobTag :=
    State.jobTag_modCrane a fun _ => ⟨rfl, rfl, rfl⟩
  have hpark : s.commissionCrane a = (s.modCrane a fun c => { c with position := none }).createPark a := by
    simp only [State.commissionCrane, hx, hs, ne_eq, not_true_eq_false, if_false]
  rw [hpark, State.createPark_eq, htag]
  simp only [State.modCrane, Table.adjust_adjust]
  rfl

/-- `u` is `s` after the cranes of some aisles have been set: aisles, the next job tag and what was sent may differ. -/
def SetCranes (s u : State) : Prop :=
  u = { s with aisles := u.aisles, nextJob := u.nextJob, link := { s.link with field := u.link.field } }

/-- The cranes are set aisle by aisle: `R` relates an aisle to what it becomes, `F` is what is sent to its crane. -/
theorem foldl_cranes (hw : s.aisles.wf = true) {step : State → Nat → State} {R : Aisle → Aisle → Prop}
    {F : Nat → Aisle → List Frame}
    (hstep : ∀ u a x, SetCranes s u → s.aisles.look a = some x → u.aisles.look a = some x → ∃ y n, R x y ∧ step u a =
      { u with
        aisles := u.aisles.adjust a fun _ => y
        nextJob := n
        link := { u.link with field := u.link.field ++ F a x } }) :
    SetCranes s (s.aisles.numbers.foldl step s)
    ∧ (s.aisles.numbers.foldl step s).aisles.numbers = s.aisles.numbers
    ∧ (∀ a x, s.aisles.look a = some x → ∃ y, (s.aisles.numbers.foldl step s).aisles.look a = some y ∧ R x y)
    ∧ ∃ m, (s.aisles.numbers.foldl step s).link.field = s.link.field ++ m
      ∧ ∀ a x, s.aisles.look a = some x → ∀ f ∈ F a x, f ∈ m := by
  have key := foldl_induct (step := step) (l := s.aisles.numbers) (s := s)
    (fun done u => SetCranes s u ∧ u.aisles.numbers = s.aisles.numbers
      ∧ (∀ a x, s.aisles.look a = some x → if a ∈ done then ∃ y, u.aisles.look a = some y ∧ R x y else u.aisles.look a = some x)
      ∧ ∃ m, u.link.field = s.link.field ++ m ∧ ∀ a ∈ done, ∀ x, s.aisles.look a = some x → ∀ f ∈ F a x, f ∈ m)
    ⟨rfl, rfl, fun a x hx => by simpa using hx, [], by simp, by simp⟩
    (fun done a rest u hl ⟨hset, hnum, hai, m, hm, hsent⟩ => ?_)
  · obtain ⟨hset, hnum, hai, m, hm, hsent⟩ := key
    refine ⟨hset, hnum, fun a x hx => ?_, m, hm, fun a x hx => hsent a (Table.mem_numbers_of_look hx) x hx⟩
    simpa [Table.mem_numbers_of_look hx] using hai a x hx
  · have hnot := not_mem_of_split (Table.nodup_numbers hw) hl
    obtain ⟨x, hx⟩ := Option.isSome_iff_exists.1 (Table.look_isSome_of_mem
      (hl ▸ List.mem_append_right _ List.mem_cons_self : a ∈ s.aisles.numbers))
    have hux : u.aisles.look a = some x := by simpa [hnot] using hai a x hx
    obtain ⟨y, n, hR, hturn⟩ := hstep u a x hset hx hux
    refine ⟨?_, ?_, fun b w hb => ?_, m ++ F a x, ?_, fun b hb w hw f hf => ?_⟩
    · rw [hturn]
      unfold SetCranes at hset ⊢
      rw [hset]
    · rw [hturn]
      exact (Table.numbers_adjust _ _ _).trans hnum
    · have hb' := hai b w hb
      rw [hturn]
      simp only [Table.look_adjust]
      by_cases hab : b = a
      · subst hab
        obtain rfl := Option.some.inj (hx.symm.trans hb)
        simpa [hux] using hR
      · simpa [hab] using hb'
    · rw [hturn]
      simp only [hm, List.append_assoc]
    · rcases List.mem_append.1 hb with hb | hb
      · exact List.mem_append_left _ (hsent b hb w hw f hf)
      · obtain rfl := List.mem_singleton.1 hb
        obtain rfl := Option.some.inj (hx.symm.trans hw)
        exact List.mem_append_right _ hf

/-- What the close makes of an aisle (R60). -/
def Aisle.Begins (shut : Bool) (x y : Aisle) : Prop :=
  (x.service ≠ .inService ∧ y = x) ∨ (x.service = .inService ∧ ∃ k, y = x.begun shut k)

/-- STOP to a crane of an aisle IN_SERVICE, where its zone begins in SHUTDOWN (R60). -/
def State.beginFrames (s : State) (shut : Bool) (a : Nat) (x : Aisle) : List Frame :=
  if x.service = .inService ∧ shut = true then ((s.craneAddress a).map fun d => fieldFrame d .stop).toList else []

theorem State.commissionCrane_spec {shut : Bool} (hu : SetCranes s u) (hx : u.aisles.look a = some x)
    (hz : decide (s.zoneState x.geom.zone = some .shutdown) = shut) : ∃ y n, x.Begins shut y ∧ u.commissionCrane a =
      { u with
        aisles := u.aisles.adjust a fun _ => y
        nextJob := n
        link := { u.link with field := u.link.field ++ s.beginFrames shut a x } } := by
  have hzone : u.zoneState x.geom.zone = s.zoneState x.geom.zone := by rw [hu]; rfl
  have haddress : u.craneAddress a = s.craneAddress a := by rw [hu]; rfl
  have hrec : ∀ f : Aisle → Aisle, u.aisles.adjust a f = u.aisles.adjust a fun _ => f x := fun f =>
    Table.adjust_congr fun y hy => by rw [← Option.some.inj (hx.symm.trans hy)]
  by_cases hs : x.service = .inService
  · cases shut with
    | true =>
      refine ⟨x.begun true 0, u.nextJob, .inr ⟨hs, 0, rfl⟩, ?_⟩
      rw [State.commissionCrane_of_shut hx hs (hzone.trans (of_decide_eq_true hz)), hrec, haddress, Link.sendTo_eq]
      simp [State.beginFrames, hs]
    | false =>
      refine ⟨x.begun false u.jobTag, tagAfter u.jobTag, .inr ⟨hs, _, rfl⟩, ?_⟩
      rw [State.commissionCrane_of_open hx hs (hzone ▸ of_decide_eq_false hz), hrec]
      simp [State.beginFrames]
  · refine ⟨x, u.nextJob, .inl ⟨hs, rfl⟩, ?_⟩
    rw [State.commissionCrane_of_not hx hs, Table.adjust_eq_self_of_look fun y hy => Option.some.inj (hx.symm.trans hy)]
    simp [State.beginFrames, hs]

end

end Sys2Proof.Machine
end

section
/-! An accepted CLOSE_COMMISSIONING, put together (O32). -/
namespace Sys2Proof.Machine

section
variable {s t u w : State} {a b z k : Nat} {l : List Nat} {x y : Aisle}

/-- The mode is IN_SERVICE and the concentrators begin UNHEARD (R156). -/
def State.opened (s : State) : State :=
  { s with mode := .inService, concentrators := s.concentrators.mapRecords fun _ c => c.commission }

theorem State.zonesBegun_link (s : State) : s.zonesBegun.link =
    { s.link with urgent := s.zonesBegun.link.urgent, urgentOverrun := s.zonesBegun.link.urgentOverrun } :=
  State.posted_zoneReports s (State.zoneReports_map s.begins s.zones.numbers)

/-- The close, after its zones and cranes are set. -/
def State.cranesBegun (s : State) : State :=
  s.opened.zonesBegun.aisles.numbers.foldl State.commissionCrane s.opened.zonesBegun

/-- The close, after its entry actions. -/
def State.entriesMade (s : State) : State :=
  s.cranesBegun.zones.numbers.foldl State.commissionEntry s.cranesBegun

theorem State.commission_eq (ht : s.tablesLawful = true) (hsec : s.securedLawful = true) :
    s.commission = s.entriesMade.settleWing := by
  obtain ⟨-, -, hzo, -⟩ := (tablesLawful_iff s).1 ht
  have hz := State.commissionZones_eq (s := s.opened) hzo ((securedLawful_iff s).1 hsec)
  exact congrArg (fun u : State => ((u.aisles.numbers.foldl State.commissionCrane u).zones.numbers.foldl
    State.commissionEntry (u.aisles.numbers.foldl State.commissionCrane u)).settleWing) hz

theorem Aisle.Begins.geom {shut : Bool} (h : x.Begins shut y) : y.geom = x.geom := by
  rcases h with ⟨-, rfl⟩ | ⟨-, k, rfl⟩
  · rfl
  · cases shut <;> rfl

/-- What the close makes of zones and cranes, before the zones are judged. -/
structure Begun (s u : State) : Prop where
  rest : u = { s.opened.zonesBegun with
    aisles := u.aisles, stations := u.stations, shutters := u.shutters, nextJob := u.nextJob
    link := { s.opened.zonesBegun.link with field := u.link.field } }
  tables : u.tablesLawful = true
  aisles : ∀ a x, s.aisles.look a = some x → ∃ y, x.Begins s.firePanel y
    ∧ u.aisles.look a = some (if s.firePanel then y.entered s.settings.stop else y)
  stations : u.stations = s.stations.mapRecords fun _ x => if s.firePanel then x.paused else x
  shutters : u.shutters = s.shutters.mapRecords fun n h =>
    if s.firePanel then h.shut (s.mouthOccupiedAt n) s.settings.shutter else h
  sent : ∃ m, u.link.field = s.link.field ++ m ∧ ∀ a x, s.aisles.look a = some x →
    ∀ f ∈ s.beginFrames s.firePanel a x, f ∈ m

theorem State.entriesMade_spec (ht : s.tablesLawful = true) (hg : s.zonesGood = true) : Begun s s.entriesMade := by
  obtain ⟨hai, hst, hzo, hco, hsh, -⟩ := (tablesLawful_iff s).1 ht
  obtain ⟨hga, hgs, -, hgh⟩ := (State.zonesGood_iff ht).1 hg
  have hzone : ∀ z, (s.zones.look z).isSome = true → decide (s.opened.zonesBegun.zoneState z = some .shutdown) = s.firePanel :=
    fun z hz => by
      rw [State.zonesBegun_zoneState (s := s.opened) hz, State.begins]
      show decide (some (if s.firePanel = true then ZoneState.shutdown else .alert) = some .shutdown) = s.firePanel
      cases s.firePanel <;> simp
  obtain ⟨hset, hnum, hcranes, m, hm, hsent⟩ := foldl_cranes (s := s.opened.zonesBegun) (step := State.commissionCrane)
    (R := Aisle.Begins s.firePanel) (F := s.opened.zonesBegun.beginFrames s.firePanel) hai
    fun u a x hu hx hux => State.commissionCrane_spec hu hux (hzone _ (hga a x hx))
  have hbegun : s.opened.zonesBegun.tablesLawful = true := by
    rw [tablesLawful_iff] at ht ⊢
    simpa [State.opened, State.zonesBegun, Table.wf_mapRecords] using ht
  have hflow : Flow s.opened.zonesBegun s.cranesBegun := (Flow.refl _).foldl _ _ fun _ a h => h.commissionCrane a
  have htc := hflow.tables.trans hbegun
  have hflow' : Flow s.cranesBegun s.entriesMade := (Flow.refl _).foldl _ _ fun _ z h => h.commissionEntry z
  obtain ⟨hacted, hrest⟩ := acted_foldl (s := s.cranesBegun) htc (step := State.commissionEntry) fun _ _ => rfl
  have hset : SetCranes s.opened.zonesBegun s.cranesBegun := hset
  have hrest : s.entriesMade = { s.cranesBegun with
      aisles := s.entriesMade.aisles, stations := s.entriesMade.stations, shutters := s.entriesMade.shutters
      link := { s.cranesBegun.link with field := s.entriesMade.link.field } } := hrest
  have hacted : Acted s.cranesBegun s.entriesMade s.cranesBegun.shutZones := hacted
  have hshut : ∀ z, (s.zones.look z).isSome = true → (z ∈ s.cranesBegun.shutZones ↔ s.firePanel = true) := fun z hz => by
    have hst : s.cranesBegun.zoneState z = s.opened.zonesBegun.zoneState z := by rw [hset]; rfl
    rw [State.mem_shutZones, ← hzone z hz, decide_eq_true_eq, hst]
  have hsettings : s.cranesBegun.settings = s.settings := by rw [hset]; rfl
  have hstations : s.cranesBegun.stations = s.stations := by rw [hset]; rfl
  have hshutters : s.cranesBegun.shutters = s.shutters := by rw [hset]; rfl
  have hmouth : s.cranesBegun.mouthOccupiedAt = s.mouthOccupiedAt := by rw [hset]; rfl
  obtain ⟨m', hm', -⟩ := hacted.sent
  refine ⟨?_, hflow'.tables.trans htc, fun a x hx => ?_, ?_, ?_, m ++ m', ?_, fun a x hx f hf => ?_⟩
  · have hnext : s.entriesMade.nextJob = s.cranesBegun.nextJob := by rw [hrest]
    rw [hnext]
    refine hrest.trans ?_
    generalize s.entriesMade = v
    unfold SetCranes at hset
    rw [hset]
  · obtain ⟨y, hy, hR⟩ := hcranes a x hx
    refine ⟨y, hR, ?_⟩
    rw [hacted.aisles, Table.look_mapRecords, show s.cranesBegun.aisles.look a = some y from hy, hsettings]
    simp only [Option.map_some, hR.geom, hshut _ (hga a x hx)]
  · rw [hacted.stations, hstations]
    exact Table.mapRecords_congr fun e he => by
      simp only [hshut _ (hgs e.1 e.2 (Table.look_of_mem hst he)).1]
  · rw [hacted.shutters, hshutters, hmouth, hsettings]
    exact Table.mapRecords_congr fun e he => by
      simp only [hshut _ (hgh e.1 e.2 (Table.look_of_mem hsh he))]
  · have hfield : s.opened.zonesBegun.link.field = s.link.field :=
      State.posted_zoneReports_field s.opened (State.zoneReports_map s.opened.begins _)
    rw [hm', show s.cranesBegun.link.field = _ from hm, hfield, List.append_assoc]
  · exact List.mem_append_left _ (hsent a x hx f hf)

/-! ### The end of the close -/

theorem Begun.zones_eq (h : Begun s u) : u.zones = s.zones.mapRecords s.opened.zoneBegun := by
  rw [h.rest]
  rfl

theorem Begun.zoneState_of_some (h : Begun s u) {v : ZoneState} (hz : u.zoneState z = some v) :
    (s.zones.look z).isSome = true ∧ v = s.begins := by
  unfold State.zoneState at hz
  rw [h.zones_eq, Table.look_mapRecords] at hz
  cases hx : s.zones.look z with
  | none => simp [hx] at hz
  | some x =>
    rw [hx] at hz
    exact ⟨rfl, (Option.some.inj hz).symm⟩

theorem Begun.zoneState_of_look (h : Begun s u) (hz : (s.zones.look z).isSome = true) : u.zoneState z = some s.begins := by
  unfold State.zoneState
  rw [h.zones_eq, Table.look_mapRecords]
  obtain ⟨x, hx⟩ := Option.isSome_iff_exists.1 hz
  rw [hx]
  rfl

theorem State.begins_cases (s : State) :
    (s.firePanel = true ∧ s.begins = .shutdown) ∨ (s.firePanel = false ∧ s.begins = .alert) := by
  unfold State.begins
  cases s.firePanel <;> simp

/-- The zones after the judging. -/
theorem Begun.judged (h : Begun s u) : u.judgeZones =
    { u with
      zones := u.zonesSecured, securedLine := securedLevel u.zonesSecured
      link := (u.posted ((u.zones.numbers.filter u.securable).map (zoneReport .secured))).link } := by
  refine State.judgeZones_eq ((tablesLawful_iff u).1 h.tables).2.2.1 (by rw [h.rest]; rfl) fun z hz => ?_
  have hv := (h.zoneState_of_some hz).2
  rcases s.begins_cases with ⟨-, hb⟩ | ⟨-, hb⟩ <;> rw [hb] at hv <;> cases hv

theorem Begun.zone_look (h : Begun s u) {x : Zone} (hx : s.zones.look z = some x) :
    u.zonesSecured.look z = some (u.zoneJudged z (s.opened.zoneBegun z x)) := by
  rw [State.zonesSecured, h.zones_eq, Table.look_mapRecords, Table.look_mapRecords, hx]
  rfl

theorem Begun.securable (h : Begun s u) (hz : (s.zones.look z).isSome = true) :
    u.securable z = (s.firePanel && u.securedCondition z) := by
  rw [State.securable, h.zoneState_of_look hz]
  rcases s.begins_cases with ⟨hf, hb⟩ | ⟨hf, hb⟩ <;> rw [hf, hb] <;> simp

theorem Begun.parksOnly (h : Begun s u) : u.judgeZones.parksOnly := fun _ z hz => by
  have hn : u.judgeZones.zones = u.zonesSecured := by rw [h.judged]
  unfold State.zoneState at hz
  rw [hn] at hz
  cases hx : s.zones.look z with
  | none =>
    rw [State.zonesSecured, h.zones_eq, Table.look_mapRecords, Table.look_mapRecords, hx] at hz
    cases hz
  | some x =>
    rw [h.zone_look hx, Option.map_some, Option.some.injEq, State.zoneJudged] at hz
    have hb : (s.opened.zoneBegun z x).state = s.begins := rfl
    rcases s.begins_cases with ⟨-, hb'⟩ | ⟨-, hb'⟩ <;> rw [hb'] at hb <;> split at hz <;> simp_all

/-- The passes at the end of the close. -/
theorem Begun.settled (h : Begun s u) : u.settleWing =
    { u with
      zones := u.zonesSecured, securedLine := securedLevel u.zonesSecured, aisles := u.settleWing.aisles
      link := { (u.posted ((u.zones.numbers.filter u.securable).map (zoneReport .secured))).link with
        field := u.settleWing.link.field } } := by
  have hp := h.parksOnly.passes
  have hj := h.judged
  refine hp.trans ?_
  show _ = { u with
      zones := u.zonesSecured, securedLine := securedLevel u.zonesSecured, aisles := u.judgeZones.withdrawAll.lookAll.aisles
      link := { (u.posted ((u.zones.numbers.filter u.securable).map (zoneReport .secured))).link with
        field := u.judgeZones.withdrawAll.lookAll.link.field } }
  generalize u.judgeZones.withdrawAll.lookAll = t
  rw [hj]

theorem Begun.settled_condition (h : Begun s u) (z : Nat) : u.settleWing.securedCondition z = u.securedCondition z := by
  have hj : u.judgeZones.tablesLawful = true := (Flow.refl u).judgeZones.tables.trans h.tables
  refine (h.parksOnly.passes_condition hj z).trans ?_
  rw [h.judged]
  rfl

/-! ### The aisles at the end of the close -/

/-- What an entry keeps of every aisle. -/
theorem Aisle.entered_kept (wait : Nat) (x : Aisle) : (x.entered wait).geom = x.geom
    ∧ (x.entered wait).service = x.service ∧ (x.entered wait).retry = x.retry
    ∧ (x.entered wait).crane.position = x.crane.position := by
  have hstop : (x.sentStop wait).geom = x.geom ∧ (x.sentStop wait).service = x.service
      ∧ (x.sentStop wait).retry = x.retry ∧ (x.sentStop wait).crane.position = x.crane.position := by
    unfold Aisle.sentStop Aisle.unstaged
    cases x.crane.staged <;> exact ⟨rfl, rfl, rfl, rfl⟩
  unfold Aisle.entered
  cases hc : x.crane.state with
  | stopped => cases x.crane.active <;> exact ⟨rfl, rfl, rfl, rfl⟩
  | busy | parking | idle => exact hstop
  | stopping | faulted | outOfService => exact ⟨rfl, rfl, rfl, rfl⟩

theorem Aisle.unstaged_mem_queue {j : Job} (h : j ∈ x.queue) : j ∈ x.unstaged.queue := by
  unfold Aisle.unstaged
  cases x.crane.staged with
  | none => exact h
  | some k =>
    show j ∈ rejoinQueue x.queue k
    unfold rejoinQueue
    split
    · exact List.mem_cons_of_mem _ h
    · rw [← List.takeWhile_append_dropWhile (p := Job.isStore) (l := x.queue)] at h
      rcases List.mem_append.1 h with h | h
      · exact List.mem_append_left _ h
      · exact List.mem_append_right _ (List.mem_cons_of_mem _ h)

theorem Begun.judged_look (h : Begun s u) (hx : s.aisles.look a = some x) : ∃ y, x.Begins s.firePanel y
    ∧ u.judgeZones.aisles.look a = some (if s.firePanel then y.entered s.settings.stop else y) := by
  rw [h.judged]
  exact h.aisles a x hx

theorem Begun.judged_wf (h : Begun s u) : u.judgeZones.aisles.wf = true :=
  ((tablesLawful_iff _).1 ((Flow.refl u).judgeZones.tables.trans h.tables)).1

/-- What the close keeps of every aisle, and the state of its crane. -/
theorem Begun.settled_keeps (h : Begun s u) (hx : s.aisles.look a = some x) : ∃ y y', x.Begins s.firePanel y
    ∧ u.settleWing.aisles.look a = some y' ∧ y'.geom = x.geom ∧ y'.service = x.service ∧ y'.retry = x.retry
    ∧ y'.crane.position = y.crane.position
    ∧ y'.crane.state = (if s.firePanel then y.entered s.settings.stop else y).crane.state := by
  obtain ⟨y, hb, hy⟩ := h.judged_look hx
  obtain ⟨y', hy', hfixed, hstate⟩ := h.parksOnly.passes_keeps h.judged_wf hy
  refine ⟨y, y', hb, hy', ?_⟩
  simp only [Aisle.fixed, Prod.mk.injEq] at hfixed
  obtain ⟨hgeom, hservice, hretry, hposition, -, -⟩ := hfixed
  have hkept : y.geom = x.geom ∧ y.service = x.service ∧ y.retry = x.retry := by
    rcases hb with ⟨-, rfl⟩ | ⟨-, k, rfl⟩
    · exact ⟨rfl, rfl, rfl⟩
    · cases s.firePanel <;> exact ⟨rfl, rfl, rfl⟩
  obtain ⟨k1, k2, k3⟩ := hkept
  obtain ⟨e1, e2, e3, e4⟩ := y.entered_kept s.settings.stop
  cases hf : s.firePanel with
  | false =>
    simp only [hf, Bool.false_eq_true, if_false] at hgeom hservice hretry hposition hstate ⊢
    exact ⟨hgeom.trans k1, hservice.trans k2, hretry.trans k3, hposition, hstate⟩
  | true =>
    simp only [hf, if_true] at hgeom hservice hretry hposition hstate ⊢
    exact ⟨hgeom.trans (e1.trans k1), hservice.trans (e2.trans k2), hretry.trans (e3.trans k3), hposition.trans e4, hstate⟩

/-- Without the fire panel mark, an aisle IN_SERVICE has its PARK. -/
theorem Begun.settled_park (h : Begun s u) (hh : s.isHalted = false) (hg : s.zonesGood = true) (ht : s.tablesLawful = true)
    (hx : s.aisles.look a = some x) (hs : x.service = .inService) (hf : s.firePanel = false) :
    ∃ y k, u.settleWing.aisles.look a = some y ∧ y.holds (parkJob k) = true
      ∧ (x.crane.active = none → x.crane.staged = none → (∀ j ∈ x.queue, j.kind ≠ .park) →
          y.queue = x.queue ∧ y.crane.active = some (parkJob k) ∧ y.crane.phase = some .toDest ∧ y.crane.retryIndex = 0
          ∧ y.crane.deadline = some
              { left := deadlineFor x.geom
                  (leg x.geom { bay := x.geom.bays, level := x.geom.levels } { bay := 0, level := 1 })
                running := true }
          ∧ ∀ d, s.craneAddress a = some d → fieldFrame d (.park k) ∈ u.settleWing.link.field.drop s.link.field.length) := by
  obtain ⟨y, hb, hy⟩ := h.judged_look hx
  obtain ⟨k, rfl⟩ : ∃ k, y = x.begun false k := by
    rcases hb with ⟨hns, -⟩ | ⟨-, k, hk⟩
    · exact absurd hs hns
    · exact ⟨k, hf ▸ hk⟩
  simp only [hf, Bool.false_eq_true, if_false] at hy
  obtain ⟨v, hv, hvx, hafter⟩ := h.parksOnly.passes_park h.judged_wf hy rfl
  have hpark : (x.begun false k).unstaged.holds (parkJob k) = true := by
    have hmem : parkJob k ∈ (x.begun false k).unstaged.queue :=
      Aisle.unstaged_mem_queue (List.mem_append_right _ (List.mem_singleton_self _))
    simp [Aisle.holds, hmem]
  have hparking : (x.begun false k).unstaged.crane.state = .parking := Aisle.unstaged_state _
  obtain ⟨y', hy', hholds⟩ := (Dispatched.activatePark v a fun w hw => by
    rw [← Option.some.inj (hvx.symm.trans hw), hparking]).jobs a _ _ hvx hpark
  refine ⟨y', k, (hafter.others a rfl).trans hy', hholds, fun hactive hstaged hqueue => ?_⟩
  have hj := h.judged
  have heligible : u.judgeZones.parkEligible (x.begun false k) = true := by
    have hdefined : (s.zones.look x.geom.zone).isSome = true := ((State.zonesGood_iff ht).1 hg).1 a x hx
    obtain ⟨w, hw⟩ := Option.isSome_iff_exists.1 hdefined
    have hbegins : s.begins = .alert := by simp [State.begins, hf]
    have hjudged : u.zoneJudged x.geom.zone (s.opened.zoneBegun x.geom.zone w) = s.opened.zoneBegun x.geom.zone w :=
      if_neg (by simp [h.securable hdefined, hf])
    have hzone : u.judgeZones.zoneState x.geom.zone = some .alert := by
      rw [hj]
      refine (congrArg (Option.map Zone.state) (h.zone_look hw)).trans ?_
      rw [hjudged, Option.map_some]
      exact congrArg some hbegins
    have hhalted : u.judgeZones.isHalted = s.isHalted := by rw [hj, h.rest]; rfl
    have hmode : u.judgeZones.mode = .inService := by rw [hj, h.rest]; rfl
    exact State.parkEligible_iff.2 ⟨.inl hs, hhalted.trans hh, hmode, .inr (.inl hzone)⟩
  obtain ⟨hlook, l, m, hfield⟩ := h.parksOnly.passes_activates h.judged_wf hy rfl hactive hstaged rfl hqueue heligible
  have hyy := Option.some.inj (((hafter.others a rfl).trans hy').symm.trans hlook)
  refine ⟨by rw [hyy], by rw [hyy], by rw [hyy], by rw [hyy], by rw [hyy]; rfl, fun d hd => ?_⟩
  obtain ⟨m', hm', -⟩ := h.sent
  have haddress : u.judgeZones.craneAddress a = s.craneAddress a := by rw [hj, h.rest]; rfl
  have hsame : u.judgeZones.link.field = u.link.field := by
    rw [hj]
    exact State.posted_zoneReports_field u (State.zoneReports_map .secured _)
  have hall : u.settleWing.link.field = s.link.field ++ (m' ++ (l ++ [fieldFrame d (.park k)] ++ m)) := by
    refine hfield.trans ?_
    rw [haddress, hd, hsame, hm']
    simp
  rw [hall, List.drop_left]
  simp

end

end Sys2Proof.Machine
end

section
/-! CLOSE_COMMISSIONING sets up the wing (O32). -/
namespace Sys2Proof.Machine

section
variable {s t u w : State} {a b z k : Nat} {l : List Nat} {x y : Aisle}

theorem State.zonesGood_of_failingCheck (h : s.failingCheck = none) : s.zonesGood = true := by
  unfold State.failingCheck at h
  by_contra hn
  simp only [Bool.not_eq_true] at hn
  simp [hn] at h
  split at h <;> cases h

/-- The reports of the close (R156, R167). -/
theorem Begun.settled_reports (h : Begun s u) :
    (u.settleWing.link.urgent, u.settleWing.link.urgentOverrun) =
      (let w := s.posted (s.zones.numbers.map (zoneReport s.begins)
        ++ if s.firePanel then (s.zones.numbers.filter u.securedCondition).map (zoneReport .secured) else [])
      (w.link.urgent, w.link.urgentOverrun)) := by
  have hnum : u.zones.numbers = s.zones.numbers := by rw [h.zones_eq, Table.numbers_mapRecords]
  have hfilter : (u.zones.numbers.filter u.securable).map (zoneReport .secured) =
      if s.firePanel then (s.zones.numbers.filter u.securedCondition).map (zoneReport .secured) else [] := by
    have hs : ∀ z ∈ s.zones.numbers, u.securable z = (s.firePanel && u.securedCondition z) := fun z hz =>
      h.securable (Table.look_isSome_of_mem hz)
    rw [hnum, List.filter_congr hs]
    cases s.firePanel <;> simp
  have hclasses : u.classes = s.classes := by rw [h.rest]; rfl
  have hbegun : s.opened.zonesBegun.link = (s.posted (s.zones.numbers.map (zoneReport s.begins))).link :=
    (State.posted_link s.opened _).trans (State.posted_link s _).symm
  have hlink : u.link = { (s.posted (s.zones.numbers.map (zoneReport s.begins))).link with field := u.link.field } := by
    rw [← hbegun]
    exact congrArg State.link h.rest
  have hall := State.posted_with_field (s := s.posted (s.zones.numbers.map (zoneReport s.begins))) hlink
    (hclasses.trans (by rw [State.posted_rest s])) ((u.zones.numbers.filter u.securable).map (zoneReport .secured))
  rw [← State.posted_append, hfilter] at hall
  rw [h.settled]
  dsimp only
  rw [hfilter, hall]

theorem Begun.settled_link (h : Begun s u) : u.settleWing.link =
    { s.link with
      urgent := u.settleWing.link.urgent, urgentOverrun := u.settleWing.link.urgentOverrun
      field := u.settleWing.link.field } := by
  have hposted := State.posted_zoneReports u
    (State.zoneReports_map .secured (u.zones.numbers.filter u.securable))
  have hbegun := s.opened.zonesBegun_link
  have hlink : u.link = { s.opened.zonesBegun.link with field := u.link.field } := congrArg State.link h.rest
  have hset : u.settleWing.link = { (u.posted ((u.zones.numbers.filter u.securable).map (zoneReport .secured))).link with
      field := u.settleWing.link.field } := congrArg State.link h.settled
  generalize u.settleWing.link = k at *
  rw [hset, hposted, hlink, hbegun]
  rfl

theorem Begun.settled_field (h : Begun s u) : ∃ m, u.settleWing.link.field = u.link.field ++ m := by
  obtain ⟨m, hm⟩ := ((Passes.withdrawAll u.judgeZones).trans (.lookAll _)).sent
  refine ⟨m, hm.trans ?_⟩
  rw [h.judged]
  exact congrArg (· ++ m) (State.posted_zoneReports_field u (State.zoneReports_map .secured _))

/-- The aisle is stopped, in a wing whose fire panel mark is ASSERTED. -/
theorem Begun.settled_stop (h : Begun s u) (hx : s.aisles.look a = some x) (hs : x.service = .inService)
    (hf : s.firePanel = true) {d : Nat} (hd : s.craneAddress a = some d) :
    fieldFrame d .stop ∈ u.settleWing.link.field.drop s.link.field.length := by
  obtain ⟨m, hm, hsent⟩ := h.sent
  obtain ⟨m', hm'⟩ := h.settled_field
  have hmem : fieldFrame d .stop ∈ m := hsent a x hx _ (by simp [State.beginFrames, hs, hf, hd])
  rw [hm', hm, List.append_assoc, List.drop_left]
  exact List.mem_append_left _ hmem

end

/-- Settles O32: the records that the close sets (`Begun`), and the passes at its end. -/
theorem closeSetsUpTheWing : Obligations.CloseSetsUpTheWing := by
  intro tag s hr hh ht hsec
  refine ⟨fun hm => ?_, fun hm hcheck => ?_⟩
  · refine (order_load hr hh _ rfl _).trans ?_
    rw [if_pos (State.isInService_of_mode hm)]
    rfl
  · have hg := State.zonesGood_of_failingCheck hcheck
    have h := State.entriesMade_spec ht hg
    have hset := h.settled
    refine ⟨s.commission, ?_, ?_⟩
    · rw [exec_close_of_commissioning hr hh hm, hcheck]
    rw [State.commission_eq ht hsec]
    refine ⟨?_, ?_, fun z x hx => ?_, fun a x hx => ?_, ?_, ?_, ?_⟩
    · have hzones : s.entriesMade.settleWing.zones = s.entriesMade.zonesSecured := by rw [hset]
      have hnext : s.entriesMade.settleWing.nextJob = s.entriesMade.nextJob := by rw [hset]
      have hconcentrators : s.entriesMade.settleWing.concentrators = s.entriesMade.concentrators := by rw [hset]
      have hstations : s.entriesMade.settleWing.stations = s.entriesMade.stations := by rw [hset]
      have hshutters : s.entriesMade.settleWing.shutters = s.entriesMade.shutters := by rw [hset]
      have hposted : s.entriesMade.settleWing.link = { (s.entriesMade.posted ((s.entriesMade.zones.numbers.filter
          s.entriesMade.securable).map (zoneReport .secured))).link with field := s.entriesMade.settleWing.link.field } :=
        congrArg State.link hset
      rw [hzones, hnext, hconcentrators, hstations, hshutters, ← h.settled_link]
      refine hset.trans ?_
      rw [← hposted]
      generalize s.entriesMade.settleWing = t
      generalize s.entriesMade.zonesSecured = v
      rw [h.rest]
      rfl
    · rw [hset, h.rest]
      rfl
    · have hcauses : s.entriesMade.settleWing.causesOf = s.opened.causesOf :=
        State.causesOf_congr (by rw [hset, h.rest]; rfl)
      have hlook : s.entriesMade.settleWing.zones.look z =
          some (s.entriesMade.zoneJudged z (s.opened.zoneBegun z x)) := by
        rw [hset]
        exact h.zone_look hx
      rw [hlook, hcauses, h.settled_condition, State.zoneJudged, h.securable (by rw [hx]; rfl)]
      have hopened : s.opened.firePanel = s.firePanel := rfl
      simp only [State.zoneBegun, State.begins, hopened]
      cases s.firePanel <;> cases s.entriesMade.securedCondition z <;> rfl
    · obtain ⟨y, y', hb, hy, hgeom, hservice, hretry, hposition, hstate⟩ := h.settled_keeps hx
      refine ⟨y', hy, hgeom, hservice, hretry, fun hs => ?_, fun hc hs => ?_⟩
      · rcases hb with ⟨hns, -⟩ | ⟨-, k, rfl⟩
        · exact absurd hs hns
        have hpos : (x.begun s.firePanel k).crane.position = none := by cases s.firePanel <;> rfl
        have hst : y'.crane.state = if s.firePanel then .stopped else .parking := by
          rw [hstate]
          cases s.firePanel with
          | false => rfl
          | true => exact Aisle.entered_state s.settings.stop (x.begun true k)
        refine ⟨hposition.trans hpos, hst, fun hf => ?_, fun hf hactive hstaged hqueue => ?_, fun hf d hd => ?_⟩
        · obtain ⟨w, k, hw, hholds, -⟩ := h.settled_park hh hg ht hx hs hf
          exact ⟨parkJob k, rfl, Option.some.inj (hw.symm.trans hy) ▸ hholds⟩
        · obtain ⟨w, k, hw, -, hpark⟩ := h.settled_park hh hg ht hx hs hf
          exact ⟨k, Option.some.inj (hw.symm.trans hy) ▸ hpark hactive hstaged hqueue⟩
        · exact h.settled_stop hx hs hf hd
      · rcases hb with ⟨-, rfl⟩ | ⟨hin, -⟩
        · rw [hstate]
          split
          · rw [Aisle.entered_state]
            rcases hc with hc | hc <;> rw [hc]
          · rfl
        · rw [hs] at hin
          cases hin
    · rw [hset]
      exact h.stations
    · rw [hset]
      exact h.shutters
    · rw [h.settled_reports, funext h.settled_condition]
      rfl

end Sys2Proof.Machine
end

section
/-! The restart, pass by pass (R199): services, zones, cranes and entry actions. -/
namespace Sys2Proof.Machine

section
variable {r s t u w : State} {a b z k : Nat} {l : List Nat} {x y : Aisle}

/-- A restart, from the records that it resets on (R199). -/
def State.restartFrom (r : State) : State :=
  let s2 := r.aisles.numbers.foldl State.restartService r
  let s3 := s2.restartZones
  let s4 := s3.aisles.numbers.foldl State.restartCrane s3
  let s5 := s4.zones.numbers.foldl State.restartEntry s4
  s5.judgeSecuredLine.settleWing

theorem State.restart_eq (s : State) (cause : StartCause) : s.restart cause = (s.restartRecords cause).restartFrom := rfl

/-! ### The services (R20) -/

/-- The service of an aisle after a restart (R20). -/
def Service.restarted (v : Service) : Service := if v = .draining then .outOfService else v

/-- A DRAINING aisle is OUT_OF_SERVICE (R20). -/
def Aisle.ended (x : Aisle) : Aisle := { x with service := x.service.restarted }

/-- AISLE_STATE for an aisle that has drained (R4). -/
def endedReport (a : Nat) : Report :=
  { kind := .aisleState, subject := .aisle a, order := none, code := some (.service .outOfService) }

theorem State.restartService_of_look (hx : s.aisles.look a = some x) : s.restartService a =
    { s with
      aisles := s.aisles.adjust a Aisle.ended
      link := (s.posted (if x.service = .draining then [endedReport a] else [])).link } := by
  simp only [State.restartService, hx]
  by_cases hd : x.service = .draining
  · rw [if_pos hd, if_pos hd, State.setService_of_ne hx (by simp [hd])]
    have hadj : s.aisles.adjust a Aisle.ended = s.aisles.adjust a fun x => { x with service := .outOfService } :=
      Table.adjust_congr fun y hy => by
        obtain rfl := Option.some.inj (hx.symm.trans hy)
        simp [Aisle.ended, Service.restarted, hd]
    rw [hadj]
    rfl
  · rw [if_neg hd, if_neg hd, Table.adjust_eq_self_of_look fun y hy => ?_]
    · rfl
    · obtain rfl := Option.some.inj (hx.symm.trans hy)
      simp [Aisle.ended, Service.restarted, hd]

/-- The state after the services are restarted. -/
def State.servicesEnded (r : State) : State :=
  { r with
    aisles := r.aisles.mapRecords fun _ x => x.ended
    link := (r.posted ((r.aisles.select fun x => decide (x.service = .draining)).map endedReport)).link }

theorem State.restartServices_eq (hw : r.aisles.wf = true) :
    r.aisles.numbers.foldl State.restartService r = r.servicesEnded := by
  have key := foldl_induct (step := State.restartService) (l := r.aisles.numbers) (s := r)
    (fun done u => u = { r with
      aisles := r.aisles.mapRecords fun a x => if a ∈ done then x.ended else x
      link := (r.posted ((done.filter fun a => (r.aisles.look a).any fun x => decide (x.service = .draining)).map
        endedReport)).link })
    (by simp [Table.mapRecords_eq_self, State.posted])
    (fun done a rest u hl hu => ?_)
  · refine key.trans ?_
    rw [Table.mapRecords_numbers (t := r.aisles) fun _ => Aisle.ended, Table.filter_numbers hw]
    rfl
  · have hnot := not_mem_of_split (Table.nodup_numbers hw) hl
    obtain ⟨x, hx⟩ := Option.isSome_iff_exists.1 (Table.look_isSome_of_mem
      (hl ▸ List.mem_append_right _ List.mem_cons_self : a ∈ r.aisles.numbers))
    have hux : u.aisles.look a = some x := by
      rw [hu]
      exact (Table.look_passed (fun _ => Aisle.ended) hnot).trans hx
    have hadj := Table.adjust_passed hw (fun _ => Aisle.ended) hnot
    rw [State.restartService_of_look hux, hu]
    simp only [hadj, List.filter_append, List.map_append, State.posted_link, List.foldl_append, List.filter_cons, hx,
      Option.any_some, List.filter_nil]
    by_cases hd : x.service = .draining <;> simp [hd]

/-! ### The zones (R157) -/

/-- A zone after a restart in IN_SERVICE (R157). -/
def State.zoneRestarted (r : State) (z : Nat) (x : Zone) : Zone :=
  { x with
    state := zoneAfterRestart r.firePanel x.state, causes := r.causesOf z true
    windowLeft := if zoneAfterRestart r.firePanel x.state = .alert then some x.window else none }

/-- ZONE_STATE for a zone whose state changes at the restart (R157). -/
def State.zoneChange (r : State) (z : Nat) (x : Zone) : List Report :=
  if zoneAfterRestart r.firePanel x.state = x.state then [] else [zoneReport (zoneAfterRestart r.firePanel x.state) z]

theorem State.restartZone_of_look {x : Zone} (hx : s.zones.look z = some x) : ∃ b, s.restartZone z =
    { s with
      zones := s.zones.adjust z (s.zoneRestarted z), securedLine := b
      link := (s.posted (s.zoneChange z x)).link } := by
  have hadj : ∀ f : Zone → Zone, f x = s.zoneRestarted z x → s.zones.adjust z f = s.zones.adjust z (s.zoneRestarted z) :=
    fun f hf => Table.adjust_congr fun y hy => by rw [← Option.some.inj (hx.symm.trans hy), hf]
  simp only [State.restartZone, hx, State.zoneChange]
  by_cases hv : zoneAfterRestart s.firePanel x.state = x.state
  · refine ⟨s.securedLine, ?_⟩
    rw [if_pos hv, if_pos hv, State.modZone, hadj _ (by simp only [State.zoneRestarted, hv])]
    rfl
  · refine ⟨securedLevel (s.zones.adjust z (s.zoneRestarted z)), ?_⟩
    rw [if_neg hv, if_neg hv]
    simp only [State.setZoneState, State.turnZone, State.modZone, State.judgeSecuredLine, Table.adjust_adjust]
    have hchanged : (s.zones.adjust z fun y => { y with
        state := zoneAfterRestart s.firePanel x.state, causes := s.causesOf z true
        windowLeft := if zoneAfterRestart s.firePanel x.state = .alert then some y.window else none }) =
      s.zones.adjust z (s.zoneRestarted z) := hadj _ rfl
    rw [hchanged]
    rfl

/-- The state after the zones are restarted in IN_SERVICE, but for the secured line. -/
theorem State.restartZones_eq (hw : r.zones.wf = true) : r.zones.numbers.foldl State.restartZone r =
    { r with
      zones := r.zones.mapRecords r.zoneRestarted
      securedLine := (r.zones.numbers.foldl State.restartZone r).securedLine
      link := (r.posted (r.zones.flatMap fun e => r.zoneChange e.1 e.2)).link } := by
  have key := foldl_induct (step := State.restartZone) (l := r.zones.numbers) (s := r)
    (fun done u => u = { r with
      zones := r.zones.mapRecords fun z x => if z ∈ done then r.zoneRestarted z x else x
      securedLine := u.securedLine
      link := (r.posted (done.flatMap fun z => ((r.zones.look z).map (r.zoneChange z)).getD [])).link })
    (by simp [Table.mapRecords_eq_self, State.posted])
    (fun done z rest u hl hu => ?_)
  · rw [Table.mapRecords_numbers (t := r.zones) r.zoneRestarted,
      Table.flatMap_numbers hw fun z o => (o.map (r.zoneChange z)).getD []] at key
    exact key
  · have hnot := not_mem_of_split (Table.nodup_numbers hw) hl
    obtain ⟨x, hx⟩ := Option.isSome_iff_exists.1 (Table.look_isSome_of_mem
      (hl ▸ List.mem_append_right _ List.mem_cons_self : z ∈ r.zones.numbers))
    have hux : u.zones.look z = some x := by
      rw [hu]
      exact (Table.look_passed r.zoneRestarted hnot).trans hx
    obtain ⟨b, hturn⟩ := State.restartZone_of_look hux
    have hrec : u.zoneRestarted = r.zoneRestarted := by
      unfold State.zoneRestarted
      rw [State.causesOf_congr (t := u) (s := r) (by rw [hu]), show u.firePanel = r.firePanel by rw [hu]]
    have hchange : u.zoneChange = r.zoneChange := by
      unfold State.zoneChange
      rw [show u.firePanel = r.firePanel by rw [hu]]
    have hzones : u.zones.adjust z (r.zoneRestarted z) =
        r.zones.mapRecords fun n x => if n ∈ done ++ [z] then r.zoneRestarted n x else x := by
      rw [hu]
      exact Table.adjust_passed hw r.zoneRestarted hnot
    rw [hrec, hchange, hzones] at hturn
    have hb : (u.restartZone z).securedLine = b := by rw [hturn]
    rw [hb]
    refine hturn.trans ?_
    rw [hu]
    simp only [List.flatMap_append, List.flatMap_cons, List.flatMap_nil, List.append_nil, hx, Option.map_some, Option.getD_some,
      State.posted_link, List.foldl_append]

end

end Sys2Proof.Machine
end

section
/-! The restart up to the judging of its zones (R83, R157, R159, R176). -/
namespace Sys2Proof.Machine

section
variable {r s t u w : State} {a b z k : Nat} {l : List Nat} {x y : Aisle}

/-! ### The cranes (R83) -/

/-- What a restart makes of an aisle whose records are reset, in the zones of `s` (R83, R176). -/
def State.RestartsTo (s : State) (x y : Aisle) : Prop :=
  if x.service = .outOfService then
    y = { x with crane := { x.crane with state := if x.crane.state = .faulted then .faulted else .outOfService } }
  else if s.mode = .commissioning then y = { x with crane := { x.crane with state := .parking } }
  else if s.zoneState x.geom.zone = some .shutdown ∨ s.zoneState x.geom.zone = some .secured then
    y = { x with crane := { x.crane with state := .stopped } }
  else ∃ k, y = x.parked k

/-- STOP to a crane at a restart (R176). -/
def State.restartFrames (s : State) (a : Nat) (x : Aisle) : List Frame :=
  if x.service ≠ .outOfService ∧ s.mode = .inService ∧ s.zoneState x.geom.zone = some .shutdown then
    ((s.craneAddress a).map fun d => fieldFrame d .stop).toList
  else []

theorem State.restartCrane_spec (hu : SetCranes s u) (hx : u.aisles.look a = some x) :
    ∃ y n, s.RestartsTo x y ∧ u.restartCrane a =
      { u with
        aisles := u.aisles.adjust a fun _ => y
        nextJob := n
        link := { u.link with field := u.link.field ++ s.restartFrames a x } } := by
  have hzone : u.zoneState x.geom.zone = s.zoneState x.geom.zone := by rw [hu]; rfl
  have hmode : u.mode = s.mode := by rw [hu]
  have haddress : u.craneAddress a = s.craneAddress a := by rw [hu]; rfl
  have hrec : ∀ f : Aisle → Aisle, u.aisles.adjust a f = u.aisles.adjust a fun _ => f x := fun f =>
    Table.adjust_congr fun y hy => by rw [← Option.some.inj (hx.symm.trans hy)]
  have hcrane : ∀ f : Crane → Crane, u.modCrane a f =
      { u with aisles := u.aisles.adjust a fun _ => { x with crane := f x.crane } } := fun f => by
    rw [State.modCrane, hrec]
  unfold State.RestartsTo State.restartFrames
  simp only [State.restartCrane, hx, hzone]
  by_cases hs : x.service = .outOfService
  · refine ⟨_, u.nextJob, by rw [if_pos hs], ?_⟩
    rw [if_pos hs, hcrane]
    simp [hs]
  simp only [hs, if_false, ne_eq, not_false_eq_true, true_and]
  cases hm : s.mode with
  | commissioning =>
    refine ⟨_, u.nextJob, by rw [if_pos rfl], ?_⟩
    rw [if_pos (hmode.trans hm), hcrane]
    simp
  | inService =>
    have hin : u.mode ≠ .commissioning := by simp [hmode, hm]
    simp only [reduceCtorEq, if_false, true_and]
    rw [if_neg hin]
    have hpark : ∃ n, u.createPark a = { u with aisles := u.aisles.adjust a fun _ => x.parked u.jobTag, nextJob := n } :=
      ⟨_, by rw [State.createPark_eq, hrec]⟩
    obtain ⟨n, hpark⟩ := hpark
    cases hv : s.zoneState x.geom.zone with
    | none => exact ⟨x.parked u.jobTag, n, by simp, by simp [hpark]⟩
    | some v =>
      cases v with
      | shutdown =>
        refine ⟨_, u.nextJob, by rw [if_pos (.inl rfl)], ?_⟩
        simp only [hcrane, if_true]
        rw [State.sendCrane, State.send, Link.sendTo_eq, ← haddress]
        rfl
      | secured =>
        refine ⟨_, u.nextJob, by rw [if_pos (.inr rfl)], ?_⟩
        simp [hcrane]
      | normal | alert | restoring => exact ⟨x.parked u.jobTag, n, by simp, by simp [hpark]⟩

/-! ### The passes put together -/

/-- The zones after a restart, before they are judged (R157). -/
def State.zonesAfter (r : State) : Table Zone :=
  match r.mode with
  | .commissioning => r.zones
  | .inService => r.zones.mapRecords r.zoneRestarted

/-- The zone reports of a restart, before the zones are judged (R157). -/
def State.changesAfter (r : State) : List Report :=
  match r.mode with
  | .commissioning => []
  | .inService => r.zones.flatMap fun e => r.zoneChange e.1 e.2

/-- The reports of a restart, before the zones are judged (R20, R157). -/
def State.reportsAfter (r : State) : List Report :=
  (r.aisles.select fun x => decide (x.service = .draining)).map endedReport ++ r.changesAfter

/-- The state after the zones are restarted (R157), with the secured line as it happens to stand. -/
def State.zonesTurned (r : State) (b : Bool) : State :=
  { r with
    aisles := r.aisles.mapRecords fun _ x => x.ended
    zones := r.zonesAfter, securedLine := b, link := (r.posted r.reportsAfter).link }

theorem State.restartZones_spec (hw : r.zones.wf = true) : ∃ b, r.servicesEnded.restartZones = r.zonesTurned b := by
  unfold State.restartZones State.zonesTurned State.zonesAfter State.reportsAfter State.changesAfter
  have hmode : r.servicesEnded.mode = r.mode := rfl
  rw [hmode]
  cases hm : r.mode with
  | commissioning => exact ⟨r.securedLine, by simp [State.servicesEnded, hm]⟩
  | inService =>
    refine ⟨(r.servicesEnded.zones.numbers.foldl State.restartZone r.servicesEnded).securedLine, ?_⟩
    refine (State.restartZones_eq (r := r.servicesEnded) hw).trans ?_
    simp only [State.servicesEnded, State.posted_link, List.foldl_append, hm]
    rfl

theorem State.posted_field (s : State) (l : List Report) : (s.posted l).link.field = s.link.field := by
  induction l generalizing s with
  | nil => rfl
  | cons r l ih => exact (ih (s.post r)).trans (State.post_link_field s r)

theorem State.RestartsTo.congr (h : s.RestartsTo x y) (hm : t.mode = s.mode) (hz : t.zones = s.zones) :
    t.RestartsTo x y := by
  unfold State.RestartsTo State.zoneState at *
  rwa [hm, hz]

theorem State.RestartsTo.geom (h : s.RestartsTo x y) : y.geom = x.geom := by
  unfold State.RestartsTo at h
  split at h
  · rw [h]
  · split at h
    · rw [h]
    · split at h
      · rw [h]
      · obtain ⟨k, rfl⟩ := h
        rfl

/-- `u` is `r` restarted, before its zones are judged (R83, R157, R159, R176). -/
structure Restarted (r u : State) : Prop where
  rest : u = { r with
    aisles := u.aisles, nextJob := u.nextJob, stations := u.stations, shutters := u.shutters
    zones := r.zonesAfter, securedLine := securedLevel r.zonesAfter
    link := { (r.posted r.reportsAfter).link with field := u.link.field } }
  tables : u.tablesLawful = true
  numbers : u.aisles.numbers = r.aisles.numbers
  aisles : ∀ a x, r.aisles.look a = some x → ∃ y, u.RestartsTo x.ended y ∧ u.aisles.look a =
    some (if u.zoneState x.geom.zone = some .shutdown then y.entered r.settings.stop else y)
  stations : u.stations = r.stations.mapRecords fun _ x =>
    if u.zoneState x.loaded.zone = some .shutdown then x.paused else x
  shutters : u.shutters = r.shutters.mapRecords fun n h =>
    if u.zoneState h.zone = some .shutdown then h.shut (r.mouthOccupiedAt n) r.settings.shutter else h
  sent : ∃ m, u.link.field = r.link.field ++ m
    ∧ (∀ a x, r.aisles.look a = some x → ∀ f ∈ u.restartFrames a x.ended, f ∈ m)
    ∧ ∀ st x, r.stations.look st = some x → u.zoneState x.loaded.zone = some .shutdown → ∀ f ∈ x.closeFrames, f ∈ m

/-- The restart, after its cranes are set. -/
def State.cranesRestarted (r : State) (b : Bool) : State :=
  (r.zonesTurned b).aisles.numbers.foldl State.restartCrane (r.zonesTurned b)

/-- The restart, after its entry actions. -/
def State.entriesRestarted (r : State) (b : Bool) : State :=
  (r.cranesRestarted b).zones.numbers.foldl State.restartEntry (r.cranesRestarted b)

theorem State.restartFrom_eq (ht : r.tablesLawful = true) :
    ∃ b, r.restartFrom = (r.entriesRestarted b).judgeSecuredLine.settleWing := by
  obtain ⟨hai, -, hzo, -⟩ := (tablesLawful_iff r).1 ht
  obtain ⟨b, hb⟩ := State.restartZones_spec (r := r) hzo
  refine ⟨b, ?_⟩
  unfold State.restartFrom
  rw [State.restartServices_eq hai]
  dsimp only
  rw [hb]
  rfl

theorem State.entriesRestarted_spec (ht : r.tablesLawful = true) (b : Bool) :
    Restarted r (r.entriesRestarted b).judgeSecuredLine := by
  obtain ⟨hai, hst, hzo, -, hsh, -⟩ := (tablesLawful_iff r).1 ht
  have hwai : (r.zonesTurned b).aisles.wf = true := by
    simpa [State.zonesTurned, Table.wf_mapRecords] using hai
  obtain ⟨hset, -, hcranes, m, hm, hsent⟩ := foldl_cranes (s := r.zonesTurned b) (step := State.restartCrane)
    (R := (r.zonesTurned b).RestartsTo) (F := (r.zonesTurned b).restartFrames) hwai
    fun u a x hu _ hux => State.restartCrane_spec hu hux
  have hset : SetCranes (r.zonesTurned b) (r.cranesRestarted b) := hset
  have hturned : (r.zonesTurned b).tablesLawful = true := by
    rw [tablesLawful_iff] at ht ⊢
    unfold State.zonesTurned State.zonesAfter
    cases r.mode <;> simpa [Table.wf_mapRecords] using ht
  have hflow : Flow (r.zonesTurned b) (r.cranesRestarted b) := (Flow.refl _).foldl _ _ fun _ a h => h.restartCrane a
  have htc := hflow.tables.trans hturned
  have hflow' : Flow (r.cranesRestarted b) (r.entriesRestarted b) := (Flow.refl _).foldl _ _ fun _ z h => h.restartEntry z
  obtain ⟨hacted, hrest⟩ := acted_foldl (s := r.cranesRestarted b) htc (step := State.restartEntry) fun _ _ => rfl
  have hacted : Acted (r.cranesRestarted b) (r.entriesRestarted b) (r.cranesRestarted b).shutZones := hacted
  have hrest : r.entriesRestarted b = { r.cranesRestarted b with
      aisles := (r.entriesRestarted b).aisles, stations := (r.entriesRestarted b).stations
      shutters := (r.entriesRestarted b).shutters
      link := { (r.cranesRestarted b).link with field := (r.entriesRestarted b).link.field } } := hrest
  have hmem : ∀ z, z ∈ (r.cranesRestarted b).shutZones ↔
      (r.entriesRestarted b).judgeSecuredLine.zoneState z = some .shutdown := fun z => by
    have hzone : (r.entriesRestarted b).judgeSecuredLine.zoneState z = (r.cranesRestarted b).zoneState z := by
      show (r.entriesRestarted b).zoneState z = _
      rw [hrest]
      rfl
    rw [State.mem_shutZones, hzone]
  have hmode : (r.entriesRestarted b).mode = r.mode := by rw [hrest, hset]; rfl
  have hzones : (r.entriesRestarted b).zones = r.zonesAfter := by rw [hrest, hset]; rfl
  have hsettings : (r.cranesRestarted b).settings = r.settings := by rw [hset]; rfl
  have hstations : (r.cranesRestarted b).stations = r.stations := by rw [hset]; rfl
  have hshutters : (r.cranesRestarted b).shutters = r.shutters := by rw [hset]; rfl
  have hmouth : (r.cranesRestarted b).mouthOccupiedAt = r.mouthOccupiedAt := by rw [hset]; rfl
  obtain ⟨m', hm', hms, -⟩ := hacted.sent
  have hnumbers : (r.entriesRestarted b).aisles.numbers = r.aisles.numbers :=
    hflow'.aisleNumbers.trans (hflow.aisleNumbers.trans (Table.numbers_mapRecords r.aisles fun _ x => x.ended))
  refine ⟨?_, hflow'.tables.trans htc, hnumbers, fun a x hx => ?_, ?_, ?_, m ++ m', ?_, fun a x hx f hf => ?_, fun st x hx hz f hf => ?_⟩
  · have hnext : (r.entriesRestarted b).nextJob = (r.cranesRestarted b).nextJob := by rw [hrest]
    show { r.entriesRestarted b with securedLine := securedLevel (r.entriesRestarted b).zones } = { r with
      aisles := (r.entriesRestarted b).aisles, nextJob := (r.entriesRestarted b).nextJob
      stations := (r.entriesRestarted b).stations, shutters := (r.entriesRestarted b).shutters
      zones := r.zonesAfter, securedLine := securedLevel r.zonesAfter
      link := { (r.posted r.reportsAfter).link with field := (r.entriesRestarted b).link.field } }
    rw [hzones, hnext]
    generalize r.entriesRestarted b = v at hrest
    rw [hrest]
    unfold SetCranes at hset
    rw [hset]
    rfl
  · have hxt : (r.zonesTurned b).aisles.look a = some x.ended := by
      simp [State.zonesTurned, hx]
    obtain ⟨y, hy, hR⟩ := hcranes a _ hxt
    refine ⟨y, hR.congr hmode hzones, ?_⟩
    have hgeom : y.geom = x.geom := hR.geom
    show (r.entriesRestarted b).aisles.look a = _
    rw [hacted.aisles, Table.look_mapRecords, show (r.cranesRestarted b).aisles.look a = some y from hy, hsettings]
    simp only [Option.map_some, hgeom, hmem]
  · show (r.entriesRestarted b).stations = _
    rw [hacted.stations, hstations]
    simp only [hmem]
  · show (r.entriesRestarted b).shutters = _
    rw [hacted.shutters, hshutters, hmouth, hsettings]
    simp only [hmem]
  · show (r.entriesRestarted b).link.field = _
    rw [hm', show (r.cranesRestarted b).link.field = _ from hm, List.append_assoc]
    exact congrArg (· ++ (m ++ m')) (r.posted_field r.reportsAfter)
  · refine List.mem_append_left _ (hsent a x.ended (by simp [State.zonesTurned, hx]) f ?_)
    unfold State.restartFrames at hf ⊢
    have hzone : (r.entriesRestarted b).judgeSecuredLine.zoneState x.ended.geom.zone =
        (r.zonesTurned b).zoneState x.ended.geom.zone := by
      show ((r.entriesRestarted b).zones.look _).map _ = _
      rw [hzones]
      rfl
    have haddress : (r.entriesRestarted b).judgeSecuredLine.craneAddress a = (r.zonesTurned b).craneAddress a := by
      show (r.entriesRestarted b).craneAddress a = _
      rw [hrest, hset]
      rfl
    rw [hzone, haddress, show (r.entriesRestarted b).judgeSecuredLine.mode = r.mode from hmode] at hf
    exact hf
  · exact List.mem_append_right _ (hms st x (by rw [hstations]; exact hx) ((hmem _).2 hz) f hf)

end

end Sys2Proof.Machine
end

section
/-! The judging of the zones at a restart, when no crane holds a record and no bin is in transit (R167, R171). -/
namespace Sys2Proof.Machine

section
variable {r s t u v w : State} {a b z k : Nat} {l : List Nat} {x y : Aisle}

/-- No crane holds a suspension record, and no bin is in transit (R83, R104). -/
structure Wiped (u : State) : Prop where
  records : ∀ a x, u.aisles.look a = some x → x.crane.suspension = none
  transit : ∀ st x, u.stations.look st = some x → x.inTransit = []

/-- The zones of a wiped wing have been judged. -/
structure Judged (u v : State) : Prop where
  rest : v = { u with zones := v.zones, securedLine := v.securedLine, link := v.link }
  sent : ∃ m, v.link.field = u.link.field ++ m
  urgent : u.link.urgentOverrun = true → v.link.urgentOverrun = true
  routine : u.link.routineOverrun = true → v.link.routineOverrun = true
  kept : ∀ z x, u.zones.look z = some x → (x.state = .normal ∨ x.state = .alert) → v.zones.look z = some x

theorem Judged.refl (u : State) : Judged u u := ⟨rfl, ⟨[], by simp⟩, id, id, fun _ _ h _ => h⟩

theorem Judged.trans (h : Judged u v) (k : Judged v w) : Judged u w := by
  obtain ⟨l, hl⟩ := h.sent
  obtain ⟨m, hm⟩ := k.sent
  refine ⟨?_, ⟨l ++ m, by rw [hm, hl, List.append_assoc]⟩, fun hu => k.urgent (h.urgent hu),
    fun hu => k.routine (h.routine hu), fun z x hx ho => k.kept z x (h.kept z x hx ho) ho⟩
  rw [k.rest, h.rest]

theorem Link.post_urgentOverrun (l : Link) (c : ReportClass) (r : Report) (h : l.urgentOverrun = true) :
    (l.post c r).urgentOverrun = true := by
  cases c
  · simp only [Link.post, Link.joinUrgent]
    split
    · exact h
    · rfl
  · simp only [Link.post, Link.joinRoutine]
    split <;> exact h

theorem Link.post_routineOverrun (l : Link) (c : ReportClass) (r : Report) (h : l.routineOverrun = true) :
    (l.post c r).routineOverrun = true := by
  cases c
  · simp only [Link.post, Link.joinUrgent]
    split <;> exact h
  · simp only [Link.post, Link.joinRoutine]
    split
    · exact h
    · rfl

theorem Judged.post (h : Judged u v) (e : Report) : Judged u (v.post e) := by
  refine h.trans ⟨rfl, ⟨[], ?_⟩, fun ho => Link.post_urgentOverrun _ _ _ ho, fun ho => Link.post_routineOverrun _ _ _ ho,
    fun _ _ hx _ => hx⟩
  rw [List.append_nil]
  exact State.post_link_field v e

/-- A zone that is not open changes its state, with a report and what is sent for it. -/
theorem Judged.turn (hz : ∀ x, u.zones.look z = some x → x.state ≠ .normal ∧ x.state ≠ .alert) (f : Zone → Zone)
    (b : Bool) (e : Report) (m : List Frame) : Judged u
      { u with
        zones := u.zones.adjust z f, securedLine := b
        link := { (u.post e).link with field := u.link.field ++ m } } := by
  refine ⟨rfl, ⟨m, rfl⟩, fun ho => Link.post_urgentOverrun _ _ _ ho, fun ho => Link.post_routineOverrun _ _ _ ho,
    fun y x hx ho => ?_⟩
  have hne : y ≠ z := fun h => by
    obtain ⟨h1, h2⟩ := hz x (h ▸ hx)
    exact ho.elim h1 h2
  simpa [Table.look_adjust, hne] using hx

theorem Wiped.restoredTo (h : Wiped u) (hw : u.stations.wf = true) (z : Nat) : u.restoredTo z =
    { u with
      zones := u.zonesRestored z, securedLine := securedLevel (u.zonesRestored z)
      link := { (u.post (zoneReport .normal z)).link with
        field := u.link.field ++ u.stations.flatMap fun e => if e.2.loaded.zone = z then u.resumeFrames e.1 e.2 else [] } } := by
  have hself : (u.stations.mapRecords fun _ x => if x.loaded.zone = z then x.resumed else x) = u.stations := by
    have hx : ∀ e ∈ u.stations, (if e.2.loaded.zone = z then e.2.resumed else e.2) = e.2 := fun e he => by
      have hnil := h.transit e.1 e.2 (Table.look_of_mem hw he)
      split
      · rw [Station.resumed, hnil, List.map_nil, ← hnil]
      · rfl
    exact Table.mapRecords_eq_self hx
  rw [State.restoredTo, hself]

theorem Wiped.foldl_resolve (h : Wiped u) (l : List Nat) : l.foldl State.resolveRecord u = u := by
  induction l with
  | nil => rfl
  | cons a l ih => rw [List.foldl_cons, State.resolveRecord_of_none fun y hy => h.records a y hy, ih]

theorem Judged.judgeZone (h : Wiped u) (hw : u.stations.wf = true) (z : Nat) : Judged u (u.judgeZone z) := by
  unfold State.judgeZone
  cases hs : u.zoneState z with
  | none => exact .refl u
  | some v =>
    obtain ⟨x, hx, hv⟩ := Option.map_eq_some_iff.1 (show (u.zones.look z).map Zone.state = some v from hs)
    have hclosed : ∀ y, u.zones.look z = some y → v ≠ .normal → v ≠ .alert → y.state ≠ .normal ∧ y.state ≠ .alert :=
      fun y hy h1 h2 => by
        obtain rfl := Option.some.inj (hx.symm.trans hy)
        exact hv ▸ ⟨h1, h2⟩
    cases v with
    | shutdown =>
      dsimp only
      split
      · have hturn := Judged.turn (fun y hy => hclosed y hy (by simp) (by simp)) (fun x => { x with state := .secured })
          (securedLevel (u.zones.adjust z fun x => { x with state := .secured })) (zoneReport .secured z) []
        rw [List.append_nil, ← State.post_link_field u (zoneReport .secured z)] at hturn
        exact hturn
      · exact .refl u
    | restoring =>
      dsimp only
      split
      · have hrestored : Judged u (u.restoredTo z) := by
          rw [h.restoredTo hw]
          exact .turn (fun y hy => hclosed y hy (by simp) (by simp)) _ _ _ _
        have hwiped : Wiped (u.restoredTo z) := by
          rw [h.restoredTo hw]
          exact ⟨h.records, h.transit⟩
        rw [State.completeRestoration_eq hw hx, hwiped.foldl_resolve]
        split
        · exact hrestored
        · exact hrestored.post _
      · exact .refl u
    | normal | alert | secured => exact .refl u

theorem Judged.wiped (h : Judged u v) (hu : Wiped u) : Wiped v := by
  rw [h.rest]
  exact ⟨hu.records, hu.transit⟩

theorem Judged.judgeZones (h : Wiped u) (hw : u.stations.wf = true) : Judged u u.judgeZones := by
  refine foldl_induct (step := State.judgeZone) (fun _ v => Judged u v) (.refl u) fun _ z _ v _ hv => ?_
  exact hv.trans (.judgeZone (hv.wiped h) (by rw [hv.rest]; exact hw) z)

/-- Where every zone is open, there is nothing to judge. -/
theorem State.judgeZones_of_open (h : ∀ z, u.zoneState z = none ∨ u.zoneState z = some .normal ∨ u.zoneState z = some .alert) :
    u.judgeZones = u := by
  refine foldl_induct (step := State.judgeZone) (fun _ v => v = u) rfl fun _ z _ v _ hv => ?_
  subst hv
  unfold State.judgeZone
  rcases h z with hz | hz | hz <;> rw [hz]

end

end Sys2Proof.Machine
end

section
/-! The records that a restart resets (R20, R36, R83, R104, R107, R157, R176, R185, R199). -/
namespace Sys2Proof.Machine

section
variable {r s t u v w : State} {a b z k n : Nat} {l : List Nat} {x y : Aisle} {cause : StartCause}

theorem State.restartRecords_aisles (s : State) (cause : StartCause) :
    (s.restartRecords cause).aisles = s.aisles.mapRecords fun _ x => x.restart := rfl
theorem State.restartRecords_stations (s : State) (cause : StartCause) :
    (s.restartRecords cause).stations = s.stations.mapRecords fun _ x => x.restart := rfl
theorem State.restartRecords_concentrators (s : State) (cause : StartCause) :
    (s.restartRecords cause).concentrators = s.concentrators.mapRecords fun _ c => c.restart s.mode := rfl
theorem State.restartRecords_shutters (s : State) (cause : StartCause) :
    (s.restartRecords cause).shutters = s.shutters.mapRecords fun _ h => h.restart := rfl
theorem State.restartRecords_items (s : State) (cause : StartCause) :
    (s.restartRecords cause).items = s.items.mapRecords fun _ i => i.restart := rfl
theorem State.restartRecords_bins (s : State) (cause : StartCause) :
    (s.restartRecords cause).bins = (s.items.foldl releaseReturning s.bins).mapRecords fun _ b => b.restart := rfl
theorem State.restartRecords_link (s : State) (cause : StartCause) :
    (s.restartRecords cause).link = s.link.restart := rfl
theorem State.restartRecords_faults (s : State) (cause : StartCause) :
    (s.restartRecords cause).faults = s.faults.restart := rfl
theorem State.restartRecords_zones (s : State) (cause : StartCause) : (s.restartRecords cause).zones = s.zones := rfl
theorem State.restartRecords_setup (s : State) (cause : StartCause) : (s.restartRecords cause).setup =
    { s.setup with startCause := cause, haltedBefore := s.isHalted, replies := [], restartPending := false } := rfl

/-- The thicknesses of the items of a list that return to the bin (R36). -/
def returningTo (l : List (Nat × Item)) (n : Nat) : Nat :=
  ((l.filter fun e => decide (e.2.state = .returning) && decide (e.2.target = some n)).map fun e => e.2.thickness).sum

theorem returningTo_cons (e : Nat × Item) (l : List (Nat × Item)) (n : Nat) : returningTo (e :: l) n =
    (if e.2.state = .returning ∧ e.2.target = some n then e.2.thickness else 0) + returningTo l n := by
  unfold returningTo
  by_cases h : e.2.state = .returning ∧ e.2.target = some n <;> simp [h]

theorem look_releaseReturning (t : Table Bin) (e : Nat × Item) (n : Nat) : (releaseReturning t e).look n =
    (t.look n).map fun b => { b with reserved :=
      b.reserved - if e.2.state = .returning ∧ e.2.target = some n then e.2.thickness else 0 } := by
  unfold releaseReturning
  cases hs : e.2.state with
  | returning =>
    cases ht : e.2.target with
    | none => simp
    | some m =>
      dsimp only
      rw [Table.look_adjust]
      by_cases hm : n = m
      · subst hm
        simp [Bin.release]
      · have hne : m ≠ n := fun h => hm h.symm
        simp [hm, hne]
  | shelved | requested | picked | lent | held | overflow => simp

/-- The reservations of the returning items are released (R36). -/
theorem look_foldl_release (l : List (Nat × Item)) (t : Table Bin) (n : Nat) :
    (l.foldl releaseReturning t).look n = (t.look n).map fun b => { b with reserved := b.reserved - returningTo l n } := by
  induction l generalizing t with
  | nil => cases h : t.look n <;> simp [returningTo, h]
  | cons e l ih =>
    rw [List.foldl_cons, ih, look_releaseReturning, Option.map_map, returningTo_cons]
    simp only [Function.comp_def, Nat.sub_sub]

/-- A bin after a restart (R20, R36). -/
theorem State.restartRecords_bin (s : State) (cause : StartCause) (n : Nat) :
    (s.restartRecords cause).bins.look n =
      (s.bins.look n).map fun b => Bin.restart { b with reserved := b.reserved - returningTo s.items n } := by
  rw [State.restartRecords_bins, Table.look_mapRecords, look_foldl_release, Option.map_map]
  rfl

end

end Sys2Proof.Machine
end

section
/-! The state that a restart leaves (R83, R157, R176, R199). -/
namespace Sys2Proof.Machine

section
variable {r s t u v w : State} {a b z k n : Nat} {l : List Nat} {x y : Aisle} {cause : StartCause}

/-- An aisle after its records are reset (R20, R83). -/
def Aisle.reset (x : Aisle) : Aisle := x.restart.ended

theorem Restarted.mode (h : Restarted r u) : u.mode = r.mode := by rw [h.rest]

theorem Restarted.zones_eq (h : Restarted r u) : u.zones = r.zonesAfter := by rw [h.rest]

theorem Restarted.zoneState (h : Restarted r u) (z : Nat) : u.zoneState z =
    if r.mode = .commissioning then r.zoneState z else (r.zoneState z).map (zoneAfterRestart r.firePanel) := by
  unfold State.zoneState
  rw [h.zones_eq, State.zonesAfter]
  cases r.mode with
  | commissioning => rfl
  | inService =>
    dsimp only
    rw [Table.look_mapRecords, Option.map_map, Option.map_map]
    rfl

/-- The aisle that a restart makes of one with no job, no record and no wait (R83, R176): the entry actions leave it, unless
its zone stands in SHUTDOWN in COMMISSIONING. -/
theorem Restarted.aisle (h : Restarted r u) (hx : r.aisles.look a = some x) (hactive : x.crane.active = none)
    (hz : r.mode = .inService ∨ r.zoneState x.geom.zone ≠ some .shutdown) :
    ∃ y, u.RestartsTo x.ended y ∧ u.aisles.look a = some y := by
  obtain ⟨y, hy, hlook⟩ := h.aisles a x hx
  refine ⟨y, hy, hlook.trans ?_⟩
  by_cases hs : u.zoneState x.geom.zone = some .shutdown
  · rw [if_pos hs]
    have hin : u.mode ≠ .commissioning := fun hm => by
      rw [h.mode] at hm
      rcases hz with hz | hz
      · rw [hm] at hz
        cases hz
      · rw [h.zoneState, if_pos hm] at hs
        exact hz hs
    unfold State.RestartsTo at hy
    have hfixed : y.entered r.settings.stop = y := by
      split at hy
      · rw [hy, Aisle.entered]
        by_cases hf : x.ended.crane.state = .faulted <;> simp [hf]
      · rw [if_pos (.inl hs)] at hy
        rw [hy, Aisle.entered]
        simp [Aisle.ended, hactive]
    rw [hfixed]
  · rw [if_neg hs]

/-- The records of cranes and stations are reset (R83, R104). -/
structure Fresh (r : State) : Prop where
  tables : r.tablesLawful = true
  aisles : ∀ a x, r.aisles.look a = some x → x.queue = [] ∧ x.crane.active = none ∧ x.crane.staged = none
    ∧ x.crane.suspension = none ∧ x.crane.position = none ∧ x.crane.phase = none ∧ x.crane.deadline = none
    ∧ x.crane.stopWait = none ∧ x.crane.retryIndex = 0
  stations : ∀ st x, r.stations.look st = some x → x.inTransit = []
  halted : r.isHalted = false

theorem State.RestartsTo.crane (h : s.RestartsTo x y) : y.crane.suspension = x.crane.suspension
    ∧ y.crane.active = x.crane.active ∧ y.crane.staged = x.crane.staged := by
  unfold State.RestartsTo at h
  split at h
  · rw [h]
    exact ⟨rfl, rfl, rfl⟩
  · split at h
    · rw [h]
      exact ⟨rfl, rfl, rfl⟩
    · split at h
      · rw [h]
        exact ⟨rfl, rfl, rfl⟩
      · obtain ⟨k, rfl⟩ := h
        exact ⟨rfl, rfl, rfl⟩

theorem Aisle.entered_suspension (wait : Nat) (x : Aisle) (hs : x.crane.suspension = none) (ha : x.crane.active = none) :
    (x.entered wait).crane.suspension = none := by
  have hstop : (x.sentStop wait).crane.suspension = x.crane.suspension := x.unstaged_suspension
  unfold Aisle.entered
  cases hc : x.crane.state with
  | busy | parking => exact hstop.trans hs
  | idle => simp [hs]
  | stopped => simp [ha, hs]
  | stopping | faulted | outOfService => exact hs

theorem Restarted.wiped (h : Restarted r u) (hr : Fresh r) : Wiped u := by
  refine ⟨fun a y hy => ?_, fun st x hx => ?_⟩
  · obtain ⟨x, hx⟩ := Option.isSome_iff_exists.1 (Table.look_isSome_of_mem (h.numbers ▸ Table.mem_numbers_of_look hy))
    obtain ⟨w, hw, hlook⟩ := h.aisles a x hx
    obtain ⟨-, hactive, -, hsus, -⟩ := hr.aisles a x hx
    obtain ⟨h1, h2, -⟩ := hw.crane
    obtain rfl := Option.some.inj (hlook.symm.trans hy)
    split
    · exact Aisle.entered_suspension _ _ (h1.trans hsus) (h2.trans hactive)
    · exact h1.trans hsus
  · rw [h.stations, Table.look_mapRecords] at hx
    obtain ⟨w, hw, rfl⟩ := Option.map_eq_some_iff.1 hx
    have hnil := hr.stations st w hw
    split
    · simp [Station.paused, hnil]
    · exact hnil

theorem Restarted.stations_wf (h : Restarted r u) : u.stations.wf = true := ((tablesLawful_iff u).1 h.tables).2.1

/-- In IN_SERVICE the zones that meet the condition of R167 are SECURED, and no other zone changes. -/
theorem Restarted.judged (h : Restarted r u) (hm : r.mode = .inService) : u.judgeZones =
    { u with
      zones := u.zonesSecured, securedLine := securedLevel u.zonesSecured
      link := (u.posted ((u.zones.numbers.filter u.securable).map (zoneReport .secured))).link } := by
  refine State.judgeZones_eq ((tablesLawful_iff u).1 h.tables).2.2.1 (by rw [h.rest]) fun z hz => ?_
  rw [h.zoneState, if_neg (by simp [hm])] at hz
  obtain ⟨v, -, hv⟩ := Option.map_eq_some_iff.1 hz
  cases v <;> cases hf : r.firePanel <;> simp [zoneAfterRestart, hf] at hv

theorem Restarted.parksOnly (h : Restarted r u) : u.judgeZones.parksOnly := by
  have hj : u.judgeZones.mode = r.mode := ((Flow.refl u).judgeZones.mode).trans h.mode
  intro hm z hz
  rw [hj] at hm
  rw [h.judged hm] at hz
  have hlook : u.zonesSecured.look z = (u.zones.look z).map (u.zoneJudged z) := Table.look_mapRecords _ _ _
  have hz' : (u.zonesSecured.look z).map Zone.state = some .normal := hz
  rw [hlook, h.zones_eq, State.zonesAfter, hm] at hz'
  dsimp only at hz'
  rw [Table.look_mapRecords] at hz'
  cases hx : r.zones.look z with
  | none => simp [hx] at hz'
  | some x =>
    simp only [hx, Option.map_some, Option.some.injEq, State.zoneJudged] at hz'
    split at hz'
    · cases hz'
    · cases hv : x.state <;> cases hf : r.firePanel <;> simp [State.zoneRestarted, zoneAfterRestart, hv, hf] at hz'

end

end Sys2Proof.Machine
end

section
/-! The passes at the end of a restart (R62, R77, R167). -/
namespace Sys2Proof.Machine

section
variable {r s t u v w : State} {a b z k n : Nat} {l : List Nat} {x y : Aisle} {cause : StartCause}

/-- The state after the passes: zones are judged, and cranes that are PARKING take their PARK. -/
theorem Restarted.settled (h : Restarted r u) (hr : Fresh r) : u.settleWing =
    { u with
      zones := u.judgeZones.zones, securedLine := u.judgeZones.securedLine, aisles := u.settleWing.aisles
      link := { u.judgeZones.link with field := u.settleWing.link.field } } := by
  have hj := (Judged.judgeZones (h.wiped hr) h.stations_wf).rest
  have hp : u.settleWing = { u.judgeZones with
      aisles := u.settleWing.aisles
      link := { u.judgeZones.link with field := u.settleWing.link.field } } := h.parksOnly.passes
  refine hp.trans ?_
  generalize u.settleWing = t
  generalize u.judgeZones = v at hj
  rw [hj]

theorem Restarted.judged_aisles (h : Restarted r u) (hr : Fresh r) : u.judgeZones.aisles = u.aisles := by
  rw [(Judged.judgeZones (h.wiped hr) h.stations_wf).rest]

/-- The states of a zone after a restart in IN_SERVICE (R157). -/
theorem Restarted.zone_cases (h : Restarted r u) (hm : r.mode = .inService) (z : Nat) :
    u.zoneState z = none ∨ u.zoneState z = some .alert ∨ u.zoneState z = some .shutdown ∨ u.zoneState z = some .secured := by
  rw [h.zoneState, if_neg (by simp [hm])]
  cases r.zoneState z with
  | none => exact .inl rfl
  | some v => cases v <;> cases hf : r.firePanel <;> simp [zoneAfterRestart]

/-- A zone that the restart leaves in ALERT lets a crane park (R61). -/
theorem Restarted.eligible (h : Restarted r u) (hr : Fresh r) (hm : r.mode = .inService)
    (hz : u.zoneState x.geom.zone = some .alert) (hs : x.service = .inService) : u.judgeZones.parkEligible x = true := by
  have hj := Judged.judgeZones (h.wiped hr) h.stations_wf
  obtain ⟨q, hq, hstate⟩ := Option.map_eq_some_iff.1 (show (u.zones.look x.geom.zone).map Zone.state = some .alert from hz)
  have hzone : u.judgeZones.zoneState x.geom.zone = some .alert := by
    unfold State.zoneState
    rw [hj.kept _ q hq (.inr hstate), Option.map_some, hstate]
  have hhalted : u.judgeZones.isHalted = false := by
    rw [hj.rest, h.rest]
    exact hr.halted
  have hmode : u.judgeZones.mode = .inService := by
    rw [hj.rest]
    exact h.mode.trans hm
  exact State.parkEligible_iff.2 ⟨.inl hs, hhalted, hmode, .inr (.inl hzone)⟩

/-- An aisle whose crane has its PARK after a restart (R77, R83). -/
def Aisle.restartParked (x : Aisle) (k : Nat) : Aisle :=
  { x.ended with
    queue := []
    crane := { x.crane with
      state := .parking, phase := some .toDest, active := some (parkJob k), retryIndex := 0
      deadline := some
        { left := deadlineFor x.geom (leg x.geom (positionPoint x.geom x.crane.position) frontPort), running := true } } }

theorem Aisle.unstaged_of_none (h : x.crane.staged = none) : x.unstaged = x := by rw [Aisle.unstaged, h]

/-- The PARK that a restart creates becomes active in a zone that it leaves in ALERT. -/
theorem Restarted.activates (h : Restarted r u) (hr : Fresh r) (hm : r.mode = .inService) (hx : r.aisles.look a = some x)
    (hz : u.zoneState x.geom.zone = some .alert) (hs : x.service = .inService) :
    ∃ k, u.settleWing.aisles.look a = some (x.restartParked k)
      ∧ ∀ d, r.craneAddress a = some d → fieldFrame d (.park k) ∈ u.settleWing.link.field.drop r.link.field.length := by
  obtain ⟨hqueue, hactive, hstaged, -⟩ := hr.aisles a x hx
  obtain ⟨y, hR, hlook⟩ := h.aisle hx hactive (.inl hm)
  have hended : x.ended.service = .inService := by simp [Aisle.ended, Service.restarted, hs]
  obtain ⟨k, rfl⟩ : ∃ k, y = x.ended.parked k := by
    unfold State.RestartsTo at hR
    rwa [if_neg (by simp [hended]), if_neg (by simp [h.mode, hm]),
      if_neg (by simp [show x.ended.geom = x.geom from rfl, hz])] at hR
  have hzone : u.zoneState (x.ended.parked k).geom.zone = some .alert := hz
  have hwf : u.judgeZones.aisles.wf = true := by
    rw [h.judged_aisles hr]
    exact ((tablesLawful_iff u).1 h.tables).1
  have hlookj : u.judgeZones.aisles.look a = some (x.ended.parked k) := by
    rw [h.judged_aisles hr]
    exact hlook
  obtain ⟨hfinal, l, m, hfield⟩ := h.parksOnly.passes_activates hwf hlookj rfl hactive hstaged (q := []) (k := k)
    (by simp [Aisle.parked, Aisle.ended, hqueue]) (by simp) (h.eligible hr hm hzone hended)
  refine ⟨k, hfinal, fun d hd => ?_⟩
  have haddress : u.judgeZones.craneAddress a = r.craneAddress a := by
    rw [(Judged.judgeZones (h.wiped hr) h.stations_wf).rest, h.rest]
    rfl
  obtain ⟨m₁, hm₁⟩ := (Judged.judgeZones (h.wiped hr) h.stations_wf).sent
  obtain ⟨m₂, hm₂, -⟩ := h.sent
  have hsent : u.settleWing.link.field = _ := hfield
  rw [hsent, hm₁, hm₂, haddress, hd]
  simp only [List.append_assoc, List.drop_left]
  simp

/-- Where no PARK can become active, the aisle stands as the restart has set it. -/
theorem Restarted.stands (h : Restarted r u) (hr : Fresh r) (hx : r.aisles.look a = some x)
    (hz : r.mode = .inService ∨ r.zoneState x.geom.zone ≠ some .shutdown)
    (hno : ¬(r.mode = .inService ∧ u.zoneState x.geom.zone = some .alert ∧ x.service = .inService)) :
    ∃ y, u.RestartsTo x.ended y ∧ u.settleWing.aisles.look a = some y := by
  obtain ⟨hqueue, hactive, hstaged, -⟩ := hr.aisles a x hx
  obtain ⟨y, hR, hlook⟩ := h.aisle hx hactive hz
  refine ⟨y, hR, ?_⟩
  obtain ⟨-, -, hys⟩ := hR.crane
  have hself : y.unstaged = y := Aisle.unstaged_of_none (hys.trans hstaged)
  have hwf : u.judgeZones.aisles.wf = true := by
    rw [h.judged_aisles hr]
    exact ((tablesLawful_iff u).1 h.tables).1
  rw [← h.judged_aisles hr] at hlook
  by_cases hc : y.crane.state = .parking
  · obtain ⟨v, hv, hvx, hafter⟩ := h.parksOnly.passes_park hwf hlook hc
    rw [hself] at hvx
    refine (hafter.others a rfl).trans ?_
    rw [State.activatePark_of_not hvx (.inr ?_)]
    · exact hvx
    unfold State.RestartsTo at hR
    split at hR
    · rw [hR] at hc
      dsimp only at hc
      split at hc <;> cases hc
    split at hR
    · refine .inr ?_
      rw [hR]
      simp [Aisle.ended, hqueue]
    split at hR
    · rw [hR] at hc
      cases hc
    · refine .inl (Bool.eq_false_iff.2 fun he => hno ?_)
      rename_i hservice hcom hzone
      have hm : r.mode = .inService := by
        cases hm : r.mode with
        | inService => rfl
        | commissioning => exact absurd (h.mode.trans hm) hcom
      have hs : x.service = .inService := by
        cases hv : x.service <;> simp [Aisle.ended, Service.restarted, hv] at hservice ⊢
      have hgeom : y.geom = x.geom := by
        obtain ⟨k, rfl⟩ := hR
        rfl
      have hvzone : v.zoneState y.geom.zone = u.judgeZones.zoneState x.geom.zone := by
        rw [hgeom, hv.rest]
        rfl
      obtain ⟨-, -, -, hopen⟩ := State.parkEligible_iff.1 he
      refine ⟨hm, ?_, hs⟩
      rcases h.zone_cases hm x.geom.zone with hnone | halert | hshut | hsec
      · have hjnone : u.judgeZones.zoneState x.geom.zone = none := by
          rw [h.judged hm]
          simp [State.zoneState, State.zonesSecured, Option.map_eq_none_iff.1 (show (u.zones.look _).map _ = none from hnone)]
        rw [hvzone, hjnone] at hopen
        simp at hopen
      · exact halert
      · exact absurd (.inl hshut) hzone
      · exact absurd (.inr hsec) hzone
  · have hfinal := h.parksOnly.passes_look hwf hlook hc
    rw [hself] at hfinal
    exact hfinal

end

end Sys2Proof.Machine
end

section
/-! The parts of the state that a restart leaves, one by one (R157, R167, R199). -/
namespace Sys2Proof.Machine

section
variable {r s t u v w : State} {a b z k n : Nat} {l : List Nat} {x y : Aisle} {cause : StartCause}

theorem Restarted.shut_iff (h : Restarted r u) (hm : r.mode = .inService) {q : Zone} (hq : r.zones.look z = some q) :
    u.zoneState z = some .shutdown ↔ q.state = .shutdown ∨ q.state = .restoring ∨ q.state ≠ .secured ∧ r.firePanel = true := by
  have hr : r.zoneState z = some q.state := congrArg (Option.map Zone.state) hq
  rw [h.zoneState, if_neg (by simp [hm]), hr]
  cases q.state <;> cases hf : r.firePanel <;> simp [zoneAfterRestart]

/-- What the entry actions and the cranes have sent is sent. -/
theorem Restarted.settled_sent (h : Restarted r u) (hr : Fresh r) : ∃ m, u.settleWing.link.field = u.link.field ++ m := by
  obtain ⟨m, hm⟩ := (Judged.judgeZones (h.wiped hr) h.stations_wf).sent
  obtain ⟨m', hm'⟩ := ((Passes.withdrawAll u.judgeZones).trans (.lookAll _)).sent
  exact ⟨m ++ m', hm'.trans (by rw [hm, List.append_assoc])⟩

theorem Restarted.settled_zones (h : Restarted r u) (hr : Fresh r) : u.settleWing.zones = u.judgeZones.zones := by
  rw [h.settled hr]

/-- In IN_SERVICE the zone is restarted, and SECURED where it meets the condition of R167. -/
theorem Restarted.zone_look (h : Restarted r u) (hr : Fresh r) (hm : r.mode = .inService) {q : Zone}
    (hq : r.zones.look z = some q) : u.settleWing.zones.look z = some (u.zoneJudged z (r.zoneRestarted z q)) := by
  rw [h.settled_zones hr, h.judged hm]
  have hz : u.zones = r.zones.mapRecords r.zoneRestarted := by rw [h.zones_eq, State.zonesAfter, hm]
  simp [State.zonesSecured, hz, hq]

theorem Restarted.settled_condition (h : Restarted r u) (hr : Fresh r) (z : Nat) :
    u.settleWing.securedCondition z = u.securedCondition z := by
  have ht : u.judgeZones.tablesLawful = true := (Flow.refl u).judgeZones.tables.trans h.tables
  refine (h.parksOnly.passes_condition ht z).trans ?_
  rw [(Judged.judgeZones (h.wiped hr) h.stations_wf).rest]
  rfl

theorem Restarted.settled_causes (h : Restarted r u) (hr : Fresh r) : u.settleWing.causesOf = r.causesOf := by
  refine State.causesOf_congr ?_
  rw [h.settled hr, h.rest]

/-- A zone after a restart in IN_SERVICE (R157, R167). -/
theorem Restarted.zone_final (h : Restarted r u) (hr : Fresh r) (hm : r.mode = .inService) {q : Zone}
    (hq : r.zones.look z = some q) : u.settleWing.zones.look z =
      some (if (q.state = .normal ∨ q.state = .alert) ∧ r.firePanel = false then
          { q with state := .alert, causes := u.settleWing.causesOf z true, windowLeft := some q.window }
        else
          { q with
            state := if q.state = .secured ∨ u.settleWing.securedCondition z = true then .secured else .shutdown
            causes := u.settleWing.causesOf z true, windowLeft := none }) := by
  have hzs : u.zoneState z = some (zoneAfterRestart r.firePanel q.state) := by
    rw [h.zoneState, if_neg (by simp [hm]), show r.zoneState z = some q.state from congrArg (Option.map Zone.state) hq]
    rfl
  rw [h.zone_look hr hm hq, h.settled_causes hr, h.settled_condition hr, State.zoneJudged, State.securable, hzs,
    State.zoneRestarted]
  cases q.state <;> cases r.firePanel <;> cases u.securedCondition z <;> simp [zoneAfterRestart]

/-- The secured line stands as the zones have it (R168). -/
theorem Restarted.settled_secured (h : Restarted r u) : u.settleWing.securedLine = securedLevel u.settleWing.zones := by
  have hsec : u.securedLawful = true := decide_eq_true (by rw [h.rest])
  exact of_decide_eq_true ((Flow.refl u).settleWing.secured hsec)

theorem Restarted.settled_stations (h : Restarted r u) (hr : Fresh r) (ht : r.stations.wf = true) :
    u.settleWing.stations = r.stations := by
  have hself : ∀ e ∈ r.stations, (if u.zoneState e.2.loaded.zone = some .shutdown then e.2.paused else e.2) = e.2 := by
    intro e he
    have hnil := hr.stations e.1 e.2 (Table.look_of_mem ht he)
    split
    · rw [Station.paused, hnil, List.map_nil, ← hnil]
    · rfl
  have hu : u.settleWing.stations = u.stations := by rw [h.settled hr]
  exact hu.trans (h.stations.trans (Table.mapRecords_eq_self hself))

theorem Restarted.settled_shutter (h : Restarted r u) (hr : Fresh r) (hm : r.mode = .inService) {g : Shutter} {q : Zone}
    (hg : r.shutters.look n = some g) (hq : r.zones.look g.zone = some q) : u.settleWing.shutters.look n =
      some (if q.state = .shutdown ∨ q.state = .restoring ∨ q.state ≠ .secured ∧ r.firePanel = true then
        g.shut (r.mouthOccupiedAt n) r.settings.shutter else g) := by
  have hlook : u.settleWing.shutters = u.shutters := by rw [h.settled hr]
  rw [hlook, h.shutters, Table.look_mapRecords, hg, Option.map_some]
  simp only [h.shut_iff hm hq]

/-! ### The queues of reports -/

/-- The report queues of a link with their overrun marks (R190). -/
def Link.reports (l : Link) : List Report × Bool × List RoutineEntry × Bool :=
  (l.urgent, l.urgentOverrun, l.routine, l.routineOverrun)

theorem Link.post_reports {l m : Link} (h : l.reports = m.reports) (c : ReportClass) (e : Report) :
    (l.post c e).reports = (m.post c e).reports := by
  simp only [Link.reports, Prod.mk.injEq] at h
  obtain ⟨hu, huo, hr, hro⟩ := h
  cases c
  · simp only [Link.post, Link.joinUrgent, hu]
    split <;> simp [Link.reports, huo, hr, hro]
  · simp only [Link.post, Link.joinRoutine, hr]
    split <;> simp [Link.reports, hu, huo, hro]

theorem State.posted_reports (hl : t.link.reports = s.link.reports) (hc : t.classes = s.classes) (l : List Report) :
    (t.posted l).link.reports = (s.posted l).link.reports := by
  induction l generalizing s t with
  | nil => exact hl
  | cons e l ih =>
    refine ih (t := t.post e) (s := s.post e) ?_ hc
    rw [State.post, hc]
    exact Link.post_reports hl _ e

/-- The reports of a restart in IN_SERVICE. -/
theorem Restarted.settled_reports (h : Restarted r u) (hr : Fresh r) (hm : r.mode = .inService) :
    u.settleWing.link.reports =
      (r.posted (r.reportsAfter ++ (u.zones.numbers.filter u.securable).map (zoneReport .secured))).link.reports := by
  have hlink : u.link = { (r.posted r.reportsAfter).link with field := u.link.field } := congrArg State.link h.rest
  have hclasses : u.classes = (r.posted r.reportsAfter).classes := by rw [State.posted_rest r, h.rest]
  have hposted := State.posted_with_field hlink hclasses ((u.zones.numbers.filter u.securable).map (zoneReport .secured))
  rw [State.posted_append]
  have hset : u.settleWing.link = { u.judgeZones.link with field := u.settleWing.link.field } := congrArg State.link (h.settled hr)
  have hj : u.judgeZones.link = (u.posted ((u.zones.numbers.filter u.securable).map (zoneReport .secured))).link := by
    rw [h.judged hm]
  rw [hset, hj, hposted]
  rfl

/-- The reports of a restart in COMMISSIONING, where every zone is open. -/
theorem Restarted.settled_reports_open (h : Restarted r u) (hr : Fresh r) (hm : r.mode = .commissioning)
    (ho : ∀ z, r.zoneState z = none ∨ r.zoneState z = some .normal ∨ r.zoneState z = some .alert) :
    u.settleWing.link.reports = (r.posted r.reportsAfter).link.reports := by
  have hset : u.settleWing.link = { u.judgeZones.link with field := u.settleWing.link.field } := congrArg State.link (h.settled hr)
  have hj : u.judgeZones = u := State.judgeZones_of_open fun z => by
    rw [h.zoneState, if_pos hm]
    exact ho z
  have hlink : u.link = { (r.posted r.reportsAfter).link with field := u.link.field } := congrArg State.link h.rest
  rw [hset, hj, hlink]
  rfl

/-- A pass over the numbers of a list of records. -/
theorem filter_map_eq_filterMap {α β : Type} (l : List (Nat × α)) {p : Nat → Bool} {q : Nat × α → Prop} [DecidablePred q]
    (f : Nat → β) (h : ∀ e ∈ l, p e.1 = true ↔ q e) :
    ((l.map fun e => e.1).filter p).map f = l.filterMap fun e => if q e then some (f e.1) else none := by
  induction l with
  | nil => rfl
  | cons e l ih =>
    have hrest := ih fun e he => h e (List.mem_cons_of_mem _ he)
    have hfirst := h e List.mem_cons_self
    by_cases hq : q e
    · simp [hq, hfirst.2 hq, hrest]
    · simp [hq, Bool.eq_false_iff.2 (fun hp => hq (hfirst.1 hp)), hrest]

theorem State.changesAfter_eq (hm : r.mode = .inService) : r.changesAfter = r.zones.filterMap fun e =>
    if decide (e.2.state = .shutdown) || decide (e.2.state = .restoring) || (decide (e.2.state ≠ .secured) && r.firePanel) then
      (if e.2.state = .shutdown then none else some (zoneReport .shutdown e.1))
    else if e.2.state = .normal then some (zoneReport .alert e.1) else none := by
  rw [← flatMap_toList_eq_filterMap, State.changesAfter, hm]
  refine congrArg (fun f => List.flatMap f r.zones) (funext fun e => ?_)
  rw [State.zoneChange]
  cases e.2.state <;> cases r.firePanel <;> simp [zoneAfterRestart]

/-- The zones that are SECURED at a restart. -/
theorem Restarted.secured_eq (h : Restarted r u) (hr : Fresh r) (hm : r.mode = .inService) (hw : r.zones.wf = true) :
    (u.zones.numbers.filter u.securable).map (zoneReport .secured) = r.zones.filterMap fun e =>
      if e.2.state ≠ .secured ∧ u.settleWing.zoneState e.1 = some .secured then some (zoneReport .secured e.1) else none := by
  have hnum : u.zones.numbers = r.zones.map fun e => e.1 := by
    rw [h.zones_eq, State.zonesAfter, hm]
    exact Table.numbers_mapRecords _ _
  rw [hnum]
  refine filter_map_eq_filterMap r.zones (zoneReport .secured) fun e he => ?_
  have hq : r.zones.look e.1 = some e.2 := Table.look_of_mem hw he
  have hzs : u.zoneState e.1 = some (zoneAfterRestart r.firePanel e.2.state) := by
    rw [h.zoneState, if_neg (by simp [hm]), show r.zoneState e.1 = some e.2.state from congrArg (Option.map Zone.state) hq]
    rfl
  rw [State.zoneState, h.zone_look hr hm hq, State.zoneJudged, State.securable, hzs, Option.map_some, State.zoneRestarted]
  cases e.2.state <;> cases r.firePanel <;> cases u.securedCondition e.1 <;> simp [zoneAfterRestart]

end

end Sys2Proof.Machine
end

section
/-! A restart converts every record (O30). -/
namespace Sys2Proof.Machine

section
variable {r s t u v w : State} {a b z k n : Nat} {l : List Nat} {x y : Aisle} {cause : StartCause} {c : Instr}

theorem State.restartRecords_fresh (ht : s.tablesLawful = true) (cause : StartCause) : Fresh (s.restartRecords cause) := by
  refine ⟨restartRecords_tables s cause ht, fun a x hx => ?_, fun st x hx => ?_, rfl⟩
  · rw [State.restartRecords_aisles, Table.look_mapRecords] at hx
    obtain ⟨y, -, rfl⟩ := Option.map_eq_some_iff.1 hx
    exact ⟨rfl, rfl, rfl, rfl, rfl, rfl, rfl, rfl, rfl⟩
  · rw [State.restartRecords_stations, Table.look_mapRecords] at hx
    obtain ⟨y, -, rfl⟩ := Option.map_eq_some_iff.1 hx
    rfl

/-- A restart resets the records, converts zones and cranes, and settles the wing. -/
theorem State.restart_spec (ht : s.tablesLawful = true) (cause : StartCause) :
    ∃ u, Restarted (s.restartRecords cause) u ∧ s.restart cause = u.settleWing := by
  have hr := restartRecords_tables s cause ht
  obtain ⟨b, hb⟩ := State.restartFrom_eq hr
  exact ⟨_, State.entriesRestarted_spec hr b, hb⟩

theorem State.restart_waiting (s : State) (cause : StartCause) : (s.restart cause).link.waiting = s.link.waiting := by
  have hset := (flow_restart s cause).setup
  rw [State.restartRecords_setup] at hset
  generalize s.restart cause = t at hset
  exact congrArg Setup.waiting hset

theorem exec_restart (hw : s.link.waiting = [])
    (hc : (c = .resetLineAsserted ∧ cause = .resetLine)
      ∨ (c = .restartTakesEffect ∧ cause = .restartOrder ∧ s.link.restartPending = true ∧ s.link.replies = [])) :
    exec c s = .next (s.restart cause) := by
  have hdrain : (s.restart cause).drainPort = s.restart cause :=
    State.drainPort_of_waiting_nil ((s.restart_waiting cause).trans hw)
  rcases hc with ⟨rfl, rfl⟩ | ⟨rfl, rfl, hp, hn⟩
  · exact congrArg Host.Outcome.next hdrain
  · refine congrArg Host.Outcome.next ((if_pos ?_).trans hdrain)
    simp [hp, hn]

/-- A bin after a restart (R20, R36). -/
theorem Bin.restart_eq (b : Bin) : b.restart =
    { b with
      trip := none, next := none, pendingHome := none
      state := match b.state with
        | .called => .stored
        | .onCrane | .inTransit | .inLane | .lockedOut | .homebound => .inDoubt
        | .stored | .missing | .inDoubt => b.state } := by
  unfold Bin.restart
  cases b.state <;> rfl

theorem Shutter.restart_eq (h : Shutter) : h.restart =
    { h with wait := none, state := if h.state = .waitingMouth then .opened else h.state } := by
  unfold Shutter.restart
  cases h.state <;> rfl

theorem State.restartRecords_mouth (s : State) (cause : StartCause) (n : Nat) :
    (s.restartRecords cause).mouthOccupiedAt n = s.mouthOccupiedAt n :=
  State.mouthOccupiedAt_mapRecords (f := fun _ x => x.restart) (fun _ _ => rfl) (fun _ _ => rfl) (State.restartRecords_stations s cause) n

/-- The records that a restart sets up or leaves (R199). -/
theorem State.restarted_setup {t : State} (h : t.setup =
    { s.setup with startCause := cause, haltedBefore := s.isHalted, replies := [], restartPending := false }) :
    t.startCause = cause ∧ t.haltedBefore = s.isHalted ∧ t.mode = s.mode ∧ t.addresses = s.addresses
      ∧ t.classes = s.classes ∧ t.settings = s.settings ∧ t.firePanel = s.firePanel ∧ t.keyLine = s.keyLine
      ∧ t.nextRequest = s.nextRequest ∧ t.pending = s.pending
      ∧ t.link.replies = [] ∧ t.link.restartPending = false ∧ t.link.waiting = s.link.waiting ∧ t.link.sent = s.link.sent := by
  simp only [State.setup, Setup.mk.injEq] at h
  obtain ⟨hmode, hcause, hbefore, haddresses, hclasses, hsettings, hpanel, hkey, hnext, hreplies, hwaiting, hpending, hsent,
    hqueue⟩ := h
  exact ⟨hcause, hbefore, hmode, haddresses, hclasses, hsettings, hpanel, hkey, hnext, hqueue, hreplies, hpending, hwaiting,
    hsent⟩

theorem State.posted_overrun (s : State) (l : List Report) :
    (s.link.urgentOverrun = true → (s.posted l).link.urgentOverrun = true)
    ∧ (s.link.routineOverrun = true → (s.posted l).link.routineOverrun = true) := by
  induction l generalizing s with
  | nil => exact ⟨id, id⟩
  | cons e l ih =>
    obtain ⟨hu, hr⟩ := ih (s.post e)
    exact ⟨fun h => hu (Link.post_urgentOverrun _ _ _ h), fun h => hr (Link.post_routineOverrun _ _ _ h)⟩

/-- The overrun marks stay set (R199). -/
theorem Restarted.settled_overrun (h : Restarted r u) (hr : Fresh r) :
    (r.link.urgentOverrun = true → u.settleWing.link.urgentOverrun = true)
    ∧ (r.link.routineOverrun = true → u.settleWing.link.routineOverrun = true) := by
  have hj := Judged.judgeZones (h.wiped hr) h.stations_wf
  obtain ⟨hu, hro⟩ := r.posted_overrun r.reportsAfter
  have hlink : u.link = { (r.posted r.reportsAfter).link with field := u.link.field } := congrArg State.link h.rest
  have hset : u.settleWing.link = { u.judgeZones.link with field := u.settleWing.link.field } := congrArg State.link (h.settled hr)
  rw [hset]
  refine ⟨fun ho => hj.urgent ?_, fun ho => hj.routine ?_⟩
  · rw [hlink]
    exact hu ho
  · rw [hlink]
    exact hro ho

/-- What a restart makes of an aisle (R20, R83, R176). -/
theorem Restarted.aisle_final (h : Restarted r u) (hr : Fresh r) (hx : r.aisles.look a = some x)
    (hz : r.mode = .inService ∨ r.zoneState x.geom.zone ≠ some .shutdown) : ∃ y, u.settleWing.aisles.look a = some y
      ∧ y.geom = x.geom ∧ y.retry = x.retry ∧ y.service = x.service.restarted ∧ y.crane.position = none
      ∧ y.crane.staged = none ∧ y.crane.suspension = none ∧ y.crane.stopWait = none ∧ y.crane.retryIndex = 0
      ∧ (y.crane.state ≠ .parking ∨ r.mode = .commissioning →
          y.queue = [] ∧ y.crane.active = none ∧ y.crane.phase = none ∧ y.crane.deadline = none)
      ∧ (r.mode = .inService → y.crane.state = .parking → (r.zoneState x.geom.zone).isSome = true →
          ∃ k, y.queue = [] ∧ y.crane.active = some (parkJob k) ∧ y.crane.phase = some .toDest
            ∧ y.crane.deadline = some
                { left := deadlineFor x.geom
                    (leg x.geom { bay := x.geom.bays, level := x.geom.levels } { bay := 0, level := 1 })
                  running := true }
            ∧ ∀ d, r.craneAddress a = some d → fieldFrame d (.park k) ∈ u.settleWing.link.field.drop r.link.field.length)
      ∧ y.crane.state =
          if x.service ≠ .inService then (if x.crane.state = .faulted then .faulted else .outOfService)
          else if r.mode = .commissioning then .parking
          else match r.zoneState x.geom.zone with
            | some .shutdown | some .secured | some .restoring => .stopped
            | some .normal | some .alert => if r.firePanel then .stopped else .parking
            | none => .parking := by
  obtain ⟨hqueue, hactive, hstaged, hsus, hpos, hphase, hdeadline, hwait, hretry⟩ := hr.aisles a x hx
  have hzone := h.zoneState x.geom.zone
  by_cases hp : r.mode = .inService ∧ u.zoneState x.geom.zone = some .alert ∧ x.service = .inService
  · obtain ⟨hm, halert, hs⟩ := hp
    obtain ⟨k, hlook, hsent⟩ := h.activates hr hm hx halert hs
    refine ⟨_, hlook, rfl, rfl, rfl, hpos, hstaged, hsus, hwait, rfl, fun hc => ?_, fun _ _ _ => ⟨k, rfl, rfl, rfl, ?_, hsent⟩, ?_⟩
    · rcases hc with hc | hc
      · exact absurd rfl hc
      · rw [hm] at hc
        cases hc
    · simp [Aisle.restartParked, hpos, positionPoint, frontPort]
    · rw [if_neg (by simp [hm]), halert] at hzone
      obtain ⟨v, hv, hafter⟩ := Option.map_eq_some_iff.1 hzone.symm
      rw [if_neg (by simp [hs]), if_neg (by simp [hm]), hv]
      cases v <;> cases hf : r.firePanel <;> simp [zoneAfterRestart, hf] at hafter <;> rfl
  · obtain ⟨y, hR, hlook⟩ := h.stands hr hx hz hp
    refine ⟨y, hlook, ?_⟩
    unfold State.RestartsTo at hR
    split at hR
    next hservice =>
      have hs : x.service ≠ .inService := fun hs => by simp [Aisle.ended, Service.restarted, hs] at hservice
      have hnot : y.crane.state ≠ .parking := by
        rw [hR]
        dsimp only
        split <;> simp
      refine ⟨by rw [hR]; rfl, by rw [hR]; rfl, by rw [hR]; rfl, by rw [hR]; exact hpos, by rw [hR]; exact hstaged,
        by rw [hR]; exact hsus, by rw [hR]; exact hwait, by rw [hR]; exact hretry,
        fun _ => by rw [hR]; exact ⟨hqueue, hactive, hphase, hdeadline⟩, fun _ hc => absurd hc hnot, ?_⟩
      rw [if_pos hs, hR]
      rfl
    next hservice =>
      have hs : x.service = .inService := by
        cases hv : x.service <;> simp [Aisle.ended, Service.restarted, hv] at hservice ⊢
      rw [h.mode] at hR
      rw [if_neg (by simp [hs])]
      split at hR
      next hm =>
        rw [if_pos hm]
        rw [hR]
        refine ⟨rfl, rfl, rfl, hpos, hstaged, hsus, hwait, hretry, fun _ => ⟨hqueue, hactive, hphase, hdeadline⟩,
          fun hin => ?_, rfl⟩
        rw [hm] at hin
        cases hin
      next hm =>
        have hin : r.mode = .inService := by
          cases hv : r.mode with
          | inService => rfl
          | commissioning => exact absurd hv hm
        rw [if_neg hm] at hzone ⊢
        split at hR
        next hshut =>
          rw [hR]
          refine ⟨rfl, rfl, rfl, hpos, hstaged, hsus, hwait, hretry, fun _ => ⟨hqueue, hactive, hphase, hdeadline⟩,
            (fun _ hc => by cases hc), ?_⟩
          have hshut : u.zoneState x.geom.zone = some .shutdown ∨ u.zoneState x.geom.zone = some .secured := hshut
          rw [hzone] at hshut
          cases hv : r.zoneState x.geom.zone with
          | none => simp [hv] at hshut
          | some v => cases v <;> cases hf : r.firePanel <;> simp [hv, zoneAfterRestart, hf] at hshut <;> rfl
        next hshut =>
          obtain ⟨k, rfl⟩ := hR
          have hnone : r.zoneState x.geom.zone = none := by
            rcases h.zone_cases hin x.geom.zone with hv | hv | hv | hv
            · rw [hzone] at hv
              exact Option.map_eq_none_iff.1 hv
            · exact absurd ⟨hin, hv, hs⟩ hp
            · exact absurd (.inl hv) hshut
            · exact absurd (.inr hv) hshut
          rw [hnone]
          exact ⟨rfl, rfl, rfl, hpos, hstaged, hsus, hwait, hretry, fun hc => hc.elim (absurd rfl) fun hc => absurd hc hm,
            (fun _ _ hc => by cases hc), rfl⟩

end

end Sys2Proof.Machine
end

section
/-! O30: what a restart converts, resets and keeps (R199). -/
namespace Sys2Proof.Machine

section
variable {r s t u v w : State} {a b z k n : Nat} {l : List Nat} {x y : Aisle} {cause : StartCause} {c : Instr}

theorem State.restartRecords_mode (s : State) (cause : StartCause) : (s.restartRecords cause).mode = s.mode := rfl
theorem State.restartRecords_firePanel (s : State) (cause : StartCause) :
    (s.restartRecords cause).firePanel = s.firePanel := rfl
theorem State.restartRecords_zoneState (s : State) (cause : StartCause) :
    (s.restartRecords cause).zoneState = s.zoneState := rfl
theorem State.restartRecords_craneAddress (s : State) (cause : StartCause) :
    (s.restartRecords cause).craneAddress = s.craneAddress := rfl
theorem State.restartRecords_field (s : State) (cause : StartCause) :
    (s.restartRecords cause).link.field = s.link.field := rfl
theorem State.restartRecords_settings (s : State) (cause : StartCause) :
    (s.restartRecords cause).settings = s.settings := rfl
theorem State.restartRecords_aisle (hx : s.aisles.look a = some x) (cause : StartCause) :
    (s.restartRecords cause).aisles.look a = some x.restart := by
  rw [State.restartRecords_aisles, Table.look_mapRecords, hx]
  rfl

/-- The marks of a zone whose entry actions a restart makes (R157). -/
theorem any_shut {f : Bool} {o : Option Zone} (h : (o.any fun x => decide (x.state = .shutdown) || decide (x.state = .restoring)
      || (decide (x.state ≠ .secured) && f)) = true) :
    ∃ q, o = some q ∧ (q.state = .shutdown ∨ q.state = .restoring ∨ q.state ≠ .secured ∧ f = true) := by
  obtain ⟨q, hq, hs⟩ := (Option.any_eq_true _ _).1 h
  exact ⟨q, hq, by simpa [or_assoc] using hs⟩

theorem Restarted.stop_sent (h : Restarted r u) (hr : Fresh r) (hm : r.mode = .inService) (hx : r.aisles.look a = some x)
    (hs : x.service = .inService) {q : Zone} (hq : r.zones.look x.geom.zone = some q)
    (hshut : q.state = .shutdown ∨ q.state = .restoring ∨ q.state ≠ .secured ∧ r.firePanel = true) {d : Nat}
    (hd : r.craneAddress a = some d) : fieldFrame d .stop ∈ u.settleWing.link.field.drop r.link.field.length := by
  obtain ⟨m, hm', hsent, -⟩ := h.sent
  obtain ⟨m', hm''⟩ := h.settled_sent hr
  have hu : u.zoneState x.geom.zone = some .shutdown := (h.shut_iff hm hq).2 hshut
  have haddress : u.craneAddress a = some d := by
    rw [← hd, h.rest]
    rfl
  have hmem : fieldFrame d .stop ∈ m := hsent a x hx _ (by
    rw [State.restartFrames, if_pos ⟨by simp [Aisle.ended, Service.restarted, hs], h.mode.trans hm, hu⟩, haddress]
    simp)
  rw [hm'', hm', List.append_assoc, List.drop_left]
  exact List.mem_append_left _ hmem

theorem Restarted.closeFrames_sent (h : Restarted r u) (hr : Fresh r) (hm : r.mode = .inService) {st : Nat} {x : Station}
    (hx : r.stations.look st = some x) {q : Zone} (hq : r.zones.look x.loaded.zone = some q)
    (hshut : q.state = .shutdown ∨ q.state = .restoring ∨ q.state ≠ .secured ∧ r.firePanel = true) {f : Frame}
    (hf : f ∈ x.closeFrames) : f ∈ u.settleWing.link.field.drop r.link.field.length := by
  obtain ⟨m, hm', -, hsent⟩ := h.sent
  obtain ⟨m', hm''⟩ := h.settled_sent hr
  have hmem : f ∈ m := hsent st x hx ((h.shut_iff hm hq).2 hshut) f hf
  rw [hm'', hm', List.append_assoc, List.drop_left]
  exact List.mem_append_left _ hmem

/-- The ZONE_STATE reports of a restart, before the zones are judged (R157). -/
def State.restartChanges (s : State) : List Report :=
  if s.mode = .inService then s.zones.filterMap fun e =>
    if decide (e.2.state = .shutdown) || decide (e.2.state = .restoring) || (decide (e.2.state ≠ .secured) && s.firePanel) then
      (if e.2.state = .shutdown then none else some (zoneReport .shutdown e.1))
    else if e.2.state = .normal then some (zoneReport .alert e.1) else none
  else []

/-- The ZONE_STATE reports of the zones that are SECURED in `t` and were not in `s` (R167). -/
def State.restartSecured (s t : State) : List Report :=
  s.zones.filterMap fun e =>
    if e.2.state ≠ .secured ∧ t.zoneState e.1 = some .secured then some (zoneReport .secured e.1) else none

/-- The AISLE_STATE reports of a restart (R20). -/
def State.restartDrained (s : State) : List Report :=
  (s.aisles.select fun x => decide (x.service = .draining)).map endedReport

theorem State.restartRecords_reportsAfter (s : State) (cause : StartCause) :
    (s.restartRecords cause).reportsAfter = s.restartDrained ++ s.restartChanges := by
  have hdrained : ((s.restartRecords cause).aisles.select fun x => decide (x.service = .draining)) =
      s.aisles.select fun x => decide (x.service = .draining) := by
    rw [State.restartRecords_aisles, Table.select, Table.mapRecords, List.filter_map, List.map_map]
    rfl
  rw [State.reportsAfter, hdrained]
  refine congrArg (_ ++ ·) ?_
  unfold State.restartChanges
  cases hm : s.mode with
  | inService => exact State.changesAfter_eq (r := s.restartRecords cause) hm
  | commissioning => rw [State.changesAfter, State.restartRecords_mode, hm]; rfl

/-- The queues of reports are emptied, with the overrun marks of those that held an entry (R199). -/
def State.reportsEmptied (s : State) : State :=
  { s with link := { s.link with
      urgent := [], routine := [], urgentOverrun := s.link.urgentOverrun || !s.link.urgent.isEmpty
      routineOverrun := s.link.routineOverrun || !s.link.routine.isEmpty } }

/-- The queues of reports after a restart (R199). -/
theorem Restarted.reports_final (h : Restarted (s.restartRecords cause) u) (hr : Fresh (s.restartRecords cause))
    (hw : s.zones.wf = true)
    (hm : s.mode = .inService ∨ ∀ z x, s.zones.look z = some x → x.state = .normal ∨ x.state = .alert) :
    u.settleWing.link.reports =
      (s.reportsEmptied.posted
        (s.restartDrained ++ s.restartChanges ++ s.restartSecured u.settleWing)).link.reports := by
  have hposted := fun l => State.posted_reports (t := s.restartRecords cause) (s := s.reportsEmptied) rfl rfl l
  have hmodes : s.mode = .inService ∨ s.mode = .commissioning := by cases s.mode <;> simp
  rcases hmodes with hmode | hmode
  · rw [h.settled_reports hr hmode, h.secured_eq hr hmode hw, State.restartRecords_reportsAfter, hposted]
    rfl
  · have hopen : ∀ z x, s.zones.look z = some x → x.state = .normal ∨ x.state = .alert :=
      hm.resolve_left (by simp [hmode])
    have ho : ∀ z, s.zoneState z = none ∨ s.zoneState z = some .normal ∨ s.zoneState z = some .alert := fun z => by
      unfold State.zoneState
      cases hx : s.zones.look z with
      | none => exact .inl rfl
      | some x => exact .inr ((hopen z x hx).imp (congrArg some) (congrArg some))
    have hnone : s.restartSecured u.settleWing = [] := by
      refine List.filterMap_eq_nil_iff.2 fun e he => if_neg fun ⟨_, hs⟩ => ?_
      have hx : s.zones.look e.1 = some e.2 := Table.look_of_mem hw he
      have hkept : u.settleWing.zones.look e.1 = some e.2 := by
        rw [h.settled_zones hr]
        refine (Judged.judgeZones (h.wiped hr) h.stations_wf).kept _ _ ?_ (hopen _ _ hx)
        rw [h.zones_eq, State.zonesAfter, State.restartRecords_mode, hmode]
        exact hx
      rw [State.zoneState, hkept] at hs
      rcases hopen _ _ hx with hv | hv <;> simp [hv] at hs
    rw [h.settled_reports_open hr hmode ho, hnone, List.append_nil, State.restartRecords_reportsAfter, hposted]

end

/-- Settles O30: the records are reset (`Fresh`), then zones and cranes converted (`Restarted`), then the wing settled. -/
theorem restartConvertsEveryRecord : Obligations.RestartConvertsEveryRecord := by
  intro c cause s ht hwaiting hc
  obtain ⟨u, h, hu⟩ := State.restart_spec ht cause
  have hr := State.restartRecords_fresh ht cause
  obtain ⟨hai, hst, hzo, -, hsh, -⟩ := (tablesLawful_iff s).1 ht
  have hsetup := (flow_restart s cause).setup
  rw [State.restartRecords_setup, hu] at hsetup
  obtain ⟨hcause, hbefore, hmode, haddresses, hclasses, hsettings, hpanel, hkey, hnext, hpending, hreplies, hrestart,
    hwaits, hsent⟩ := State.restarted_setup hsetup
  have hset := h.settled hr
  have hsecured := h.settled_secured
  have hoverrun := h.settled_overrun hr
  have hstations := h.settled_stations hr (by rw [State.restartRecords_stations, Table.wf_mapRecords]; exact hst)
  have haisle := fun a x => h.aisle_final (a := a) (x := x) hr
  have hzone := fun z q => h.zone_final (z := z) (q := q) hr
  have hshutter := fun n g q => h.settled_shutter (n := n) (g := g) (q := q) hr
  have hstop := fun a x q d => h.stop_sent (a := a) (x := x) (q := q) (d := d) hr
  have hclose := fun st x q f => h.closeFrames_sent (st := st) (x := x) (q := q) (f := f) hr
  have hkept := (Judged.judgeZones (h.wiped hr) h.stations_wf).kept
  rw [← h.settled_zones hr] at hkept
  obtain ⟨m, hm, -⟩ := h.sent
  obtain ⟨m', hm'⟩ := h.settled_sent hr
  have hexec := exec_restart hwaiting hc
  rw [hu] at hexec
  have hreports := h.reports_final hr hzo
  generalize u.settleWing = t at *
  simp only [State.restartRecords_mode, State.restartRecords_zoneState, State.restartRecords_firePanel,
    State.restartRecords_craneAddress, State.restartRecords_field, State.restartRecords_zones, State.restartRecords_mouth,
    State.restartRecords_settings] at haisle hzone hshutter hstop hclose
  refine ⟨t, hexec, hcause, hbefore, hmode, haddresses, hclasses, hsettings,
    hpanel, hkey, hnext, hpending, ?_, ?_, hsecured, hreplies, hrestart, hwaits.trans hwaiting, hsent, ?_, ?_, ?_,
    fun n b hb => ?_, ?_, ?_, ?_, fun a x hx hz => ?_, fun hm z x hx => hzone z x hm hx, fun hm n g q hg hq => ?_,
    fun hm z x hx ho => ?_, fun hm st x hx hany => ?_, fun hm => ?_⟩
  · rw [hset, h.rest]
    rfl
  · rw [hset, h.rest]
    rfl
  · rintro ho
    refine hoverrun.1 ?_
    rcases ho with ho | ho <;> simp [State.restartRecords_link, Link.restart, ho]
  · rintro ho
    refine hoverrun.2 ?_
    rcases ho with ho | ho <;> simp [State.restartRecords_link, Link.restart, ho]
  · rw [hset, h.rest]
    rfl
  · have hbins : t.bins = (s.restartRecords cause).bins := by rw [hset, h.rest]
    rw [hbins, State.restartRecords_bin, hb, Option.map_some, Bin.restart_eq]
    rfl
  · exact hstations.trans (State.restartRecords_stations s cause)
  · rw [hset, h.rest]
    refine (State.restartRecords_concentrators s cause).trans (Table.mapRecords_congr fun e _ => ?_)
    unfold Concentrator.restart
    cases s.mode <;> rfl
  · have hfield : t.link.field = s.link.field ++ (m ++ m') := by
      rw [hm', hm, List.append_assoc]
      rfl
    show s.link.field ++ t.link.field.drop s.link.field.length = t.link.field
    rw [hfield, List.drop_left]
  · have hxr := State.restartRecords_aisle hx cause
    obtain ⟨y, hy, hgeom, hretry, hservice, hpos, hstaged, hsus, hwait, hindex, hrest, hpark, hstate⟩ := haisle a _ hxr hz
    refine ⟨y, hy, hgeom, hretry, hservice, hpos, hstaged, hsus, hwait, hindex, hrest, hpark, fun hm hs hany d hd => ?_, hstate⟩
    obtain ⟨q, hq, hqs⟩ := any_shut hany
    exact hstop a _ q d hm hxr hs hq hqs hd
  · have hgr : (s.restartRecords cause).shutters.look n = some g.restart := by
      rw [State.restartRecords_shutters, Table.look_mapRecords, hg]
      rfl
    refine (hshutter n _ q hm hgr hq).trans ?_
    rw [Shutter.restart_eq]
  · refine hkept z x ?_ ho
    rw [h.zones_eq, State.zonesAfter, State.restartRecords_mode, hm]
    exact hx
  · have hxr : (s.restartRecords cause).stations.look st = some x.restart := by
      rw [State.restartRecords_stations, Table.look_mapRecords, hx]
      rfl
    obtain ⟨q, hq, hqs⟩ := any_shut hany
    exact ⟨hclose st _ q _ hm hxr hq hqs (List.mem_cons_self ..),
      hclose st _ q _ hm hxr hq hqs (List.mem_cons_of_mem _ (List.mem_cons_self ..))⟩
  · have hall := hreports hm
    simp only [Link.reports, Prod.mk.injEq] at hall
    obtain ⟨hurgent, hurgentOverrun, hroutine, hroutineOverrun⟩ := hall
    exact ⟨hurgent, hurgentOverrun, hroutine, hroutineOverrun⟩

end Sys2Proof.Machine
end

section
/-! The scans (R96, R101), and ITEM_OUT_SCAN and ITEM_IN_SCAN (R114, R132). -/
namespace Sys2Proof.Machine

section
variable {s t u w : State} {c : Instr} {src st item n : Nat} {x : Station} {k : ScanKind}
  {body : State → Nat → Station → Scanned} {why : ScanCode} {i : Item}

/-- What a scan leaves that is not itself a moment of the Dispatcher: `u`, and the Dispatcher's look where it ended a hold. -/
def ScanDone (c : Instr) (x : Station) (s u : State) : Prop :=
  ∃ t, exec c s = .next t ∧ if x.hold then Settled u t else t = u

/-- The lane hold is ended, and the station told why its scan is refused (R96). -/
def State.scanRefused (s : State) (st : Nat) (x : Station) (why : ScanCode) : State :=
  { s.endHold st with link := { s.link with
      field := s.link.field ++ [fieldFrame x.loaded.address (.scanRefused why)] } }

theorem scanDone_of_quiet (hx : s.stations.look st = some x) (hc : exec c s = .next (s.takeScan k body st))
    (hn : s.scanRefusal k x = none) (hb : body (s.endHold st) st x = u.quiet) : ScanDone c x s u := by
  refine ⟨_, hc, ?_⟩
  have hn' : (s.endHold st).scanRefusal k x = none := hn
  simp only [State.takeScan, hx, hn', hb]
  cases x.hold with
  | false => rfl
  | true => exact settled_settleWing u

theorem scan_settles (hx : s.stations.look st = some x) (hc : exec c s = .next (s.takeScan k body st))
    (hn : s.scanRefusal k x = none) (hb : body (s.endHold st) st x = u.stirred) : ∃ t, exec c s = .next t ∧ Settled u t := by
  refine ⟨_, hc, ?_⟩
  have hn' : (s.endHold st).scanRefusal k x = none := hn
  simp only [State.takeScan, hx, hn', hb]
  rw [show (x.hold || u.stirred.looks) = true from Bool.or_true _, if_pos rfl]
  exact settled_settleWing u

theorem State.refuseScan_endHold (hx : s.stations.look st = some x) (why : ScanCode) :
    (s.endHold st).refuseScan st why = s.scanRefused st x why := by
  have hx' : (s.endHold st).stations.look st = some { x with hold := false } := by
    simp [State.endHold, hx]
  rw [State.refuseScan, State.sendStation_of_look hx']
  rfl

theorem scanDone_of_refused (hx : s.stations.look st = some x) (hc : exec c s = .next (s.takeScan k body st))
    (hn : s.scanRefusal k x = none) (hb : body (s.endHold st) st x = (s.endHold st).refusedScan st why) :
    ScanDone c x s (s.scanRefused st x why) := by
  rw [← State.refuseScan_endHold hx]
  exact scanDone_of_quiet hx hc hn hb

/-- A scan that the common checks refuse (R96). -/
theorem scanDone_of_refusal (hx : s.stations.look st = some x) (hc : exec c s = .next (s.takeScan k body st))
    (hn : s.scanRefusal k x = some why) : ScanDone c x s (s.scanRefused st x why) := by
  refine ⟨_, hc, ?_⟩
  have hn' : (s.endHold st).scanRefusal k x = some why := hn
  simp only [State.takeScan, hx, hn']
  rw [State.refusedScan, State.refuseScan_endHold hx]
  cases x.hold with
  | false => rfl
  | true => exact settled_settleWing _

theorem scanRefusal_of_ready (hh : s.isHalted = false) (hz : s.zoneClosed x.loaded.zone = false)
    (hr : k.roleOf x.loaded = true) : s.scanRefusal k x = none := by
  simp [State.scanRefusal, hh, hz, hr]

theorem exec_itemOutScan (ha : s.admits src .station st = true) :
    exec (.itemOutScan src item) s = .next (s.takeScan .itemOut (State.scanOut item) st) := next_admission ha 9 _
theorem exec_itemInScan (ha : s.admits src .station st = true) :
    exec (.itemInScan src item) s = .next (s.takeScan .itemIn (State.scanIn item) st) := next_admission ha 10 _
theorem exec_returnScan (ha : s.admits src .station st = true) :
    exec (.returnScan src item) s = .next (s.takeScan .returned (State.scanReturn item) st) := next_admission ha 11 _
theorem exec_binDone (ha : s.admits src .station st = true) :
    exec (.binDone src n) s = .next (s.takeScan .binDone (State.scanDone n) st) := next_admission ha 12 _

/-- A scan of an item names its kind and its meaning. -/
theorem exec_itemScan (ha : s.admits src .station st = true)
    (hc : c = .itemOutScan src item ∨ c = .itemInScan src item ∨ c = .returnScan src item) :
    ∃ k body, exec c s = .next (s.takeScan k body st) ∧ k ≠ .binDone
      ∧ ∀ f, k.roleOf f = if c = .itemOutScan src item then f.lending else f.returns := by
  rcases hc with rfl | rfl | rfl
  · exact ⟨_, _, exec_itemOutScan ha, by simp, fun _ => by simp [ScanKind.roleOf]⟩
  · exact ⟨_, _, exec_itemInScan ha, by simp, fun _ => by simp [ScanKind.roleOf]⟩
  · exact ⟨_, _, exec_returnScan ha, by simp, fun _ => by simp [ScanKind.roleOf]⟩

theorem presentedBin_endHold (hx : s.stations.look st = some x) : (s.endHold st).presentedBin st = s.presentedBin st := by
  have hx' : (s.endHold st).stations.look st = some { x with hold := false } := by simp [State.endHold, hx]
  simp only [State.presentedBin, hx, hx']
  rfl

theorem lockedHere_iff : s.lockedHere x n = true ↔ Place.bin n ∈ x.lane ∧ s.binState n = some .lockedOut := by
  simp [State.lockedHere]

/-- A bin that is presented is not LOCKED_OUT. -/
theorem not_lockedHere_of_presented (hx : s.stations.look st = some x) (hp : s.presentedBin st = some n) :
    s.lockedHere x n = false := by
  obtain ⟨-, hs⟩ := (State.presentedBin_iff hx).1 hp
  simp [State.lockedHere, hs]

theorem scanOut_of_not_requested {v : State} (hi : v.items.look item = some i) (hs : i.state ≠ .requested) :
    State.scanOut item v st x = v.refusedScan st .notRequested := by
  simp only [State.scanOut, hi]
  split
  · rw [if_pos hs]
  · rfl

theorem scanOut_of_no_request {v : State} (hi : v.items.look item = some i)
    (hr : ∀ q ∈ v.requests, q.item = item → q.station ≠ st) : State.scanOut item v st x = v.refusedScan st .notRequested := by
  have hnone : v.openRequest st item = none := by
    refine List.find?_eq_none.2 fun q hq => ?_
    simpa using hr q hq
  simp only [State.scanOut, hi, hnone]

theorem scanIn_of_not_returning {v : State} (hi : v.items.look item = some i) (hs : i.state ≠ .returning) :
    State.scanIn item v st x = v.refusedScan st .wrongBin := by
  simp only [State.scanIn, hi]
  split
  · rfl
  · rw [if_pos hs]

theorem scanIn_of_no_entry {v : State} (hi : v.items.look item = some i) (hr : ∀ e ∈ x.returns, e.item ≠ item) :
    State.scanIn item v st x = v.refusedScan st .wrongBin := by
  have hnone : (x.returns.any fun e => decide (e.item = item)) = false := by simpa using hr
  simp only [State.scanIn, hi]
  split
  · rfl
  · split
    · rfl
    · rw [if_pos (by simp [hnone])]

end

/-- Settles O55: the common checks, then the branches of each scan. -/
theorem itemScansMoveTheItem : Obligations.ItemScansMoveTheItem := by
  intro src st item n x s ha hx
  refine ⟨fun c hc => ?_, fun hready hi => ?_, fun i hready hi => ?_⟩
  · obtain ⟨k, body, hexec, hk, hrole⟩ := exec_itemScan ha hc
    refine ⟨fun hh => ?_, fun hh hz => ?_, fun ⟨hh, hz⟩ hr => ?_⟩
    · exact scanDone_of_refusal hx hexec (by simp [State.scanRefusal, hh, hk])
    · exact scanDone_of_refusal hx hexec (by simp [State.scanRefusal, hh, hz])
    · refine scanDone_of_refusal hx hexec ?_
      have hno : k.roleOf x.loaded = false := by
        rw [hrole]
        rcases hr with ⟨rfl, hl⟩ | ⟨hne, hl⟩
        · rw [if_pos rfl, hl]
        · rw [if_neg hne, hl]
      simp [State.scanRefusal, hh, hz, hno]
  · obtain ⟨hh, hz⟩ := hready
    refine ⟨fun hl => ?_, fun hl => ?_⟩
    · refine scanDone_of_refused hx (exec_itemOutScan ha) (scanRefusal_of_ready hh hz hl) ?_
      simp only [State.scanOut, show (s.endHold st).items.look item = none from hi]
    · refine scanDone_of_refused hx (exec_itemInScan ha) (scanRefusal_of_ready hh hz hl) ?_
      simp only [State.scanIn, show (s.endHold st).items.look item = none from hi]
  · obtain ⟨hh, hz⟩ := hready
    have hi' : (s.endHold st).items.look item = some i := hi
    have hpresented := presentedBin_endHold hx
    refine ⟨fun hl => ?_, fun hl => ?_⟩
    · have hn : s.scanRefusal .itemOut x = none := scanRefusal_of_ready hh hz hl
      refine ⟨fun hs => ?_, fun hr => ?_, fun r hs hhome hr => ?_⟩
      · exact scanDone_of_refused hx (exec_itemOutScan ha) hn (scanOut_of_not_requested hi' hs)
      · exact scanDone_of_refused hx (exec_itemOutScan ha) hn (scanOut_of_no_request hi' hr)
      have hr' : (s.endHold st).openRequest st item = some r := hr
      obtain ⟨hitem, -⟩ : r.item = item ∧ r.station = st := by simpa using List.find?_some hr
      refine ⟨fun hlocked => ?_, fun hlocked hp => ?_, fun hp => ?_⟩
      · refine scanDone_of_refused hx (exec_itemOutScan ha) hn ?_
        have hlock : (s.endHold st).lockedHere x n = true := lockedHere_iff.2 hlocked
        simp [State.scanOut, hi', hr', hhome, hs, hlock]
      · refine scanDone_of_refused hx (exec_itemOutScan ha) hn ?_
        have hlock : (s.endHold st).lockedHere x n = false := Bool.eq_false_iff.2 fun h => hlocked (lockedHere_iff.1 h)
        simp [State.scanOut, hi', hr', hhome, hs, hlock, hpresented, hp]
      · refine scanDone_of_quiet hx (exec_itemOutScan ha) hn ?_
        have hlock : (s.endHold st).lockedHere x n = false := not_lockedHere_of_presented (s := s) hx hp
        have hthick : (s.endHold st).thicknessOf item = i.thickness := by simp [State.thicknessOf, hi']
        simp only [State.scanOut, hi', hr', hhome, hs, hlock, hpresented, hp, ne_eq, not_true_eq_false, if_false,
          Bool.false_eq_true, State.pickItem, hthick, State.reportRequest, hitem]
        rfl
    · have hn : s.scanRefusal .itemIn x = none := scanRefusal_of_ready hh hz hl
      refine ⟨fun hs => ?_, fun hr => ?_, fun hs htarget hr => ⟨fun hlocked => ?_, fun hlocked hp => ?_, fun hp => ?_⟩⟩
      · exact scanDone_of_refused hx (exec_itemInScan ha) hn (scanIn_of_not_returning hi' hs)
      · exact scanDone_of_refused hx (exec_itemInScan ha) hn (scanIn_of_no_entry hi' hr)
      all_goals
        have hany : (x.returns.any fun e => decide (e.item = item)) = true := by simpa using hr
      · refine scanDone_of_refused hx (exec_itemInScan ha) hn ?_
        have hlock : (s.endHold st).lockedHere x n = true := lockedHere_iff.2 hlocked
        simp [State.scanIn, hi', htarget, hs, hlock, hany]
      · refine scanDone_of_refused hx (exec_itemInScan ha) hn ?_
        have hlock : (s.endHold st).lockedHere x n = false := Bool.eq_false_iff.2 fun h => hlocked (lockedHere_iff.1 h)
        simp [State.scanIn, hi', htarget, hs, hlock, hpresented, hp, hany]
      · refine scanDone_of_quiet hx (exec_itemInScan ha) hn ?_
        have hlock : (s.endHold st).lockedHere x n = false := not_lockedHere_of_presented (s := s) hx hp
        have hthick : (s.endHold st).thicknessOf item = i.thickness := by simp [State.thicknessOf, hi']
        simp only [State.scanIn, hi', htarget, hs, hlock, hpresented, hp, hany, ne_eq, not_true_eq_false, if_false,
          Bool.false_eq_true, State.shelveItem, hthick, Bool.not_true]
        simp only [State.endHold, State.modItem, State.modBin, State.modStation, Table.adjust_adjust]
        rfl

end Sys2Proof.Machine
end

section
/-! RETURN_SCAN finds a target for an item that is out (R123 to R130). -/
namespace Sys2Proof.Machine

section
variable {s t u w : State} {c : Instr} {src st item n rise : Nat} {x : Station} {why : ScanCode} {i : Item} {b : Bin}

theorem endHold_look (hx : s.stations.look st = some x) : (s.endHold st).stations.look st = some { x with hold := false } := by
  simp [State.endHold, hx]

/-- The lane hold has no part in the choice of a target (R50 to R54). -/
theorem State.chooseTarget_endHold (hx : s.stations.look st = some x) (k cls : Nat) (home : Option Nat) :
    (s.endHold st).chooseTarget st k cls home = s.chooseTarget st k cls home := by
  have hx' := endHold_look hx
  have hlane : (s.endHold st).laneCandidate st = s.laneCandidate st := by
    funext m b
    simp only [State.laneCandidate, hx, hx']
  have hrack : (s.endHold st).rackCandidate st = s.rackCandidate st := by
    funext m b
    simp only [State.rackCandidate, hx, hx']
    rfl
  have hislane : (s.endHold st).isLaneCandidate st k cls = s.isLaneCandidate st k cls := by
    funext m
    unfold State.isLaneCandidate
    rw [hlane]
    rfl
  have hcand : (s.endHold st).isCandidate st k cls = s.isCandidate st k cls := by
    funext m
    unfold State.isCandidate State.isRackCandidate
    rw [hislane, hrack]
    rfl
  have hoffers : (s.endHold st).rackOffers st k cls = s.rackOffers st k cls := by
    unfold State.rackOffers
    rw [hrack]
    rfl
  have hlaneOffer : (s.endHold st).laneOffer st k cls = s.laneOffer st k cls := by
    simp only [State.laneOffer, hx, hx', hislane]
  unfold State.chooseTarget
  rw [hcand, hoffers, hlaneOffer]

/-- The reservation of a HELD item in its home bin is released, and nothing else (R27). -/
theorem State.releaseHeld_eq (s : State) (i : Item) : s.releaseHeld i = { s with bins := match i.state, i.home with
    | .held, some n => s.bins.adjust n fun b => { b with reserved := b.reserved - i.thickness }
    | _, _ => s.bins } := by
  unfold State.releaseHeld
  cases i.state with
  | held => cases i.home <;> rfl
  | shelved | requested | picked | lent | returning | overflow => rfl

theorem State.releaseHeld_endHold (s : State) (i : Item) (st : Nat) :
    (s.endHold st).releaseHeld i = (s.releaseHeld i).endHold st := by
  rw [State.releaseHeld_eq, State.releaseHeld_eq]
  rfl

theorem State.releaseHeld_bin (hb : s.bins.look n = some b) (i : Item) :
    ∃ k, (s.releaseHeld i).bins.look n = some { b with reserved := k } := by
  rw [State.releaseHeld_eq]
  dsimp only
  split
  · rw [Table.look_adjust]
    split
    next hm =>
      subst hm
      exact ⟨_, by rw [hb]; rfl⟩
    · exact ⟨b.reserved, hb⟩
  · exact ⟨b.reserved, hb⟩

theorem State.releaseHeld_binState (s : State) (i : Item) : (s.releaseHeld i).binState = s.binState := by
  funext n
  unfold State.binState
  cases hb : s.bins.look n with
  | none =>
    rw [State.releaseHeld_eq]
    dsimp only
    split
    · rw [Table.look_adjust]
      split
      next hm =>
        subst hm
        rw [hb]
        rfl
      · rw [hb]
    · rw [hb]
  | some b =>
    obtain ⟨k, hk⟩ := State.releaseHeld_bin hb i
    rw [hk]
    rfl

/-- The item is RETURNING to the bin, with a return entry at the station (R127). -/
def State.returning (w : State) (st item n rise : Nat) : State :=
  ({ w with
    items := w.items.adjust item fun i => { i with state := .returning, target := some n }
    bins := w.bins.adjust n fun b => { b with reserved := b.reserved + rise }
    stations := w.stations.adjust st fun y => { y with hold := false, returns := y.returns ++ [({ item := item, target := n } : ReturnEntry)] } } : State).post
    { kind := .returnAccepted, subject := .item item, order := none, code := some (.number n) }

theorem State.acceptReturn_endHold (w : State) (st item n rise : Nat) :
    (w.endHold st).acceptReturn st item n rise = (w.returning st item n rise).bringTarget st n := by
  unfold State.acceptReturn State.returning
  simp only [State.endHold, State.modItem, State.modBin, State.modStation, Table.adjust_adjust]
  rfl

/-- What a bin's route asks of the target is made (R128). -/
theorem return_taken (hx : s.stations.look st = some x) (hn : s.scanRefusal .returned x = none)
    (ha : s.admits src .station st = true) (hw : w = { s with bins := w.bins }) (hb : s.bins.look n = some b)
    (hwb : ∃ k, w.bins.look n = some { b with reserved := k }) (hstates : w.binState = s.binState)
    (hbody : State.scanReturn item (s.endHold st) st x = (w.endHold st).acceptReturn st item n rise) :
    let v := w.returning st item n rise
    (b.trip = some st → ScanDone (.returnScan src item) x s (if s.presentedBin st = some n then v.offerPresent st else v))
    ∧ (b.trip ≠ some st → b.state = .stored →
        ∃ t, exec (.returnScan src item) s = .next t ∧ Settled
          { v with
            bins := v.bins.adjust n fun b => { b with state := .called, trip := some st }
            aisles := s.aisles.adjust b.home.aisle fun y =>
              { y with queue := y.queue ++ [retrieveJob n b.home st .ret s.jobTag] }
            nextJob := tagAfter s.jobTag } t)
    ∧ (b.trip ≠ some st → b.state ≠ .stored →
        ScanDone (.returnScan src item) x s { v with bins := v.bins.adjust n fun b => { b with next := some (b.next.getD st) } }) := by
  obtain ⟨k, hk⟩ := hwb
  rw [State.acceptReturn_endHold] at hbody
  have hlook : (w.returning st item n rise).bins.look n = some { b with reserved := k + rise } := by
    simp [State.returning, State.post, hk]
  have hstation : (w.returning st item n rise).stations.look st =
      some { x with hold := false, returns := x.returns ++ [{ item := item, target := n }] } := by
    have hxw : w.stations.look st = some x := by rw [hw]; exact hx
    simp [State.returning, State.post, hxw]
  have hbins : ∀ m, (w.returning st item n rise).binState m = s.binState m := fun m => by
    rw [← hstates]
    simp only [State.binState, State.returning, State.post, Table.look_adjust]
    split
    · rename_i hm
      subst hm
      rw [hk]
      rfl
    · rfl
  have hpresented : (w.returning st item n rise).presentedBin st = s.presentedBin st := by
    simp only [State.presentedBin, hstation, hx, hbins]
  unfold State.bringTarget at hbody
  rw [hlook] at hbody
  dsimp only at hbody
  refine ⟨fun htrip => ?_, fun htrip hstate => ?_, fun htrip hstate => ?_⟩
  · have hroute : routeOf { b with reserved := k + rise } st = .join := if_pos htrip
    rw [hroute, hpresented] at hbody
    exact scanDone_of_quiet hx (exec_returnScan ha) hn hbody
  · have hroute : routeOf { b with reserved := k + rise } st = .newJob := (if_neg htrip).trans (if_pos hstate)
    rw [hroute] at hbody
    have hsettles := scan_settles hx (exec_returnScan ha) hn hbody
    rw [State.callBin_of_look hlook] at hsettles
    have haisles : (w.returning st item n rise).aisles = s.aisles := by rw [hw]; rfl
    have htag : (w.returning st item n rise).jobTag = s.jobTag := by rw [hw]; rfl
    rw [haisles, htag] at hsettles
    exact hsettles
  · have hroute : routeOf { b with reserved := k + rise } st = .followOn := (if_neg htrip).trans (if_neg hstate)
    rw [hroute] at hbody
    exact scanDone_of_quiet hx (exec_returnScan ha) hn hbody

theorem State.usableHome_eq_some {m : Nat} : s.usableHome x st i = some (m, b) ↔
    i.home = some m ∧ s.bins.look m = some b ∧ i.state = .held ∧ homeUsable x st b = true := by
  unfold State.usableHome
  cases hh : i.home with
  | none => simp
  | some n =>
    dsimp only
    cases hb : s.bins.look n with
    | none =>
      simp only [reduceCtorEq, Option.some.injEq, false_iff, not_and]
      rintro rfl hm
      rw [hb] at hm
      cases hm
    | some d =>
      dsimp only
      by_cases hu : i.state = .held ∧ homeUsable x st d = true
      · rw [if_pos (by simp [hu])]
        constructor
        · intro h
          cases h
          exact ⟨rfl, hb, hu⟩
        · rintro ⟨hm, hbm, -⟩
          cases hm
          rw [hb] at hbm
          cases hbm
          rfl
      · rw [if_neg (by simpa using hu)]
        simp only [reduceCtorEq, Option.some.injEq, false_iff, not_and]
        rintro rfl hm hs
        rw [hb] at hm
        cases hm
        simpa [hs] using hu

theorem homeUsable_iff : homeUsable x st b = true ↔ (b.state ≠ .missing ∧ b.state ≠ .inDoubt ∧ b.state ≠ .lockedOut
    ∧ (b.trip = some st ∨ b.home.aisle ∈ x.loaded.linked)) := by
  simp [homeUsable, and_assoc]

theorem calledElsewhere_iff : calledElsewhere b st = true ↔
    b.trip ≠ some st ∧ b.state ≠ .stored ∧ b.next ≠ none ∧ b.next ≠ some st := by
  simp only [calledElsewhere, routeOf, Bool.and_eq_true, Bool.not_eq_true', decide_eq_false_iff_not,
    Option.isSome_iff_ne_none]
  by_cases ht : b.trip = some st <;> by_cases hs : b.state = .stored <;> simp [ht, hs]

end

/-- Settles O56: the checks of R124, then the target by its route. -/
theorem returnScanFindsATarget : Obligations.ReturnScanFindsATarget := by
  intro src st item x s ha hx hh hz hr
  have hn : s.scanRefusal .returned x = none := scanRefusal_of_ready hh hz hr
  have hexec := exec_returnScan (item := item) ha
  refine ⟨fun hi => ?_, fun i hi => ?_⟩
  · refine scanDone_of_refused hx hexec hn ?_
    simp only [State.scanReturn, show (s.endHold st).items.look item = none from hi]
  have hi' : (s.endHold st).items.look item = some i := hi
  have hrefused : ∀ why, (s.endHold st).returnRefusal x st i = some why →
      ScanDone (.returnScan src item) x s (s.scanRefused st x why) := fun why hwhy => by
    refine scanDone_of_refused hx hexec hn ?_
    simp only [State.scanReturn, hi', hwhy]
  refine ⟨fun hs => hrefused _ (if_pos hs), fun hs => hrefused _ ?_, fun hs => ⟨fun hl => hrefused _ ?_, fun hl => ?_⟩⟩
  · rcases hs with hs | hs | hs <;> simp [State.returnRefusal, hs]
  · rcases hs with hs | hs | hs <;> simp [State.returnRefusal, hs, hl, Config.returnCapacity]
  have hout : (s.endHold st).returnRefusal x st i =
      match (s.endHold st).usableHome x st i with
      | some (_, b) => if calledElsewhere b st then some .binBusy else none
      | none => none := by
    have hlt : ¬Config.returnCapacity ≤ x.returns.length := Nat.not_le.2 hl
    rcases hs with hs | hs | hs <;> simp only [State.returnRefusal, hs, hlt] <;> rfl
  refine ⟨fun n b hs hhome hb hfree => ?_, fun hno => ?_⟩
  · have husable : (s.endHold st).usableHome x st i = some (n, b) :=
      State.usableHome_eq_some.2 ⟨hhome, hb, hs, homeUsable_iff.2 hfree⟩
    rw [husable] at hout
    dsimp only at hout
    refine ⟨fun h1 h2 h3 h4 => hrefused _ ?_, fun hroute b' hb' => ?_⟩
    · rw [hout, if_pos (calledElsewhere_iff.2 ⟨h1, h2, h3, h4⟩)]
    · have hnot : calledElsewhere b st = false := Bool.eq_false_iff.2 fun h => by
        obtain ⟨h1, h2, h3, h4⟩ := calledElsewhere_iff.1 h
        rcases hroute with hr | hr | hr | hr
        exacts [h1 hr, h2 hr, h3 hr, h4 hr]
      rw [hnot, if_neg (by simp)] at hout
      refine return_taken hx hn ha rfl hb' ⟨b'.reserved, hb'⟩ rfl ?_
      simp only [State.scanReturn, hi', hout, husable]
  · have hnone : (s.endHold st).usableHome x st i = none := by
      refine Option.eq_none_iff_forall_ne_some.2 fun ⟨n, b⟩ h => hno ?_
      obtain ⟨hhome, hb, hheld, hu⟩ := State.usableHome_eq_some.1 h
      exact ⟨n, b, hheld, hhome, hb, homeUsable_iff.1 hu⟩
    rw [hnone] at hout
    have hbody : State.scanReturn item (s.endHold st) st x = ((s.releaseHeld i).endHold st).selectReturn st item i := by
      simp only [State.scanReturn, hi', hout, hnone]
      rw [State.releaseHeld_endHold]
    have hxw : (s.releaseHeld i).stations.look st = some x := by
      rw [State.releaseHeld_eq]
      exact hx
    have hchoice := State.chooseTarget_endHold hxw i.thickness i.sizeClass i.home
    have hw := s.releaseHeld_eq i
    refine ⟨fun n htarget b hb => ?_, fun htarget => ?_⟩
    · have hchosen : (s.releaseHeld i).chooseTarget st i.thickness i.sizeClass i.home = some n := by
        rw [hw]
        exact htarget
      have htaken := return_taken hx hn ha (w := s.releaseHeld i) (item := item) (rise := i.thickness) (by rw [hw]) hb
        (State.releaseHeld_bin hb i) (s.releaseHeld_binState i) (by
          rw [hbody, State.selectReturn, hchoice, hchosen])
      rw [hw] at htaken
      exact htaken
    · have hchosen : (s.releaseHeld i).chooseTarget st i.thickness i.sizeClass i.home = none := by
        rw [hw]
        exact htarget
      have hquiet : State.scanReturn item (s.endHold st) st x = (((s.releaseHeld i).endHold st).overflowItem st item).quiet := by
        rw [hbody, State.selectReturn, hchoice, hchosen]
      have hdone := scanDone_of_quiet hx hexec hn hquiet
      rw [hw] at hdone
      exact hdone

end Sys2Proof.Machine
end

section
/-! BIN_DONE sends the presented bin home (R97 to R99, R121, R134). -/
namespace Sys2Proof.Machine

/-- The jobs of `t` are those of `s`, and so are a bin's state and home slot. -/
structure SameBin (n : Nat) (s t : State) : Prop where
  aisles : t.aisles = s.aisles
  nextJob : t.nextJob = s.nextJob
  bin : ((t.bins.look n).map fun b => (b.state, b.home)) = (s.bins.look n).map fun b => (b.state, b.home)

section
variable {s t u w : State} {c : Instr} {src st n : Nat} {x : Station} {why : ScanCode} {b : Bin} {code : RefusalCode}

theorem SameBin.refl (n : Nat) (s : State) : SameBin n s s := ⟨rfl, rfl, rfl⟩

theorem SameBin.trans (h : SameBin n s t) (k : SameBin n t u) : SameBin n s u :=
  ⟨k.aisles.trans h.aisles, k.nextJob.trans h.nextJob, k.bin.trans h.bin⟩

theorem SameBin.foldl {ι : Type} {f : State → ι → State} (hf : ∀ u i, SameBin n u (f u i)) (s : State) (l : List ι) :
    SameBin n s (l.foldl f s) := by
  induction l generalizing s with
  | nil => exact .refl n s
  | cons i l ih => exact (hf s i).trans (ih _)

theorem SameBin.displaceOne (code : RefusalCode) (s : State) (e : ReturnEntry) : SameBin n s (s.displaceOne code e) := by
  refine ⟨rfl, rfl, ?_⟩
  show (((s.bins.adjust e.target fun b => b.release (s.thicknessOf e.item)).look n).map _) = _
  rw [Table.look_adjust]
  split
  next h =>
    subst h
    rw [Option.map_map]
    rfl
  · rfl

theorem SameBin.displaceAt (s : State) (m st : Nat) (code : RefusalCode) : SameBin n s (s.displaceAt m code st) := by
  unfold State.displaceAt
  split
  · exact .refl n s
  · exact (SameBin.foldl (SameBin.displaceOne code) s _).trans ⟨rfl, rfl, rfl⟩

theorem SameBin.failRequests (s : State) (p : Request → Bool) (code : RefusalCode) : SameBin n s (s.failRequests p code) :=
  (SameBin.foldl (f := State.failOne code) (fun _ _ => ⟨rfl, rfl, rfl⟩) s (s.requests.filter p)).trans ⟨rfl, rfl, rfl⟩

theorem SameBin.jobTag (h : SameBin n s t) : t.jobTag = s.jobTag := by
  unfold State.jobTag State.heldJobTags
  rw [h.aisles, h.nextJob]

/-- A STORE joins the queue after the last STORE (R56). -/
theorem State.addJob_store {a : Nat} {mk : Nat → Job} (h : ∀ t, (mk t).kind = .store) : s.addJob a mk =
    { s with
      aisles := s.aisles.adjust a fun x =>
        { x with queue := x.queue.takeWhile (fun j => decide (j.kind = .store)) ++ mk s.jobTag
            :: x.queue.dropWhile (fun j => decide (j.kind = .store)) }
      nextJob := tagAfter s.jobTag } := by
  have hs : ∀ t, (mk t).isStore = true := fun t => decide_eq_true (h t)
  simp only [State.addJob, State.modAisle, State.setNextJob, joinQueue, hs, if_true]
  rfl

/-- The bin leaves its lane HOMEBOUND, with its STORE (R98). -/
def State.sentHome (w s : State) (n st : Nat) (home : Slot) : State :=
  { w with
    bins := w.bins.adjust n fun b => { b with state := .homebound, trip := none }
    aisles := s.aisles.adjust home.aisle fun y =>
      { y with queue := y.queue.takeWhile (fun j => decide (j.kind = .store)) ++ storeJob n home st s.jobTag
          :: y.queue.dropWhile (fun j => decide (j.kind = .store)) }
    nextJob := tagAfter s.jobTag }

theorem State.sendHome_eq (h : SameBin n s w) (hb : s.bins.look n = some b) (hs : b.state = .inLane) :
    ((w.setBinState n .homebound).clearTrip n).createStore n st = w.sentHome s n st b.home := by
  obtain ⟨d, hd, hdb⟩ := Option.map_eq_some_iff.1 (h.bin.trans (congrArg (Option.map _) hb))
  obtain ⟨hstate, hhome⟩ := Prod.mk.inj hdb
  have hne : w.binState n ≠ some .inDoubt := by
    rw [State.binState_of_look hd, hstate, hs]
    simp
  rw [State.setBinState_of_ne hne]
  simp only [State.clearTrip, State.modBin, Table.adjust_adjust]
  unfold State.createStore
  simp only [Table.look_adjust, hd, if_true, Option.map_some]
  rw [State.addJob_store fun _ => rfl, hhome]
  have htag := h.jobTag
  have haisles := h.aisles
  unfold State.sentHome
  rw [← htag, ← haisles]
  rfl

/-- The place at the top leaves the lane, and the lane hold is ended (R86, R101). -/
def State.popped (s : State) (st : Nat) : State :=
  { s with stations := s.stations.adjust st fun y => { y with hold := false, lane := y.lane.tail } }

theorem State.popLane_endHold (s : State) (st : Nat) : (s.endHold st).popLane st = s.popped st := by
  simp only [State.popLane, State.endHold, State.modStation, Table.adjust_adjust]
  rfl

theorem State.popped_look (hx : s.stations.look st = some x) :
    (s.popped st).stations.look st = some { x with hold := false, lane := x.lane.tail } := by
  simp [State.popped, hx]

theorem State.delayRequests_eq (w : State) (n st : Nat) : w.delayRequests n st =
    { w.posted ((w.requests.filter (w.standsFor n st)).map fun r =>
        { kind := .requestDelayed, subject := .item r.item, order := some r.order, code := some (.number st) }) with
      requests := w.requests.map fun r => if w.standsFor n st r then { r with state := .awaitingBin } else r } := by
  unfold State.delayRequests State.posted
  rw [List.foldl_map]
  rfl

/-- The requests that stand on the bin for a station (R110). -/
def State.leftRequest (s : State) (n st : Nat) (r : Request) : Bool :=
  !decide (r.state = .picked) && decide (r.station = st) && decide ((s.items.look r.item).bind (·.home) = some n)

theorem State.standsFor_eq (s : State) (n st : Nat) : s.standsFor n st = s.leftRequest n st := by
  funext r
  show (!decide (r.state = .picked) && decide ((s.items.look r.item).bind (·.home) = some n) && decide (r.station = st)) = _
  unfold State.leftRequest
  rw [Bool.and_assoc, Bool.and_assoc, Bool.and_comm (decide (r.station = st))]

theorem State.leftOver_popped (hx : s.stations.look st = some x) : (s.popped st).leftOver n st =
    (s.requests.any (s.leftRequest n st) || x.returns.any fun e => decide (e.target = n)) := by
  unfold State.leftOver State.awaitedAt
  rw [State.popped_look hx, State.standsFor_eq]
  rfl

/-- What is left over on a bin that is called again (R99, R121). -/
def State.calledAgain (s : State) (n st : Nat) : State :=
  { (s.popped st).posted ((s.requests.filter (s.leftRequest n st)).map fun r =>
      { kind := .requestDelayed, subject := .item r.item, order := some r.order, code := some (.number st) }) with
    requests := s.requests.map fun r => if s.leftRequest n st r then { r with state := .awaitingBin } else r
    bins := s.bins.adjust n fun b => { b with next := some st } }

theorem State.settleLeftOver_again (hleft : (s.popped st).leftOver n st = true) (hb : s.bins.look n = some b)
    (hn : b.next = none ∨ b.next = some st) : (s.popped st).settleLeftOver n st = s.calledAgain n st := by
  have hnext : ((s.popped st).bins.look n).bind (·.next) = b.next := by
    rw [show (s.popped st).bins.look n = some b from hb]
    rfl
  have hdelay : ∀ w : State, w.requests = s.requests → w.items = s.items → w.delayRequests n st =
      { w.posted ((s.requests.filter (s.leftRequest n st)).map fun r =>
          { kind := .requestDelayed, subject := .item r.item, order := some r.order, code := some (.number st) }) with
        requests := s.requests.map fun r => if s.leftRequest n st r then { r with state := .awaitingBin } else r } :=
    fun w hr hi => by
      have hstands : w.standsFor n st = s.leftRequest n st := by
        rw [State.standsFor_eq]
        unfold State.leftRequest
        rw [hi]
      rw [State.delayRequests_eq, hr, hstands]
  unfold State.settleLeftOver
  rw [if_pos hleft, hnext]
  rcases hn with hn | hn
  · rw [hn]
    dsimp only
    refine (hdelay ((s.popped st).modBin n fun b => { b with next := some st }) rfl rfl).trans ?_
    rw [State.posted_rest]
    unfold State.calledAgain
    rw [State.posted_rest (s.popped st), State.posted_link, State.posted_link]
    rfl
  · rw [hn]
    dsimp only
    have hself : s.bins.adjust n (fun b => { b with next := some st }) = s.bins :=
      Table.adjust_eq_self_of_look fun d hd => by
        obtain rfl := Option.some.inj (hb.symm.trans hd)
        rw [← hn]
    rw [if_pos rfl]
    refine (hdelay (s.popped st) rfl rfl).trans ?_
    unfold State.calledAgain
    rw [hself, State.posted_rest (s.popped st)]
    rfl

theorem SameBin.popped (s : State) (st : Nat) : SameBin n s (s.popped st) := ⟨rfl, rfl, rfl⟩

theorem SameBin.calledAgain (s : State) (st : Nat) : SameBin n s (s.calledAgain n st) := by
  unfold State.calledAgain
  rw [State.posted_rest (s.popped st)]
  refine ⟨rfl, rfl, ?_⟩
  show ((s.bins.adjust n _).look n).map _ = _
  rw [Table.look_adjust, if_pos rfl, Option.map_map]
  rfl

theorem scanDone_top {v : State} (hv : x.lane.head? = some (.bin n)) : State.scanDone n v st x = v.topDone n st := by
  rw [State.scanDone, if_neg (by simp [hv]), if_pos hv]

theorem topDone_of_taken {v : State} (hs : v.binState n = some .inLane) (hn : v.named n = false) :
    v.topDone n st = (v.releaseToStore n st).afterPop st := by
  simp [State.topDone, hs, hn]

theorem refusal_binDone (hz : s.zoneClosed x.loaded.zone = false) : s.scanRefusal .binDone x = none := by
  simp [State.scanRefusal, hz, ScanKind.roleOf]

end

/-- Settles O57: the label is judged against the lane, and the popped bin's left-over by its next station. -/
theorem binDoneSendsTheBinHome : Obligations.BinDoneSendsTheBinHome := by
  intro src st n x s ha hx
  have hexec := exec_binDone (n := n) ha
  refine ⟨fun hz => ?_, fun hz => ?_⟩
  · exact scanDone_of_refusal hx hexec (by simp [State.scanRefusal, hz])
  have hn := refusal_binDone (s := s) hz
  refine ⟨fun hv => ?_, fun hb ht => ?_, fun ht hb hmem => ?_, fun ht hb hmem => ?_, fun hv => ⟨fun hs => ?_, fun h1 h2 => ?_,
    fun hs hnamed => ?_, fun b hb hs hnamed => ?_⟩⟩
  · refine scan_settles hx hexec hn ?_
    rw [State.scanDone, if_pos hv, State.popLane_endHold]
    rfl
  · refine scanDone_of_refused hx hexec hn ?_
    have hhead : ∀ p, p ∉ x.lane → x.lane.head? ≠ some p := fun p hp hh => hp (List.mem_of_mem_head? hh)
    rw [State.scanDone, if_neg (hhead _ ht), if_neg (hhead _ hb), if_neg hb, if_neg ht]
  · refine scanDone_of_refused hx hexec hn ?_
    rw [State.scanDone, if_neg ht, if_neg hb, if_pos hmem]
    rfl
  · refine scanDone_of_refused hx hexec hn ?_
    have hhead : x.lane.head? ≠ some (.bin n) := fun hh => hb (List.mem_of_mem_head? hh)
    rw [State.scanDone, if_neg ht, if_neg hhead, if_neg hb, if_pos hmem]
  · refine scanDone_of_refused hx hexec hn ((scanDone_top hv).trans ?_)
    rw [State.topDone, if_pos (show (s.endHold st).binState n = some .lockedOut from hs)]
  · refine scanDone_of_refused hx hexec hn ((scanDone_top hv).trans ?_)
    rw [State.topDone, if_neg (show (s.endHold st).binState n ≠ some .lockedOut from h1),
      if_pos (show (s.endHold st).binState n ≠ some .inLane from h2)]
  · refine scanDone_of_refused hx hexec hn ((scanDone_top hv).trans ?_)
    have hs' : (s.endHold st).binState n = some .inLane := hs
    have hnamed' : (s.endHold st).named n = true := hnamed
    simp [State.topDone, hs', hnamed']
  have hstate : (s.endHold st).binState n = some .inLane := (State.binState_of_look hb).trans (congrArg some hs)
  have hbody : ∀ w, SameBin n s w → (s.popped st).settleLeftOver n st = w →
      State.scanDone n (s.endHold st) st x = ((w.sentHome s n st b.home).presentTop st).stirred := fun w hw hsettle => by
    rw [scanDone_top hv, topDone_of_taken hstate hnamed, State.afterPop, State.releaseToStore, State.popLane_endHold, hsettle,
      State.sendHome_eq hw hb hs]
  have hleftOver := State.leftOver_popped (s := s) (n := n) hx
  refine ⟨fun hleft => ?_, fun hleft hnext => ?_, fun o hleft hnext ho => ?_⟩
  · refine scan_settles hx hexec hn (hbody _ (.popped s st) ?_)
    have hno : (s.popped st).leftOver n st = false := hleftOver.trans hleft
    rw [State.settleLeftOver, hno]
    rfl
  · exact scan_settles hx hexec hn (hbody _ (.calledAgain s st) (State.settleLeftOver_again (hleftOver.trans hleft) hb hnext))
  · refine scan_settles hx hexec hn (hbody (((s.popped st).failRequests (s.leftRequest n st) .binBusy).displaceAt n .binBusy st)
      (.trans (.trans (.popped s st) (.failRequests _ _ _)) (.displaceAt _ _ _ _)) ?_)
    have hyes : (s.popped st).leftOver n st = true := hleftOver.trans hleft
    have hlook : ((s.popped st).bins.look n).bind (·.next) = some o := by
      rw [show (s.popped st).bins.look n = some b from hb]
      exact hnext
    rw [State.settleLeftOver, if_pos hyes, hlook]
    dsimp only
    rw [if_neg ho, State.standsFor_eq]
    rfl

end Sys2Proof.Machine
end

section
/-! What a late or unexpected bin is taken from (R92): lanes, in-transit lists, and the jobs that wait. -/
namespace Sys2Proof.Machine

/-! ### Tables -/

section
variable {α : Type} {t : Table α}

/-- A change of one record and a change of every record that agree with each other can be made in either order. -/
theorem Table.adjust_mapRecords_comm {f : Nat → α → α} {g : α → α} {a : Nat} (h : ∀ x, g (f a x) = f a (g x)) :
    (t.mapRecords f).adjust a g = (t.adjust a g).mapRecords f := by
  induction t with
  | nil => rfl
  | cons e t ih =>
    obtain ⟨k, v⟩ := e
    simp only [Table.mapRecords, List.map_cons, Table.adjust] at ih ⊢
    by_cases hk : k = a
    · subst hk
      simp [h]
    · simp only [hk, if_false, List.map_cons]
      rw [← ih]

/-- Some record of a canonical table has a property, asked number by number. -/
theorem Table.any_numbers (hw : t.wf = true) (p : α → Bool) :
    (t.numbers.any fun a => (t.look a).any p) = t.any fun e => p e.2 := by
  rw [Table.numbers, List.any_map, Bool.eq_iff_iff, List.any_eq_true, List.any_eq_true]
  refine exists_congr fun e => and_congr_right fun he => ?_
  rw [Function.comp_apply, Table.look_of_mem hw (v := e.2) he]
  rfl

end

section
variable {s t u w : State} {st o n a m : Nat} {l : List Nat} {x y : Station}

/-! ### The queued and staged jobs (R92) -/

/-- The pending home of the bin is cleared where a TRANSFER of it is dropped (R92). -/
def clearedIf (n : Nat) (c : Bool) (t : Table Bin) : Table Bin :=
  if c then t.adjust n fun b => { b with pendingHome := none } else t

theorem clearedIf_clearedIf (n : Nat) (c d : Bool) (t : Table Bin) : clearedIf n d (clearedIf n c t) = clearedIf n (c || d) t := by
  cases c <;> cases d <;> simp [clearedIf, Table.adjust_adjust]

/-- A pass over the aisles that changes each, clears the pending home of a bin, and sends telegrams. -/
theorem foldl_dropped (hw : s.aisles.wf = true) {step : State → Nat → State} {g : Aisle → Aisle} {p : Aisle → Bool}
    {frames : Nat → Aisle → List Frame}
    (hstep : ∀ u a x, u.craneAddress = s.craneAddress → u.aisles.look a = some x → step u a =
      { u with
        aisles := u.aisles.adjust a g, bins := clearedIf n (p x) u.bins
        link := { u.link with field := u.link.field ++ frames a x } }) :
    s.aisles.numbers.foldl step s =
      { s with
        aisles := s.aisles.mapRecords fun _ => g, bins := clearedIf n (s.aisles.any fun e => p e.2) s.bins
        link := { s.link with field := s.link.field ++ s.aisles.flatMap fun e => frames e.1 e.2 } } := by
  have key := foldl_induct (step := step) (l := s.aisles.numbers) (s := s)
    (fun done u => u = { s with
      aisles := s.aisles.mapRecords fun a x => if a ∈ done then g x else x
      bins := clearedIf n (done.any fun a => (s.aisles.look a).any p) s.bins
      link := { s.link with
        field := s.link.field ++ done.flatMap fun a => ((s.aisles.look a).map (frames a)).getD [] } })
    (by simp [Table.mapRecords_eq_self, clearedIf])
    (fun done a rest u hl hu => ?_)
  · rw [Table.mapRecords_numbers (t := s.aisles) fun _ => g, Table.any_numbers hw,
      Table.flatMap_numbers hw fun a v => (v.map (frames a)).getD []] at key
    exact key
  · have hnot := not_mem_of_split (Table.nodup_numbers hw) hl
    obtain ⟨x, hx⟩ := Option.isSome_iff_exists.1 (Table.look_isSome_of_mem
      (hl ▸ List.mem_append_right _ List.mem_cons_self : a ∈ s.aisles.numbers))
    have hux : u.aisles.look a = some x := by
      rw [hu]
      exact (Table.look_passed (fun _ => g) hnot).trans hx
    rw [hstep u a x (by rw [hu]; rfl) hux, hu]
    simp only [Table.adjust_passed hw (fun _ => g) hnot, clearedIf_clearedIf, List.any_append, List.any_cons, List.any_nil,
      Bool.or_false, hx, Option.any_some, List.flatMap_append, List.flatMap_cons, List.flatMap_nil, List.append_nil,
      Option.map_some, Option.getD_some, List.append_assoc]

/-- The aisle without the queued jobs that name the bin. -/
def Aisle.unqueued (n : Nat) (x : Aisle) : Aisle := { x with queue := x.queue.filter fun j => !decide (j.bin = some n) }

/-- The aisle without a staged job that names the bin. -/
def Aisle.unheld (n : Nat) (x : Aisle) : Aisle :=
  { x with crane := { x.crane with staged := x.crane.staged.filter fun j => !decide (j.bin = some n) } }

/-- A list of jobs holds a TRANSFER of the bin. -/
def movesBin (n : Nat) (l : List Job) : Bool := l.any fun j => decide (j.bin = some n) && decide (j.kind = .transfer)

/-- UNSTAGE for a staged job that names the bin (R92). -/
def State.unstageFrames (s : State) (n a : Nat) (x : Aisle) : List Frame :=
  ((x.crane.staged.filter fun j => decide (j.bin = some n)).bind fun j =>
    (s.craneAddress a).map fun d => fieldFrame d (.unstage j.tag)).toList

theorem State.dropQueuedNaming_of_look {x : Aisle} (hx : s.aisles.look a = some x) : s.dropQueuedNaming n a =
    { s with aisles := s.aisles.adjust a (Aisle.unqueued n), bins := clearedIf n (movesBin n x.queue) s.bins } := by
  simp only [State.dropQueuedNaming, hx]
  have hany : (x.queue.any fun j => j.names n && decide (j.kind = .transfer)) = movesBin n x.queue := rfl
  rw [hany]
  cases movesBin n x.queue <;> rfl

theorem State.dropStagedNaming_of_look {x : Aisle} (hx : s.aisles.look a = some x) : s.dropStagedNaming n a =
    { s with
      aisles := s.aisles.adjust a (Aisle.unheld n), bins := clearedIf n (movesBin n x.crane.staged.toList) s.bins
      link := { s.link with field := s.link.field ++ s.unstageFrames n a x } } := by
  have hself : (∀ j ∈ x.crane.staged, j.bin ≠ some n) → s.aisles.adjust a (Aisle.unheld n) = s.aisles := fun h =>
    Table.adjust_eq_self_of_look fun y hy => by
      obtain rfl := Option.some.inj (hx.symm.trans hy)
      have hkept : x.crane.staged.filter (fun j => !decide (j.bin = some n)) = x.crane.staged := by
        cases hj : x.crane.staged with
        | none => rfl
        | some j => simp [Option.filter, h j hj]
      rw [Aisle.unheld, hkept]
  simp only [State.dropStagedNaming, hx, Option.bind_some]
  cases hj : x.crane.staged with
  | none =>
    rw [hself (by simp [hj])]
    simp [clearedIf, movesBin, State.unstageFrames, hj]
  | some j =>
    by_cases hn : j.bin = some n
    · have hadj : s.aisles.adjust a (Aisle.unheld n) =
          s.aisles.adjust a fun y => { y with crane := { y.crane with staged := none } } :=
        Table.adjust_congr fun y hy => by
          obtain rfl := Option.some.inj (hx.symm.trans hy)
          simp [Aisle.unheld, hj, hn]
      rw [hadj]
      simp only [Job.names, hn, decide_true, if_true, State.sendCrane, State.send, Link.sendTo_eq, State.unstageFrames, hj,
        Option.filter_some, Option.bind_some, movesBin, Option.toList_some, List.any_cons, List.any_nil, Bool.or_false,
        Bool.true_and]
      by_cases hk : j.kind = .transfer
      · rw [if_pos hk]
        simp only [hk, decide_true, clearedIf, if_true]
        rfl
      · rw [if_neg hk]
        simp only [hk, decide_false, clearedIf]
        rfl
    · rw [hself (by simp [hj, hn])]
      simp [Job.names, hn, clearedIf, movesBin, State.unstageFrames, hj, Option.filter]

/-- The queued jobs are dropped where they name the bin (R92). -/
def State.dropQueued (s : State) (n : Nat) : State := s.aisles.numbers.foldl (fun s a => s.dropQueuedNaming n a) s

/-- The staged jobs are dropped where they name the bin (R92). -/
def State.dropHeld (s : State) (n : Nat) : State := s.aisles.numbers.foldl (fun s a => s.dropStagedNaming n a) s

theorem State.dropQueued_eq (hw : s.aisles.wf = true) : s.dropQueued n =
    { s with
      aisles := s.aisles.mapRecords fun _ => Aisle.unqueued n
      bins := clearedIf n (s.aisles.any fun e => movesBin n e.2.queue) s.bins } := by
  refine (foldl_dropped (n := n) hw (g := Aisle.unqueued n) (p := fun x => movesBin n x.queue) (frames := fun _ _ => [])
    fun u a x _ hx => ?_).trans ?_
  · rw [State.dropQueuedNaming_of_look hx]
    simp
  · rw [List.flatMap_eq_nil_iff.2 fun _ _ => rfl, List.append_nil]

theorem State.dropHeld_eq (hw : s.aisles.wf = true) : s.dropHeld n =
    { s with
      aisles := s.aisles.mapRecords fun _ => Aisle.unheld n
      bins := clearedIf n (s.aisles.any fun e => movesBin n e.2.crane.staged.toList) s.bins
      link := { s.link with field := s.link.field ++ s.aisles.flatMap fun e => s.unstageFrames n e.1 e.2 } } := by
  refine foldl_dropped (n := n) hw (step := fun s a => s.dropStagedNaming n a)
    (p := fun x => movesBin n x.crane.staged.toList) fun u a x hu hx => ?_
  rw [State.dropStagedNaming_of_look hx]
  unfold State.unstageFrames
  rw [hu]

theorem any_or {α : Type} (l : List α) (p q : α → Bool) : (l.any fun e => p e || q e) = (l.any p || l.any q) := by
  induction l with
  | nil => rfl
  | cons e l ih =>
    simp only [List.any_cons, ih]
    cases p e <;> cases q e <;> simp

/-- The jobs that wait are dropped where they name the bin (R92). -/
theorem State.dropWaiting_eq (hw : s.aisles.wf = true) : (s.dropQueued n).dropHeld n =
    { s with
      aisles := s.aisles.mapRecords fun _ y => (y.unqueued n).unheld n
      bins := clearedIf n (s.aisles.any fun e => movesBin n (e.2.queue ++ e.2.crane.staged.toList)) s.bins
      link := { s.link with field := s.link.field ++ s.aisles.flatMap fun e => s.unstageFrames n e.1 e.2 } } := by
  have hany : (s.aisles.any fun e => movesBin n (e.2.queue ++ e.2.crane.staged.toList)) =
      ((s.aisles.any fun e => movesBin n e.2.queue) || s.aisles.any fun e => movesBin n e.2.crane.staged.toList) := by
    rw [← any_or]
    simp only [movesBin, List.any_append]
  rw [State.dropHeld_eq (s := s.dropQueued n) (by rw [State.dropQueued_eq hw, Table.wf_mapRecords]; exact hw),
    State.dropQueued_eq hw]
  simp only [Table.mapRecords_mapRecords, clearedIf_clearedIf, hany]
  simp only [Table.mapRecords, List.any_map, List.flatMap_map]
  rfl

end

end Sys2Proof.Machine
end

section
/-! A bin is taken out of the other lanes and in-transit lists (R86, R92). -/
namespace Sys2Proof.Machine

section
variable {s t u w : State} {st o n a m : Nat} {l pre post : List Nat} {x y : Station}

/-- The station without an entry of the bin on its in-transit list (R89). -/
def Station.untransited (n : Nat) (x : Station) : Station := { x with inTransit := x.inTransit.filter fun e => !decide (e.bin = n) }

/-- The stations of a list without an entry of the bin on their in-transit lists. -/
def State.untransited (s : State) (n : Nat) (l : List Nat) : State :=
  { s with stations := s.stations.mapRecords fun m y => if m ∈ l then y.untransited n else y }

theorem State.untransited_look (s : State) (n : Nat) (l : List Nat) (o : Nat) :
    (s.untransited n l).stations.look o = (s.stations.look o).map fun y => if o ∈ l then y.untransited n else y :=
  Table.look_mapRecords s.stations (fun m y => if m ∈ l then y.untransited n else y) o

theorem State.removeTransit_untransited (hw : s.stations.wf = true) (n : Nat) (l : List Nat) (o : Nat) :
    (s.untransited n l).removeTransit n o = s.untransited n (l ++ [o]) := by
  have hidem : ∀ y : Station, (y.untransited n).untransited n = y.untransited n := fun y => by
    simp [Station.untransited, List.filter_filter]
  have hadj := Table.adjust_mapRecords_ite hw (p := fun m => decide (m ∈ l)) hidem o
  simp only [decide_eq_true_eq] at hadj
  refine (congrArg s.setStations hadj).trans (congrArg s.setStations (Table.mapRecords_congr fun e _ => ?_))
  simp [eq_comm (a := o)]

theorem State.untransited_untransited (n : Nat) (l k : List Nat) :
    (s.untransited n l).untransited n k = s.untransited n (l ++ k) := by
  unfold State.untransited
  rw [Table.mapRecords_mapRecords]
  refine congrArg s.setStations (Table.mapRecords_congr fun e _ => ?_)
  by_cases h1 : e.1 ∈ l <;> by_cases h2 : e.1 ∈ k <;> simp [h1, h2, Station.untransited, List.filter_filter]

/-- A station in whose lane the bin does not stand keeps it (R86). -/
theorem State.removeFromLane_of_not_mem (h : ∀ y, s.stations.look o = some y → Place.bin n ∉ y.lane) :
    s.removeFromLane n o = s := by
  unfold State.removeFromLane
  split
  · rfl
  next y hy => rw [if_neg (by simpa using h y hy)]

/-- The bin is out of the lane, and the presentation that it had is ended (R86, R113). -/
def State.outOfLane (s : State) (n o : Nat) : State :=
  { s with
    stations := s.stations.adjust o fun y => { y with lane := y.lane.filter fun p => !decide (p = .bin n) }
    requests := s.requests.map fun r =>
      if s.presentedBin o = some n ∧ r.state = .presented ∧ s.standsFor n o r = true then { r with state := .atStation } else r }

theorem State.removeFromLane_of_mem (hy : s.stations.look o = some y) (hm : Place.bin n ∈ y.lane) :
    s.removeFromLane n o = if y.lane.head? = some (.bin n) then (s.outOfLane n o).presentTop o else s.outOfLane n o := by
  have hout : (if decide (s.presentedBin o = some n) then s.endPresentation o else s).modStation o (fun y => y.dropBin n) =
      s.outOfLane n o := by
    unfold State.outOfLane
    by_cases hp : s.presentedBin o = some n
    · rw [if_pos (by simpa using hp)]
      simp only [State.endPresentation, hp]
      simp only [true_and, Bool.and_eq_true, decide_eq_true_eq]
      rfl
    · rw [if_neg (by simpa using hp)]
      simp only [hp, false_and, if_false, List.map_id']
      rfl
  simp only [State.removeFromLane, hy]
  rw [if_pos (by simpa using hm), hout]
  simp only [decide_eq_true_eq]

/-! ### The in-transit lists have no part in a presentation -/

theorem State.untransited_presentedBin (s : State) (n : Nat) (l : List Nat) (o : Nat) :
    (s.untransited n l).presentedBin o = s.presentedBin o := by
  unfold State.presentedBin
  rw [State.untransited_look]
  cases s.stations.look o with
  | none => rfl
  | some y =>
    by_cases h : o ∈ l <;> simp only [Option.map_some, h, if_true, if_false] <;> rfl

theorem State.presentTop_untransited (s : State) (n : Nat) (l : List Nat) (o : Nat) :
    (s.untransited n l).presentTop o = (s.presentTop o).untransited n l := by
  have hp := s.untransited_presentedBin n l o
  cases hb : s.presentedBin o with
  | none =>
    rw [State.presentTop_of_none hb, State.presentTop_of_none (hp.trans hb)]
  | some b =>
    obtain ⟨y, hy⟩ : ∃ y, s.stations.look o = some y := by
      cases hy : s.stations.look o with
      | none => simp [State.presentedBin, hy] at hb
      | some y => exact ⟨y, rfl⟩
    obtain ⟨y', hy', hloaded, hreturns⟩ : ∃ y', (s.untransited n l).stations.look o = some y' ∧ y'.loaded = y.loaded
        ∧ y'.returns = y.returns := by
      rw [State.untransited_look, hy]
      refine ⟨_, rfl, ?_⟩
      split <;> exact ⟨rfl, rfl⟩
    have hopen : (s.untransited n l).stationOpen o = s.stationOpen o := by
      simp only [State.stationOpen, State.stationZone, hy, hy', Option.map_some, hloaded]
      rfl
    rw [State.presentTop_of_presented hy hb, State.presentTop_of_presented hy' (hp.trans hb), hopen, hloaded, hreturns,
      State.posted_rest, State.posted_rest s, State.posted_link, State.posted_link]
    dsimp only
    split <;> rfl

theorem State.outOfLane_untransited (s : State) (n : Nat) (l : List Nat) (o : Nat) :
    (s.untransited n l).outOfLane n o = (s.outOfLane n o).untransited n l := by
  unfold State.outOfLane
  rw [State.untransited_presentedBin]
  have hstations : (s.untransited n l).stations.adjust o (fun y => { y with lane := y.lane.filter fun p => !decide (p = .bin n) }) =
      (s.stations.adjust o fun y => { y with lane := y.lane.filter fun p => !decide (p = .bin n) }).mapRecords fun m y =>
        if m ∈ l then y.untransited n else y :=
    Table.adjust_mapRecords_comm (f := fun m y => if m ∈ l then Station.untransited n y else y)
      (g := fun y => { y with lane := y.lane.filter fun p => !decide (p = .bin n) }) fun y => by split <;> rfl
  rw [hstations]
  rfl

theorem State.removeFromLane_untransited (s : State) (n : Nat) (l : List Nat) (o : Nat) :
    (s.untransited n l).removeFromLane n o = (s.removeFromLane n o).untransited n l := by
  cases hy : s.stations.look o with
  | none =>
    have hy' : (s.untransited n l).stations.look o = none := by rw [State.untransited_look, hy]; rfl
    simp only [State.removeFromLane, hy, hy']
  | some y =>
    obtain ⟨y', hy', hlane⟩ : ∃ y', (s.untransited n l).stations.look o = some y' ∧ y'.lane = y.lane := by
      rw [State.untransited_look, hy]
      refine ⟨_, rfl, ?_⟩
      split <;> rfl
    by_cases hm : Place.bin n ∈ y.lane
    · rw [State.removeFromLane_of_mem hy hm, State.removeFromLane_of_mem hy' (hlane ▸ hm), hlane, State.outOfLane_untransited]
      split
      · exact State.presentTop_untransited _ n l o
      · rfl
    · rw [State.removeFromLane_of_not_mem (s := s) fun z hz => by rw [← Option.some.inj (hy.symm.trans hz)]; exact hm,
        State.removeFromLane_of_not_mem fun z hz => by rw [← Option.some.inj (hy'.symm.trans hz), hlane]; exact hm]

/-- The bin is taken out of the lane and the in-transit list of a station (R92). -/
def State.takeFromStation (n : Nat) (s : State) (o : Nat) : State := (s.removeFromLane n o).removeTransit n o

/-- Where no lane of the list holds the bin, the in-transit lists alone change. -/
theorem State.foldl_takeFromStation (hw : s.stations.wf = true) (pre l : List Nat)
    (h : ∀ m ∈ l, ∀ y, s.stations.look m = some y → Place.bin n ∉ y.lane) :
    l.foldl (State.takeFromStation n) (s.untransited n pre) = s.untransited n (pre ++ l) := by
  induction l generalizing pre with
  | nil => rw [List.append_nil]; rfl
  | cons o l ih =>
    have hself : s.removeFromLane n o = s := State.removeFromLane_of_not_mem (h o List.mem_cons_self)
    rw [List.foldl_cons, State.takeFromStation, State.removeFromLane_untransited, hself,
      State.removeTransit_untransited hw, ih _ fun m hm => h m (List.mem_cons_of_mem _ hm), List.append_assoc]
    rfl

theorem State.untransited_nil (s : State) (n : Nat) : s.untransited n [] = s := by
  unfold State.untransited
  rw [Table.mapRecords_eq_self (by simp)]

/-- A presentation asks nothing of the stations. -/
theorem State.presentTop_stations (s : State) (o : Nat) : (s.presentTop o).stations = s.stations := by
  cases hb : s.presentedBin o with
  | none => rw [State.presentTop_of_none hb]
  | some b =>
    obtain ⟨y, hy⟩ : ∃ y, s.stations.look o = some y := by
      cases hy : s.stations.look o with
      | none => simp [State.presentedBin, hy] at hb
      | some y => exact ⟨y, rfl⟩
    have hposted : ∀ l, (s.posted l).stations = s.stations := fun l => by rw [State.posted_rest s]
    rw [State.presentTop_of_presented hy hb]
    dsimp only
    split <;> exact hposted _

theorem State.removeFromLane_stations (hy : s.stations.look o = some y) (hm : Place.bin n ∈ y.lane) :
    (s.removeFromLane n o).stations = (s.outOfLane n o).stations := by
  rw [State.removeFromLane_of_mem hy hm]
  split
  · exact State.presentTop_stations _ o
  · rfl

/-- A bin that stands in one lane of a list is taken out of it first (R92). -/
theorem State.foldl_takeFromStation_at (hw : s.stations.wf = true) (hnd : (pre ++ o :: post).Nodup)
    (hy : s.stations.look o = some y) (hm : Place.bin n ∈ y.lane)
    (h : ∀ m ∈ pre ++ post, ∀ z, s.stations.look m = some z → Place.bin n ∉ z.lane) :
    (pre ++ o :: post).foldl (State.takeFromStation n) s = (s.removeFromLane n o).untransited n (pre ++ o :: post) := by
  have hst := State.removeFromLane_stations hy hm
  have hw' : (s.removeFromLane n o).stations.wf = true := by
    rw [hst]
    show (s.stations.adjust o _).wf = true
    rw [Table.wf_adjust]
    exact hw
  have hpost : ∀ m ∈ post, ∀ z, (s.removeFromLane n o).stations.look m = some z → Place.bin n ∉ z.lane := fun m hmem z hz => by
    have hne : m ≠ o := fun he => by
      have hnd' := (List.nodup_append.1 hnd).2.1
      exact (List.nodup_cons.1 hnd').1 (he ▸ hmem)
    rw [hst] at hz
    have hz' : s.stations.look m = some z := by
      have hlook := Table.look_adjust s.stations o m fun y => { y with lane := y.lane.filter fun p => !decide (p = .bin n) }
      rw [if_neg hne] at hlook
      exact hlook.symm.trans hz
    exact h m (List.mem_append_right _ hmem) z hz'
  have hfirst := State.foldl_takeFromStation (n := n) hw [] pre fun m hmem => h m (List.mem_append_left _ hmem)
  rw [State.untransited_nil, List.nil_append] at hfirst
  rw [List.foldl_append, hfirst, List.foldl_cons, State.takeFromStation, State.removeFromLane_untransited,
    State.removeTransit_untransited hw', State.foldl_takeFromStation hw' _ _ hpost, List.append_assoc]
  rfl

end

end Sys2Proof.Machine
end

section
/-! What a late or unexpected bin is taken from (R92), put together. -/
namespace Sys2Proof.Machine

section
variable {s t u w : State} {st o n a m : Nat} {l pre post : List Nat} {x y : Station}

theorem State.takeFromElsewhere_eq (s : State) (n st : Nat) : s.takeFromElsewhere n st =
    (((s.otherStations st).foldl (State.takeFromStation n) s).dropQueued n).dropHeld n := rfl

theorem State.mem_otherStations : m ∈ s.otherStations st ↔ m ∈ s.stations.numbers ∧ m ≠ st := by
  simp [State.otherStations]

/-- No other lane holds the bin. -/
def State.noOtherLane (s : State) (n st : Nat) : Prop :=
  ∀ m y, m ≠ st → s.stations.look m = some y → Place.bin n ∉ y.lane

theorem State.takeFromElsewhere_of_none (hst : s.stations.wf = true) (h : s.noOtherLane n st) :
    s.takeFromElsewhere n st = ((s.untransited n (s.otherStations st)).dropQueued n).dropHeld n := by
  have hfold := State.foldl_takeFromStation (n := n) hst [] (s.otherStations st) fun m hm y hy =>
    h m y (State.mem_otherStations.1 hm).2 hy
  rw [State.untransited_nil, List.nil_append] at hfold
  rw [State.takeFromElsewhere_eq, hfold]

theorem State.untransited_others (s : State) (n st : Nat) : (s.untransited n (s.otherStations st)).stations =
    s.stations.mapRecords fun m y => if m = st then y else { y with inTransit := y.inTransit.filter fun e => !decide (e.bin = n) } := by
  show s.stations.mapRecords (fun m y => if m ∈ s.otherStations st then y.untransited n else y) = _
  refine Table.mapRecords_congr fun e he => ?_
  have hmem : e.1 ∈ s.otherStations st ↔ e.1 ≠ st :=
    State.mem_otherStations.trans (and_iff_right (List.mem_map_of_mem he))
  by_cases h : e.1 = st
  · rw [if_neg (by rw [hmem]; exact fun hn => hn h), if_pos h]
  · rw [if_pos (hmem.2 h), if_neg h]
    rfl

/-- The lanes of a state from which the bin has been taken at one station. -/
theorem State.removeFromLane_noOtherLane (hy : s.stations.look o = some y) (hm : Place.bin n ∈ y.lane)
    (h : ∀ m z, m ≠ st → m ≠ o → s.stations.look m = some z → Place.bin n ∉ z.lane) :
    (s.removeFromLane n o).noOtherLane n st := by
  intro m z hmst hz
  rw [State.removeFromLane_stations hy hm] at hz
  have hlook := Table.look_adjust s.stations o m fun y => { y with lane := y.lane.filter fun p => !decide (p = .bin n) }
  have hz' := hlook.symm.trans hz
  by_cases hmo : m = o
  · rw [if_pos hmo, hy] at hz'
    cases hz'
    simp
  · rw [if_neg hmo] at hz'
    exact h m z hmst hmo hz'

/-- A bin that stands in the lane of another station is taken out of it first. -/
theorem State.takeFromElsewhere_at (ht : s.tablesLawful = true) (ho : o ≠ st) (hy : s.stations.look o = some y)
    (hm : Place.bin n ∈ y.lane) (h : ∀ m z, m ≠ st → m ≠ o → s.stations.look m = some z → Place.bin n ∉ z.lane) :
    s.takeFromElsewhere n st = (s.removeFromLane n o).takeFromElsewhere n st := by
  obtain ⟨-, hst, -⟩ := (tablesLawful_iff s).1 ht
  have hstations := State.removeFromLane_stations hy hm
  have hnumbers : (s.removeFromLane n o).stations.numbers = s.stations.numbers := by
    rw [hstations]
    exact Table.numbers_adjust s.stations o _
  have hst' : (s.removeFromLane n o).stations.wf = true := by
    rw [hstations]
    show (s.stations.adjust o _).wf = true
    rw [Table.wf_adjust]
    exact hst
  have hothers : (s.removeFromLane n o).otherStations st = s.otherStations st := by
    unfold State.otherStations
    rw [hnumbers]
  have hmem : o ∈ s.otherStations st := State.mem_otherStations.2 ⟨Table.mem_numbers_of_look hy, ho⟩
  obtain ⟨pre, post, hsplit⟩ := List.append_of_mem hmem
  have hnd : (s.otherStations st).Nodup := (Table.nodup_numbers hst).sublist List.filter_sublist
  rw [State.takeFromElsewhere_of_none hst' (State.removeFromLane_noOtherLane hy hm h), hothers, State.takeFromElsewhere_eq]
  rw [hsplit] at hnd ⊢
  rw [State.foldl_takeFromStation_at hst hnd hy hm fun m hmm z hz => ?_]
  have hin : m ∈ s.otherStations st := by
    rw [hsplit]
    rcases List.mem_append.1 hmm with h1 | h1
    · exact List.mem_append_left _ h1
    · exact List.mem_append_right _ (List.mem_cons_of_mem _ h1)
  have hne : m ≠ o := fun he => by
    subst he
    rw [List.nodup_middle] at hnd
    exact (List.nodup_cons.1 hnd).1 hmm
  exact h m z (State.mem_otherStations.1 hin).2 hne hz

/-- R92, where no other lane holds the bin. -/
theorem State.takeFromElsewhere_records (ht : s.tablesLawful = true) (h : s.noOtherLane n st) : s.takeFromElsewhere n st =
    { s with
      stations := s.stations.mapRecords fun m y =>
        if m = st then y else { y with inTransit := y.inTransit.filter fun e => !decide (e.bin = n) }
      aisles := s.aisles.mapRecords fun _ y => (y.unqueued n).unheld n
      bins := clearedIf n (s.aisles.any fun e => movesBin n (e.2.queue ++ e.2.crane.staged.toList)) s.bins
      link := { s.link with
        field := s.link.field ++ s.aisles.filterMap fun e =>
          (e.2.crane.staged.filter fun j => decide (j.bin = some n)).bind fun j =>
            (s.craneAddress e.1).map fun d => fieldFrame d (.unstage j.tag) } } := by
  obtain ⟨hai, hst, -⟩ := (tablesLawful_iff s).1 ht
  rw [State.takeFromElsewhere_of_none hst h, State.dropWaiting_eq (s := s.untransited n (s.otherStations st)) hai,
    ← State.untransited_others, ← flatMap_toList_eq_filterMap]
  rfl

end

end Sys2Proof.Machine
end

section
/-! BIN_ARRIVED: an arriving bin joins the lane by what was expected of it (R86 to R95). -/
namespace Sys2Proof.Machine

section
variable {s t u w v : State} {st o n a m src : Nat} {l pre post : List Nat} {x y : Station} {p : Place} {b : Bin}

/-! ### The place before is covered (R86, R113) -/

/-- The requests once the place at the top of the lane is covered (R113). -/
def State.covered (w : State) (st : Nat) : List Request :=
  w.requests.map fun r =>
    if r.state = .presented ∧ ∃ m, w.presentedBin st = some m ∧ w.standsFor m st r = true then { r with state := .atStation }
    else r

theorem State.endPresentation_eq (w : State) (st : Nat) : w.endPresentation st = { w with requests := w.covered st } := by
  unfold State.endPresentation State.covered
  cases w.presentedBin st with
  | none => simp
  | some m =>
    simp only [Option.some.injEq, exists_eq_left', Bool.and_eq_true, decide_eq_true_eq]
    rfl

theorem State.pushPlace_eq (w : State) (st : Nat) (p : Place) : w.pushPlace st p =
    { w with stations := w.stations.adjust st fun y => { y with lane := p :: y.lane }, requests := w.covered st } := by
  rw [State.pushPlace, State.endPresentation_eq]
  rfl

/-- The requests that are covered depend on the lane, the bins and the items alone. -/
theorem State.covered_congr (hp : v.presentedBin st = w.presentedBin st) (hr : v.requests = w.requests)
    (hi : v.items = w.items) : v.covered st = w.covered st := by
  have hs : v.standsFor = w.standsFor := by
    unfold State.standsFor State.standsOn State.homeOf
    rw [hi]
  unfold State.covered
  rw [hp, hr, hs]

/-- A change of the stations that keeps the lanes keeps the presented bin. -/
theorem State.presentedBin_of_lanes (hb : v.bins = w.bins)
    (hl : (v.stations.look st).map Station.lane = (w.stations.look st).map Station.lane) :
    v.presentedBin st = w.presentedBin st := by
  have hstate : v.binState = w.binState := by
    unfold State.binState
    rw [hb]
  unfold State.presentedBin
  rw [hstate]
  cases hv : v.stations.look st <;> cases hw : w.stations.look st <;> simp only [hv, hw, Option.map_some, Option.map_none,
    Option.some.injEq, reduceCtorEq] at hl
  · rfl
  · simp only [hl]

/-- The overdue lists without the bin (R89). -/
def homed (n : Nat) (t : Table Station) : Table Station :=
  t.mapRecords fun _ y => { y with overdue := y.overdue.filter (· != n) }

theorem homed_homed (n : Nat) (t : Table Station) : homed n (homed n t) = homed n t := by
  unfold homed
  rw [Table.mapRecords_mapRecords]
  simp [List.filter_filter]

theorem State.leaveOverdue_eq (w : State) (n : Nat) : w.leaveOverdue n = { w with stations := homed n w.stations } := rfl

theorem State.presentedBin_leaveOverdue (w : State) (n st : Nat) : (w.leaveOverdue n).presentedBin st = w.presentedBin st := by
  refine State.presentedBin_of_lanes rfl ?_
  rw [State.leaveOverdue_eq, homed, Table.look_mapRecords, Option.map_map]
  rfl

theorem State.pushPlace_leaveOverdue (w : State) (n st : Nat) (p : Place) :
    (w.leaveOverdue n).pushPlace st p = (w.pushPlace st p).leaveOverdue n := by
  have hcovered : (w.leaveOverdue n).covered st = w.covered st :=
    State.covered_congr (w.presentedBin_leaveOverdue n st) rfl rfl
  have hcomm : (homed n w.stations).adjust st (fun y => { y with lane := p :: y.lane }) =
      homed n (w.stations.adjust st fun y => { y with lane := p :: y.lane }) :=
    Table.adjust_mapRecords_comm (t := w.stations) (f := fun _ y => ({ y with overdue := y.overdue.filter (· != n) } : Station))
      (g := fun y => { y with lane := p :: y.lane }) fun _ => rfl
  rw [State.pushPlace_eq, State.pushPlace_eq, hcovered]
  exact congrArg (fun v => { w with stations := v, requests := w.covered st }) hcomm

/-- The bin's new state, with the overdue lists without it whatever its state was. -/
theorem State.setBinState_leaveOverdue (w : State) (n : Nat) (v : BinState) : (w.setBinState n v).leaveOverdue n =
    { w with bins := w.bins.adjust n fun b => { b with state := v }, stations := homed n w.stations } := by
  unfold State.setBinState
  dsimp only
  split
  · rw [State.leaveOverdue_eq, State.leaveOverdue_eq]
    exact congrArg (fun t => { w with bins := w.bins.adjust n fun b => { b with state := v }, stations := t })
      (homed_homed n w.stations)
  · rfl

theorem State.leaveOverdue_setBinState (w : State) (n : Nat) (v : BinState) : (w.leaveOverdue n).setBinState n v =
    { w with bins := w.bins.adjust n fun b => { b with state := v }, stations := homed n w.stations } := by
  unfold State.setBinState
  dsimp only
  split
  · rw [State.leaveOverdue_eq, State.leaveOverdue_eq]
    exact congrArg (fun t => { w with bins := w.bins.adjust n fun b => { b with state := v }, stations := t })
      (homed_homed n w.stations)
  · rfl

/-! ### The arrivals -/

/-- The lane hold of the station is ended, in the words of the records (R101). -/
theorem State.endHold_eq (s : State) (st : Nat) :
    s.endHold st = { s with stations := s.stations.adjust st fun y => { y with hold := false } } := rfl

theorem State.arriveOnTime_eq (w : State) (st n : Nat) : w.arriveOnTime st n =
    ({ w with
       stations := homed n ((w.stations.adjust st fun y => { y with lane := .bin n :: y.lane }).adjust st fun y =>
         { y with inTransit := y.inTransit.filter fun e => !decide (e.bin = n) })
       requests := w.covered st
       bins := w.bins.adjust n fun b => { b with state := .inLane } } : State).presentTop st := by
  have hcovered : (w.removeTransit n st).covered st = w.covered st := by
    refine State.covered_congr (State.presentedBin_of_lanes rfl ?_) rfl rfl
    unfold State.removeTransit State.modStation
    rw [Table.look_adjust, if_pos rfl, Option.map_map]
    rfl
  rw [State.arriveOnTime, State.pushPlace_eq, hcovered, State.setBinState_leaveOverdue]
  unfold State.removeTransit State.modStation
  simp only [Table.adjust_adjust]

theorem State.arriveLate_eq (w : State) (st n : Nat) : w.arriveLate st n =
    (({ w.takeFromElsewhere n st with
        stations := homed n ((w.takeFromElsewhere n st).stations.adjust st fun y => { y with lane := .bin n :: y.lane })
        requests := (w.takeFromElsewhere n st).covered st
        bins := (w.takeFromElsewhere n st).bins.adjust n fun b => { b with state := .inLane, trip := some st } } : State).report
      .lateArrival (.bin n) (some (.number st))).presentTop st := by
  rw [State.arriveLate, State.pushPlace_leaveOverdue, State.leaveOverdue_setBinState, State.pushPlace_eq]
  simp only [State.setTrip, State.modBin, Table.adjust_adjust]

theorem State.arriveUnexpected_eq (w : State) (st n : Nat) : w.arriveUnexpected st n =
    (({ w.takeFromElsewhere n st with
        stations := homed n ((w.takeFromElsewhere n st).stations.adjust st fun y => { y with lane := .bin n :: y.lane })
        requests := (w.takeFromElsewhere n st).covered st
        bins := (w.takeFromElsewhere n st).bins.adjust n fun b => { b with trip := some st } } : State).enterDoubt n).report
      .unexpectedBin (.bin n) (some (.number st)) := by
  rw [State.arriveUnexpected, State.pushPlace_leaveOverdue, State.pushPlace_eq]
  rfl

theorem State.arriveTray_eq (w : State) (st n : Nat) : w.arriveTray st n =
    ({ w with
       stations := w.stations.adjust st fun y => { y with lane := .tray n :: y.lane }, requests := w.covered st } : State).report
      .unexpectedBin (.bin n) (some (.number st)) := by
  rw [State.arriveTray, State.pushPlace_eq]
  rfl

/-! ### The bin that finds the lane full (R95) -/

theorem State.presentTop_binState (w : State) (o : Nat) : (w.presentTop o).binState = w.binState := by
  cases hb : w.presentedBin o with
  | none => rw [State.presentTop_of_none hb]
  | some b =>
    obtain ⟨y, hy⟩ : ∃ y, w.stations.look o = some y := by
      cases hy : w.stations.look o with
      | none => simp [State.presentedBin, hy] at hb
      | some y => exact ⟨y, rfl⟩
    have hposted : ∀ l, (w.posted l).binState = w.binState := fun l => by
      rw [State.posted_rest w]
      rfl
    rw [State.presentTop_of_presented hy hb]
    dsimp only
    split <;> exact hposted _

theorem State.removeFromLane_binState (w : State) (n o : Nat) : (w.removeFromLane n o).binState = w.binState := by
  cases hy : w.stations.look o with
  | none => rw [State.removeFromLane_of_not_mem (by simp [hy])]
  | some y =>
    by_cases hm : Place.bin n ∈ y.lane
    · rw [State.removeFromLane_of_mem hy hm]
      split
      · exact State.presentTop_binState _ o
      · rfl
    · rw [State.removeFromLane_of_not_mem fun z hz => by rw [← Option.some.inj (hy.symm.trans hz)]; exact hm]

theorem State.clearPending_binState (w : State) (n : Nat) : (w.clearPending n).binState = w.binState := by
  funext m
  show ((w.bins.adjust n fun b => { b with pendingHome := none }).look m).map _ = _
  rw [Table.look_adjust]
  split
  next h =>
    subst h
    rw [Option.map_map]
    rfl
  · rfl

theorem foldl_binState {ι : Type} {f : State → ι → State} (hf : ∀ u i, (f u i).binState = u.binState) (w : State)
    (l : List ι) : (l.foldl f w).binState = w.binState := by
  induction l generalizing w with
  | nil => rfl
  | cons i l ih => exact (ih _).trans (hf w i)

theorem State.takeFromElsewhere_binState (w : State) (n st : Nat) : (w.takeFromElsewhere n st).binState = w.binState := by
  rw [State.takeFromElsewhere_eq]
  refine (foldl_binState (fun u a => ?_) _ _).trans ((foldl_binState (fun u a => ?_) _ _).trans
    (foldl_binState (f := State.takeFromStation n) (fun u o => State.removeFromLane_binState u n o) _ _))
  · unfold State.dropStagedNaming
    split
    · rfl
    · split
      · split
        · exact (State.clearPending_binState _ n).trans rfl
        · rfl
      · rfl
  · unfold State.dropQueuedNaming
    split
    · rfl
    · dsimp only
      split
      · exact (State.clearPending_binState _ n).trans rfl
      · rfl

/-- The hand-offs of a loss leave the bin as its entry has set it (R11). -/
theorem SameBin.enterLoss (w : State) (n : Nat) (v : BinState) (code : Option Code) :
    SameBin n (((w.setBinState n v).modBin n fun b => { b with next := none }).report (lossReport v) (.bin n) code)
      (w.enterLoss n v code) := by
  unfold State.enterLoss
  dsimp only
  exact (SameBin.failRequests _ _ _).trans
    (SameBin.foldl (f := fun s st => s.displaceAt n (lossCode v) st) (fun u i => .displaceAt u n i _) _ _)

theorem State.enterDoubt_binState (hb : w.binState n ≠ none) : (w.enterDoubt n).binState n = some .inDoubt := by
  unfold State.enterDoubt
  split
  next h => exact of_decide_eq_true h
  next h =>
    obtain ⟨b, hlook⟩ : ∃ b, w.bins.look n = some b := by
      cases hlook : w.bins.look n with
      | none => simp [State.binState, hlook] at hb
      | some b => exact ⟨b, rfl⟩
    have hsame := (SameBin.enterLoss w n .inDoubt none).bin
    rw [State.setBinState_inDoubt] at hsame
    have hfirst : (((w.modBin n fun b => { b with state := .inDoubt }).modBin n fun b => { b with next := none }).report
        (lossReport .inDoubt) (.bin n) none).bins.look n = some { b with state := .inDoubt, next := none } := by
      simp [State.modBin, State.report, State.post, hlook]
    rw [hfirst] at hsame
    unfold State.binState
    obtain ⟨d, hd, hdb⟩ := Option.map_eq_some_iff.1 hsame
    rw [hd]
    exact congrArg some (Prod.mk.inj hdb).1

/-- The lane is held, and STATION_FAULT raised (R95). -/
def State.fullFault (s : State) (st n : Nat) (whole : Bool) : State :=
  (s.holdLane st).raise
    { kind := .stationFault, subject := .station st, jobTag := none, bin := some n, detail := none, recoverable := whole }

theorem State.arriveFull_of_none (h : w.bins.look n = none) : w.arriveFull st n = w.fullFault st n true := by
  have hno : w.binState n = none := by
    unfold State.binState
    rw [h]
    rfl
  simp [State.arriveFull, h, State.fullFault, doubted, hno]

/-- A bin of the Bin Map that finds the lane full is IN_DOUBT (R95); the fault is recoverable where it was so before. -/
theorem State.arriveFull_of_look (h : w.bins.look n = some b) : w.arriveFull st n =
    (w.turnAway st n).fullFault st n (decide (b.state = .inDoubt)) := by
  have hbefore : w.binState n = some b.state := State.binState_of_look h
  have hkept : ((((w.takeFromElsewhere n st).removeTransit n st).leaveOverdue n).clearTrip n).binState n = some b.state := by
    have htrip : ∀ v : State, (v.clearTrip n).binState n = v.binState n := fun v => by
      show ((v.bins.adjust n fun b => { b with trip := none }).look n).map _ = _
      rw [Table.look_adjust, if_pos rfl, Option.map_map]
      rfl
    rw [htrip]
    exact (congrFun (w.takeFromElsewhere_binState n st) n).trans hbefore
  have hafter : (w.turnAway st n).binState n = some .inDoubt := State.enterDoubt_binState (by rw [hkept]; simp)
  simp [State.arriveFull, h, State.fullFault, doubted, hbefore, hafter]

end

end Sys2Proof.Machine
end

section
/-! BIN_ARRIVED settles the lane (O54). -/
namespace Sys2Proof.Machine

section
variable {s t u w v : State} {st o n a m src : Nat} {x y : Station} {b : Bin}

theorem exec_binArrived (ha : s.admits src .station st = true) (hx : s.stations.look st = some x)
    (hu : (s.endHold st).judgeArrival st n x = u) : ∃ t, exec (.binArrived src n) s = .next t ∧ Settled u t := by
  refine ⟨u.settleWing, (next_admission ha 8 _).trans ?_, settled_settleWing u⟩
  simp only [State.takeArrival, hx, hu]

theorem laneIsFull_of_look {y : Station} (hy : w.stations.look st = some y) :
    w.laneIsFull st = decide (y.loaded.depth ≤ y.lane.length) := by
  simp [State.laneIsFull, hy, Station.laneFull]

theorem expects_iff : x.expects n = true ↔ ∃ e ∈ x.inTransit, e.bin = n := by
  simp [Station.expects]

/-- The bin out of its own lane, with the lane hold ended (R93, R101). -/
def State.ownTaken (s : State) (n st : Nat) (x : Station) : State :=
  let u : State :=
    { s with
      stations := s.stations.adjust st fun y => { y with hold := false, lane := x.lane.filter fun p => !decide (p = .bin n) }
      requests := if s.presentedBin st = some n then s.covered st else s.requests }
  if x.lane.head? = some (.bin n) then u.presentTop st else u

theorem State.removeFromLane_endHold (hx : s.stations.look st = some x) :
    (s.endHold st).removeFromLane n st = s.ownTaken n st x := by
  have hx' := endHold_look hx
  have hpresented := presentedBin_endHold hx
  by_cases hm : Place.bin n ∈ x.lane
  · rw [State.removeFromLane_of_mem hx' hm]
    have hout : (s.endHold st).outOfLane n st =
        { s with
          stations := s.stations.adjust st fun y => { y with hold := false, lane := x.lane.filter fun p => !decide (p = .bin n) }
          requests := if s.presentedBin st = some n then s.covered st else s.requests } := by
      have hstations : (s.endHold st).stations.adjust st (fun y => { y with lane := y.lane.filter fun p => !decide (p = .bin n) }) =
          s.stations.adjust st fun y => { y with hold := false, lane := x.lane.filter fun p => !decide (p = .bin n) } := by
        refine (Table.adjust_adjust _ _ _ _).trans (Table.adjust_congr fun z hz => ?_)
        obtain rfl := Option.some.inj (hx.symm.trans hz)
        rfl
      have hrequests : ((s.endHold st).requests.map fun r =>
          if (s.endHold st).presentedBin st = some n ∧ r.state = .presented ∧ (s.endHold st).standsFor n st r = true then
            { r with state := .atStation } else r) = if s.presentedBin st = some n then s.covered st else s.requests := by
        rw [hpresented]
        unfold State.covered
        by_cases hp : s.presentedBin st = some n
        · simp only [hp, true_and, if_true, Option.some.injEq, exists_eq_left']
          rfl
        · simp only [hp, false_and, if_false, List.map_id']
          rfl
      unfold State.outOfLane
      rw [hstations, hrequests]
      rfl
    rw [hout]
    rfl
  · have hself : x.lane.filter (fun p => !decide (p = .bin n)) = x.lane :=
      List.filter_eq_self.2 fun p hp => by
        have hne : p ≠ .bin n := fun he => hm (he ▸ hp)
        simpa using hne
    have hnot : s.presentedBin st ≠ some n := fun hp => by
      obtain ⟨⟨rest, hl⟩, -⟩ := (State.presentedBin_iff hx).1 hp
      exact hm (hl ▸ List.mem_cons_self)
    have hhead : x.lane.head? ≠ some (.bin n) := fun hh => hm (List.mem_of_mem_head? hh)
    rw [State.removeFromLane_of_not_mem fun z hz => by rw [← Option.some.inj (hx'.symm.trans hz)]; exact hm]
    unfold State.ownTaken
    dsimp only
    rw [if_neg hhead, if_neg hnot, hself]
    have hstations : s.stations.adjust st (fun y => { y with hold := false, lane := x.lane }) =
        s.stations.adjust st fun y => { y with hold := false } :=
      Table.adjust_congr fun z hz => by rw [← Option.some.inj (hx.symm.trans hz)]
    rw [hstations]
    rfl

theorem State.ownTaken_stations (s : State) (n st : Nat) (x : Station) : (s.ownTaken n st x).stations =
    s.stations.adjust st fun y => { y with hold := false, lane := x.lane.filter fun p => !decide (p = .bin n) } := by
  unfold State.ownTaken
  dsimp only
  split
  · exact State.presentTop_stations _ st
  · rfl

theorem judgeArrival_expected (he : x.expects n = true) : w.judgeArrival st n x =
    if w.laneIsFull st then w.arriveFull st n else w.arriveOnTime st n := by
  rw [State.judgeArrival, if_pos he]

theorem judgeArrival_overdue (he : x.expects n = false) (ho : n ∈ x.overdue) : w.judgeArrival st n x =
    if w.laneIsFull st then w.arriveFull st n else w.arriveLate st n := by
  rw [State.judgeArrival, if_neg (by simp [he]), if_pos ho]

theorem judgeArrival_unexpected (he : x.expects n = false) (ho : n ∉ x.overdue) (hb : (w.bins.look n).isSome = true) :
    w.judgeArrival st n x =
      if (w.removeFromLane n st).laneIsFull st then (w.removeFromLane n st).arriveFull st n
      else (w.removeFromLane n st).arriveUnexpected st n := by
  rw [State.judgeArrival, if_neg (by simp [he]), if_neg ho, if_pos hb]

theorem judgeArrival_foreign (he : x.expects n = false) (ho : n ∉ x.overdue) (hb : w.bins.look n = none) :
    w.judgeArrival st n x = if w.laneIsFull st then w.arriveFull st n else w.arriveTray st n := by
  rw [State.judgeArrival, if_neg (by simp [he]), if_neg ho, if_neg (by simp [hb])]

/-- A full lane takes no bin, whatever was expected of it, where its own place is not in question (R95). -/
theorem judgeArrival_full (hf : w.laneIsFull st = true) (h : x.expects n = true ∨ n ∈ x.overdue ∨ w.bins.look n = none) :
    w.judgeArrival st n x = w.arriveFull st n := by
  cases he : x.expects n with
  | true => rw [judgeArrival_expected he, if_pos hf]
  | false =>
    by_cases ho : n ∈ x.overdue
    · rw [judgeArrival_overdue he ho, if_pos hf]
    · rw [judgeArrival_foreign he ho ((h.resolve_left (by simp [he])).resolve_left ho), if_pos hf]

theorem not_expects (he : ¬∃ e ∈ x.inTransit, e.bin = n) : x.expects n = false :=
  Bool.eq_false_iff.2 fun h => he (expects_iff.1 h)

theorem laneIsFull_endHold (hx : s.stations.look st = some x) :
    (s.endHold st).laneIsFull st = decide (x.loaded.depth ≤ x.lane.length) :=
  (laneIsFull_of_look (endHold_look hx)).trans rfl

theorem laneIsFull_ownTaken (hx : s.stations.look st = some x) : (s.ownTaken n st x).laneIsFull st =
    decide (x.loaded.depth ≤ (x.lane.filter fun p => !decide (p = .bin n)).length) := by
  refine laneIsFull_of_look (y := { x with hold := false, lane := x.lane.filter fun p => !decide (p = .bin n) }) ?_
  rw [State.ownTaken_stations]
  simp [hx]

/-- An arrival on time settles the lane (R90). -/
theorem arrival_onTime (ha : s.admits src .station st = true) (hx : s.stations.look st = some x)
    (hlt : x.lane.length < x.loaded.depth) (he : ∃ e ∈ x.inTransit, e.bin = n) :
    ∃ t, exec (.binArrived src n) s = .next t ∧ Settled ((s.endHold st).arriveOnTime st n) t := by
  refine exec_binArrived ha hx ?_
  rw [judgeArrival_expected (expects_iff.2 he), laneIsFull_endHold hx, if_neg (by simpa using hlt)]

/-- A late arrival settles the lane (R91). -/
theorem arrival_late (ha : s.admits src .station st = true) (hx : s.stations.look st = some x)
    (hlt : x.lane.length < x.loaded.depth) (he : ¬∃ e ∈ x.inTransit, e.bin = n) (ho : n ∈ x.overdue) :
    ∃ t, exec (.binArrived src n) s = .next t ∧ Settled ((s.endHold st).arriveLate st n) t := by
  refine exec_binArrived ha hx ?_
  rw [judgeArrival_overdue (not_expects he) ho, laneIsFull_endHold hx, if_neg (by simpa using hlt)]

/-- A foreign tray settles the lane (R94). -/
theorem arrival_tray (ha : s.admits src .station st = true) (hx : s.stations.look st = some x)
    (hlt : x.lane.length < x.loaded.depth) (he : ¬∃ e ∈ x.inTransit, e.bin = n) (ho : n ∉ x.overdue)
    (hb : s.bins.look n = none) :
    ∃ t, exec (.binArrived src n) s = .next t ∧ Settled ((s.endHold st).arriveTray st n) t := by
  refine exec_binArrived ha hx ?_
  rw [judgeArrival_foreign (w := s.endHold st) (not_expects he) ho hb, laneIsFull_endHold hx, if_neg (by simpa using hlt)]

/-- An unexpected arrival settles the lane, the bin's own place taken out first (R93). -/
theorem arrival_unexpected (ha : s.admits src .station st = true) (hx : s.stations.look st = some x)
    (hlt : (x.lane.filter fun p => !decide (p = .bin n)).length < x.loaded.depth) (he : ¬∃ e ∈ x.inTransit, e.bin = n)
    (ho : n ∉ x.overdue) (hb : (s.bins.look n).isSome = true) :
    ∃ t, exec (.binArrived src n) s = .next t ∧ Settled ((s.ownTaken n st x).arriveUnexpected st n) t := by
  refine exec_binArrived ha hx ?_
  rw [judgeArrival_unexpected (w := s.endHold st) (not_expects he) ho hb, State.removeFromLane_endHold hx,
    laneIsFull_ownTaken hx, if_neg (by simpa using hlt)]

/-- An arrival that finds the lane full (R95). -/
theorem arrival_full (ha : s.admits src .station st = true) (hx : s.stations.look st = some x)
    (hb : s.bins.look n = some b) (hge : x.loaded.depth ≤ x.lane.length) (h : (∃ e ∈ x.inTransit, e.bin = n) ∨ n ∈ x.overdue) :
    ∃ t, exec (.binArrived src n) s = .next t
      ∧ Settled (((s.endHold st).turnAway st n).fullFault st n (decide (b.state = .inDoubt))) t := by
  refine exec_binArrived ha hx ?_
  rw [judgeArrival_full ((laneIsFull_endHold hx).trans (decide_eq_true hge)) (h.imp expects_iff.2 .inl),
    State.arriveFull_of_look (w := s.endHold st) hb]

/-- An unexpected arrival that finds the lane full, the bin's own place taken out first (R93, R95). -/
theorem arrival_ownFull (ha : s.admits src .station st = true) (hx : s.stations.look st = some x)
    (hb : s.bins.look n = some b) (hge : x.loaded.depth ≤ (x.lane.filter fun p => !decide (p = .bin n)).length)
    (he : ¬∃ e ∈ x.inTransit, e.bin = n) (ho : n ∉ x.overdue) :
    ∃ t, exec (.binArrived src n) s = .next t
      ∧ Settled (((s.ownTaken n st x).turnAway st n).fullFault st n (decide (b.state = .inDoubt))) t := by
  have hown := State.removeFromLane_endHold (n := n) hx
  have hstate := congrFun ((s.endHold st).removeFromLane_binState n st) n
  rw [hown] at hstate
  obtain ⟨d, hd, hds⟩ := Option.map_eq_some_iff.1 (hstate.trans (State.binState_of_look hb))
  have hsome : ((s.endHold st).bins.look n).isSome = true := Option.isSome_iff_exists.2 ⟨b, hb⟩
  refine exec_binArrived ha hx ?_
  rw [judgeArrival_unexpected (not_expects he) ho hsome, hown, laneIsFull_ownTaken hx, if_pos (decide_eq_true hge),
    State.arriveFull_of_look hd, hds]

/-- A label without a bin that finds the lane full (R95). -/
theorem arrival_labelFull (ha : s.admits src .station st = true) (hx : s.stations.look st = some x)
    (hb : s.bins.look n = none) (hge : x.loaded.depth ≤ x.lane.length) :
    ∃ t, exec (.binArrived src n) s = .next t ∧ Settled ((s.endHold st).fullFault st n true) t := by
  refine exec_binArrived ha hx ?_
  rw [judgeArrival_full (w := s.endHold st) ((laneIsFull_endHold hx).trans (decide_eq_true hge)) (.inr (.inr hb)),
    State.arriveFull_of_none (w := s.endHold st) hb]

/-- The records of a bin that finds the lane full (R95). -/
theorem State.turnAway_eq (w : State) (st n : Nat) : w.turnAway st n =
    ({ w.takeFromElsewhere n st with
       stations := homed n ((w.takeFromElsewhere n st).stations.adjust st fun y =>
         { y with inTransit := y.inTransit.filter fun e => !decide (e.bin = n) })
       bins := (w.takeFromElsewhere n st).bins.adjust n fun b => { b with trip := none } } : State).enterDoubt n := by
  unfold State.turnAway
  generalize w.takeFromElsewhere n st = v
  rfl

end

/-- Settles O54: R92 in the words of the records, then each branch of the judgement. -/
theorem arrivalsJoinTheLane : Obligations.ArrivalsJoinTheLane := by
  refine ⟨fun st n s ht => ⟨fun h => ?_, fun o y ho hy hm h => ?_⟩, fun src st n x s ha hx => ?_⟩
  · exact (State.takeFromElsewhere_records ht h).trans rfl
  · rw [State.takeFromElsewhere_at ht ho hy hm h, State.removeFromLane_of_mem hy hm]
    rfl
  · have hcovered : (s.endHold st).covered st = s.covered st := State.covered_congr (presentedBin_endHold hx) rfl rfl
    refine ⟨fun hlt => ⟨fun he => ?_, fun he ho => ?_, fun he ho hb => ?_⟩, fun hlt he ho hb => ?_,
      fun b hb => ⟨fun hge h => ?_, fun hge he ho => ?_⟩, fun hge hb => ?_⟩
    · have h := arrival_onTime ha hx hlt he
      rw [State.arriveOnTime_eq, hcovered] at h
      exact h
    · have h := arrival_late ha hx hlt he ho
      rw [State.arriveLate_eq] at h
      exact h
    · have h := arrival_tray ha hx hlt he ho hb
      rw [State.arriveTray_eq, hcovered] at h
      exact h
    · have h := arrival_unexpected ha hx hlt he ho hb
      rw [State.arriveUnexpected_eq] at h
      exact h
    · have h := arrival_full ha hx hb hge h
      rw [State.turnAway_eq] at h
      exact h
    · have h := arrival_ownFull ha hx hb hge he ho
      rw [State.turnAway_eq] at h
      exact h
    · have h := arrival_labelFull ha hx hb hge
      rw [State.fullFault, State.holdLane, State.endHold, State.modStation, State.modStation, Table.adjust_adjust] at h
      exact h

end Sys2Proof.Machine
end

section
/-! The shelf space of a bin as a sum over the items, and how the sum moves with one item (R24 to R29). -/
namespace Sys2Proof.Machine

/-! ### Sums over the Item Directory -/

/-- The sum over the items of what each weighs. -/
def itemSum (l : Table Item) (w : Item → Nat) : Nat := (l.map fun e => w e.2).sum

section
variable {l : Table Item} {w w' : Item → Nat} {k : Nat} {i : Item}

@[simp] theorem itemSum_cons (e : Nat × Item) : itemSum (e :: l) w = w e.2 + itemSum l w := by
  simp [itemSum]

theorem le_itemSum (h : l.look k = some i) : w i ≤ itemSum l w :=
  List.le_sum_of_mem (List.mem_map_of_mem (f := fun e => w e.2) (Table.mem_of_look h))

theorem itemSum_adjust (f : Item → Item) (h : l.look k = some i) :
    itemSum (l.adjust k f) w + w i = itemSum l w + w (f i) := by
  induction l with
  | nil => cases h
  | cons e l ih =>
    obtain ⟨m, v⟩ := e
    rw [Table.look_cons] at h
    by_cases hm : m = k
    · rw [if_pos hm] at h
      obtain rfl := Option.some.inj h
      simp only [Table.adjust, if_pos hm, itemSum_cons]
      omega
    · rw [if_neg hm] at h
      have := ih h
      simp only [Table.adjust, if_neg hm, itemSum_cons]
      omega

theorem itemSum_put (h : l.look k = none) : itemSum (l.put k i) w = itemSum l w + w i := by
  induction l with
  | nil => simp [Table.put, itemSum]
  | cons e l ih =>
    obtain ⟨m, v⟩ := e
    rw [Table.look_cons] at h
    by_cases hm : m = k
    · rw [if_pos hm] at h
      cases h
    · rw [if_neg hm] at h
      have := ih h
      by_cases hlt : k < m
      · simp only [Table.put, if_pos hlt, itemSum_cons]
        omega
      · simp only [Table.put, if_neg hlt, if_neg hm, itemSum_cons]
        omega

theorem Table.remove_eq_self {α : Type} {t : Table α} (h : ∀ e ∈ t, e.1 ≠ k) : t.remove k = t :=
  List.filter_eq_self.2 fun e he => by simpa using h e he

theorem itemSum_remove (hw : l.wf = true) (h : l.look k = some i) : itemSum (l.remove k) w + w i = itemSum l w := by
  have hnd := Table.nodup_numbers hw
  clear hw
  induction l with
  | nil => cases h
  | cons e l ih =>
    obtain ⟨m, v⟩ := e
    rw [Table.look_cons] at h
    obtain ⟨hm', hnd⟩ := List.nodup_cons.1 (show (m :: Table.numbers l).Nodup from hnd)
    by_cases hm : m = k
    · rw [if_pos hm] at h
      obtain rfl := Option.some.inj h
      have hself : Table.remove l k = l := Table.remove_eq_self fun e he hk => hm' (by
        rw [hm, ← hk]
        exact List.mem_map_of_mem he)
      have : Table.remove ((m, v) :: l) k = l := by
        rw [← hself]
        simp [Table.remove, hm]
      simp only [this, itemSum_cons]
      omega
    · rw [if_neg hm] at h
      have := ih h hnd
      have hcons : Table.remove ((m, v) :: l) k = (m, v) :: Table.remove l k := by
        simp [Table.remove, hm]
      simp only [hcons, itemSum_cons]
      omega

theorem itemSum_mapRecords (f : Nat → Item → Item) :
    itemSum (l.mapRecords f) w = (l.map fun e => w (f e.1 e.2)).sum := by
  simp [itemSum, Table.mapRecords, Function.comp_def]

end

/-! ### What one item takes of a bin -/

/-- What an item adds to the fill of bin `n` (R24). -/
def Item.filling (n : Nat) (i : Item) : Nat := if i.fills n then i.thickness else 0
/-- What an item adds to the reserved of bin `n` (R24). -/
def Item.reserving (n : Nat) (i : Item) : Nat := if i.reserves n then i.thickness else 0
/-- What an item adds to the count of bin `n` (R24). -/
def Item.counting (n : Nat) (i : Item) : Nat := if i.fills n then 1 else 0

theorem shelfSpace_eq (l : Table Item) (p : Item → Bool) : shelfSpace l p = itemSum l fun i => if p i then i.thickness else 0 := by
  induction l with
  | nil => rfl
  | cons e l ih =>
    rw [itemSum_cons, ← ih]
    cases h : p e.2 <;> simp [shelfSpace, h]

theorem countP_eq (l : Table Item) (p : Item → Bool) : (l.countP fun e => p e.2) = itemSum l fun i => if p i then 1 else 0 := by
  induction l with
  | nil => rfl
  | cons e l ih =>
    rw [itemSum_cons, ← ih, List.countP_cons]
    omega

/-- The figures of a bin are the sums over the items (R24). -/
structure Bin.Agrees (b : Bin) (n : Nat) (l : Table Item) : Prop where
  fill : b.fill = itemSum l (Item.filling n)
  reserved : b.reserved = itemSum l (Item.reserving n)
  count : b.count = itemSum l (Item.counting n)

/-- The figures of a bin after an item that weighed as `i` weighs as `j` (R25 to R29). -/
structure Bin.Moved (b c : Bin) (n : Nat) (i j : Item) : Prop where
  fill : i.filling n ≤ b.fill → c.fill + i.filling n = b.fill + j.filling n
  reserved : i.reserving n ≤ b.reserved → c.reserved + i.reserving n = b.reserved + j.reserving n
  count : i.counting n ≤ b.count → c.count + i.counting n = b.count + j.counting n

section
variable {l : Table Item} {k n : Nat} {b c : Bin} {i j : Item}

theorem Bin.Agrees.adjust (h : b.Agrees n l) (hi : l.look k = some i) {f : Item → Item} (hf : f i = j) (hc : b.Moved c n i j) :
    c.Agrees n (l.adjust k f) where
  fill := by
    have := itemSum_adjust (w := Item.filling n) f hi
    have := hc.fill (h.fill ▸ le_itemSum hi)
    have := h.fill
    rw [hf] at *
    omega
  reserved := by
    have := itemSum_adjust (w := Item.reserving n) f hi
    have := hc.reserved (h.reserved ▸ le_itemSum hi)
    have := h.reserved
    rw [hf] at *
    omega
  count := by
    have := itemSum_adjust (w := Item.counting n) f hi
    have := hc.count (h.count ▸ le_itemSum hi)
    have := h.count
    rw [hf] at *
    omega

theorem Bin.Agrees.put (h : b.Agrees n l) (hk : l.look k = none) (hf : c.fill = b.fill + i.filling n)
    (hr : c.reserved = b.reserved + i.reserving n) (hn : c.count = b.count + i.counting n) : c.Agrees n (l.put k i) where
  fill := by rw [itemSum_put hk, hf, h.fill]
  reserved := by rw [itemSum_put hk, hr, h.reserved]
  count := by rw [itemSum_put hk, hn, h.count]

theorem Bin.Agrees.remove (h : b.Agrees n l) (hw : l.wf = true) (hk : l.look k = some i) (hf : c.fill = b.fill - i.filling n)
    (hr : c.reserved = b.reserved - i.reserving n) (hn : c.count = b.count - i.counting n) : c.Agrees n (l.remove k) where
  fill := by
    have := itemSum_remove (w := Item.filling n) hw hk
    have := h.fill
    omega
  reserved := by
    have := itemSum_remove (w := Item.reserving n) hw hk
    have := h.reserved
    omega
  count := by
    have := itemSum_remove (w := Item.counting n) hw hk
    have := h.count
    omega

theorem Bin.Agrees.same (h : b.Agrees n l) (hf : c.fill = b.fill) (hr : c.reserved = b.reserved) (hn : c.count = b.count) :
    c.Agrees n l := ⟨hf.trans h.fill, hr.trans h.reserved, hn.trans h.count⟩

end

end Sys2Proof.Machine
end

section
/-! The law of the shelf space (O8), record by record: the figures of the bins with the items, the request list and the
return entries with the items. -/
namespace Sys2Proof.Machine

/-! ### The parts of the law -/

/-- The bin that an item is in, or has space held in, stands in the Bin Map (R30). -/
def Item.Housed (i : Item) (m : Table Bin) : Prop :=
  match i.state with
  | .shelved | .requested | .picked | .held => ∃ n, i.home = some n ∧ (m.look n).isSome = true
  | .returning => ∃ n, i.target = some n ∧ (m.look n).isSome = true
  | .lent | .overflow => True

/-- The figures of the bins agree with the items (R24), Law 1 holds in IN_SERVICE, and the items have their bins (R30). -/
structure Shelves (v : Mode) (m : Table Bin) (l : Table Item) : Prop where
  figures : ∀ n b, m.look n = some b → b.Agrees n l
  room : v = .inService → ∀ n b, m.look n = some b → b.fill + b.reserved ≤ b.capacity
  sized : ∀ k i, l.look k = some i → 1 ≤ i.thickness ∧ i.thickness ≤ 250
  housed : ∀ k i, l.look k = some i → i.Housed m

/-- REQUESTED or PICKED: the item has a request (R105). -/
def Item.Wanted (i : Item) : Prop := i.state = .requested ∨ i.state = .picked

/-- A PICKED request goes with a PICKED item, another, which has no confirm window, with a REQUESTED one (R106). -/
def Request.Suits (r : Request) (i : Item) : Prop :=
  (r.state = .picked → i.state = .picked) ∧ (r.state ≠ .picked → i.state = .requested ∧ r.window = none)

/-- The request list agrees with the items (R105, R106). -/
structure Wants (q : List Request) (l : Table Item) : Prop where
  tags : (q.map (·.tag)).Nodup
  items : (q.map (·.item)).Nodup
  suited : ∀ r ∈ q, ∃ i, l.look r.item = some i ∧ r.Suits i
  asked : ∀ k i, l.look k = some i → i.Wanted → ∃ r ∈ q, r.item = k

/-- The return entries agree with the items (R123). -/
structure Owes (q : List ReturnEntry) (l : Table Item) : Prop where
  items : (q.map (·.item)).Nodup
  due : ∀ e ∈ q, ∃ i, l.look e.item = some i ∧ i.state = .returning ∧ i.target = some e.target
  entered : ∀ k i, l.look k = some i → i.state = .returning → ∃ e ∈ q, e.item = k

/-- The law of the shelf space, with what of the tables, the lists and the tags it rests on. -/
structure Stock (s : State) : Prop where
  bins : s.bins.wf = true
  items : s.items.wf = true
  stations : s.stations.wf = true
  tag : within 1 Config.maxTag s.nextRequest = true
  short : s.requests.length ≤ Config.requestCapacity
  shelves : Shelves s.mode s.bins s.items
  wants : Wants s.requests s.items
  owes : Owes s.returnEntries s.items
  idle : s.mode = .commissioning → s.requests = [] ∧ s.returnEntries = []

/-! ### The parts against the law as it is stated -/

section
variable {s : State}

theorem Mode.inService_or_commissioning (m : Mode) : m = .inService ∨ m = .commissioning := by
  cases m
  · exact .inr rfl
  · exact .inl rfl

theorem State.isInService_iff : s.isInService = true ↔ s.mode = .inService := by simp [State.isInService]

theorem State.isInService_or_iff {p : Bool} : (s.isInService || p) = true ↔ (s.mode = .commissioning → p = true) := by
  rcases s.mode.inService_or_commissioning with h | h <;> simp [State.isInService, h]

theorem State.not_isInService_or_iff {p : Bool} : (!s.isInService || p) = true ↔ (s.mode = .inService → p = true) := by
  rcases s.mode.inService_or_commissioning with h | h <;> simp [State.isInService, h]

theorem Item.housed_iff (i : Item) (m : Table Bin) : (match i.state with
    | .shelved | .requested | .picked | .held => i.home.any fun n => (m.look n).isSome
    | .returning => i.target.any fun n => (m.look n).isSome
    | .lent | .overflow => true) = true ↔ i.Housed m := by
  unfold Item.Housed
  cases i.state <;> simp [Option.any_eq_true]

theorem shelves_iff (hb : s.bins.wf = true) (hi : s.items.wf = true) :
    (s.figuresLawful = true ∧ s.binsPresent = true) ↔ Shelves s.mode s.bins s.items := by
  unfold State.figuresLawful State.binsPresent
  rw [Table.all_iff_look hb, Table.all_iff_look hi]
  simp only [Bool.and_eq_true, State.not_isInService_or_iff, decide_eq_true_eq, shelfSpace_eq]
  constructor
  · rintro ⟨hbins, hitems⟩
    refine ⟨fun n b h => ?_, fun hm n b h => (hbins n b h).2 hm, fun k i h => ?_, fun k i h => ?_⟩
    · obtain ⟨⟨⟨hf, hr⟩, hc⟩, -⟩ := hbins n b h
      exact ⟨hf, hr, hc.trans (countP_eq s.items (·.fills n))⟩
    · have := (hitems k i h).1
      simpa [within] using this
    · exact (Item.housed_iff i _).1 (hitems k i h).2
  · rintro ⟨hfigures, hroom, hsized, hhoused⟩
    refine ⟨fun n b h => ?_, fun k i h => ⟨?_, (Item.housed_iff i _).2 (hhoused k i h)⟩⟩
    · obtain ⟨hf, hr, hc⟩ := hfigures n b h
      exact ⟨⟨⟨hf, hr⟩, hc.trans (countP_eq s.items (·.fills n)).symm⟩, fun hm => hroom hm n b h⟩
    · have := hsized k i h
      simpa [within] using this

theorem Request.suits_iff (r : Request) (i : Item) :
    (if r.state = .picked then decide (i.state = .picked) else decide (i.state = .requested) && r.window.isNone) = true ↔
      r.Suits i := by
  unfold Request.Suits
  by_cases h : r.state = .picked <;> simp [h]

theorem Item.wanted_iff (i : Item) (q : List Request) (k : Nat) : (match i.state with
    | .requested | .picked => q.any fun r => decide (r.item = k)
    | .shelved | .lent | .held | .returning | .overflow => true) = true ↔ (i.Wanted → ∃ r ∈ q, r.item = k) := by
  unfold Item.Wanted
  cases i.state <;> simp

theorem wants_iff (hi : s.items.wf = true) : s.requestsLawful = true ↔ Wants s.requests s.items := by
  unfold State.requestsLawful
  rw [Bool.and_eq_true, Bool.and_eq_true, Bool.and_eq_true, Table.all_iff_look hi]
  simp only [decide_eq_true_eq, List.all_eq_true, Option.any_eq_true, Request.suits_iff]
  exact ⟨fun ⟨⟨⟨h1, h2⟩, h3⟩, h4⟩ => ⟨h1, h2, h3, fun k i h => (Item.wanted_iff i _ k).1 (h4 k i h)⟩,
    fun ⟨h1, h2, h3, h4⟩ => ⟨⟨⟨h1, h2⟩, h3⟩, fun k i h => (Item.wanted_iff i _ k).2 (h4 k i h)⟩⟩

theorem owes_iff (hi : s.items.wf = true) : s.returnsLawful = true ↔ Owes s.returnEntries s.items := by
  unfold State.returnsLawful
  rw [Bool.and_eq_true, Bool.and_eq_true, Table.all_iff_look hi]
  simp only [decide_eq_true_eq, List.all_eq_true, List.any_eq_true, Option.any_eq_true, Bool.and_eq_true, Bool.or_eq_true,
    Bool.not_eq_true', decide_eq_false_iff_not, ← imp_iff_not_or]
  exact ⟨fun ⟨⟨h1, h2⟩, h3⟩ => ⟨h1, h2, h3⟩, fun ⟨h1, h2, h3⟩ => ⟨⟨h1, h2⟩, h3⟩⟩

theorem stock_iff (ht : s.tablesLawful = true) (hl : s.listsLawful = true) (htag : s.tagsLawful = true) :
    s.stockLawful = true ↔ Stock s := by
  obtain ⟨-, hst, -, -, -, -, -, hb, hi⟩ := (tablesLawful_iff s).1 ht
  simp only [State.listsLawful, State.tagsLawful, Bool.and_eq_true, decide_eq_true_eq] at hl htag
  unfold State.stockLawful
  simp only [Bool.and_eq_true, State.isInService_or_iff, List.isEmpty_iff]
  rw [shelves_iff hb hi, wants_iff hi, owes_iff hi]
  exact ⟨fun ⟨⟨⟨h1, h2⟩, h3⟩, h4⟩ => ⟨hb, hi, hst, htag.2, hl.1, h1, h2, h3, h4⟩,
    fun h => ⟨⟨⟨h.shelves, h.wants⟩, h.owes⟩, h.idle⟩⟩

end

end Sys2Proof.Machine
end

section
/-! The laws of the crane records and of the home slots (O7), record by record. -/
namespace Sys2Proof.Machine

/-! ### The parts of the law -/

/-- R59, Tables 4.3 and 4.4: what the state of a crane says of its jobs, its record, its phase and its deadline. -/
structure Crane.Sound (c : Crane) : Prop where
  busy : c.state = .busy → c.active.isSome = true ∧ c.suspension = none
  staged : c.state ≠ .busy → c.staged = none
  resting : c.state = .idle ∨ c.state.lost = true → c.active = none
  lost : c.state.lost = true → c.suspension = none
  phase : c.phase.isSome = c.active.isSome
  deadline : c.deadline.isSome = c.active.isSome
  retry : c.active = none → c.retryIndex = 0
  beside : ∀ r j, c.suspension = some r → c.active = some j → j.kind = .park ∧ c.state ≠ .stopped

/-- R59 with R4 and R80: the crane is lost exactly where its aisle is OUT_OF_SERVICE. -/
structure Aisle.Sound (x : Aisle) : Prop where
  crane : x.crane.Sound
  service : x.service = .outOfService ↔ x.crane.state.lost = true

/-- The law of the crane records; in COMMISSIONING no job exists (R60, R198). -/
structure Cranes (s : State) : Prop where
  wf : s.aisles.wf = true
  sound : ∀ a x, s.aisles.look a = some x → x.Sound
  idle : s.mode = .commissioning → ∀ a x, s.aisles.look a = some x → x.jobs = []

/-- A TRANSFER of some aisle names the bin (R10). -/
def State.Transfers (s : State) (n : Nat) : Prop :=
  ∃ a x j, s.aisles.look a = some x ∧ j ∈ x.jobs ∧ j.kind = .transfer ∧ j.bin = some n

/-- The law of the home slots (R10). -/
structure Homes (s : State) : Prop where
  wf : s.bins.wf = true
  apart : s.mode = .inService → (s.bins.flatMap fun e => e.2.slots).Nodup
  inBounds : s.mode = .inService → ∀ n b v, s.bins.look n = some b → v ∈ b.slots → s.slotInBounds v = true
  named : ∀ n b, s.bins.look n = some b → b.pendingHome ≠ none → s.Transfers n

/-! ### The parts against the law as it is stated -/

section
variable {s : State}

theorem Crane.lawful_iff (c : Crane) : c.lawful = true ↔ c.Sound := by
  constructor
  · intro h
    unfold Crane.lawful at h
    simp only [Bool.and_eq_true, decide_eq_true_eq, Bool.or_eq_true] at h
    obtain ⟨⟨⟨⟨hstate, hphase⟩, hdeadline⟩, hretry⟩, hbeside⟩ := h
    have hretry' : c.active = none → c.retryIndex = 0 := fun ha => by simpa [ha] using hretry
    have hbeside' : ∀ r j, c.suspension = some r → c.active = some j → j.kind = .park ∧ c.state ≠ .stopped := fun r j hr hj => by
      simpa [hr, hj] using hbeside
    refine ⟨?_, ?_, ?_, ?_, hphase, hdeadline, hretry', hbeside'⟩ <;> cases hs : c.state <;> simp_all [CraneState.lost]
  · rintro ⟨hbusy, hstaged, hresting, hlost, hphase, hdeadline, hretry, hbeside⟩
    unfold Crane.lawful
    simp only [Bool.and_eq_true, decide_eq_true_eq]
    refine ⟨⟨⟨⟨?_, hphase⟩, hdeadline⟩, ?_⟩, ?_⟩
    · cases hs : c.state <;> simp_all [CraneState.lost]
    · cases ha : c.active <;> simp_all
    · cases hr : c.suspension <;> cases ha : c.active <;> simp_all

theorem Aisle.sound_iff (x : Aisle) : (x.crane.lawful && x.serviceLawful) = true ↔ x.Sound := by
  rw [Bool.and_eq_true, Crane.lawful_iff]
  unfold Aisle.serviceLawful
  rw [beq_iff_eq]
  have : decide (x.service = .outOfService) = x.crane.state.lost ↔ (x.service = .outOfService ↔ x.crane.state.lost = true) := by
    cases x.crane.state.lost <;> simp
  rw [this]
  exact ⟨fun h => ⟨h.1, h.2⟩, fun h => ⟨h.1, h.2⟩⟩

theorem cranes_iff (ht : s.tablesLawful = true) : s.cranesLawful = true ↔ Cranes s := by
  have hw := ((tablesLawful_iff s).1 ht).1
  unfold State.cranesLawful
  rw [Table.all_iff_look hw]
  simp only [Bool.and_eq_true (_ && _), Aisle.sound_iff, State.isInService_or_iff, List.isEmpty_iff]
  exact ⟨fun h => ⟨hw, fun a x hx => (h a x hx).1, fun hm a x hx => (h a x hx).2 hm⟩,
    fun h a x hx => ⟨h.sound a x hx, fun hm => h.idle hm a x hx⟩⟩

theorem transfers_iff (hw : s.aisles.wf = true) (n : Nat) :
    (s.aisles.any fun x => x.2.jobs.any fun j => decide (j.kind = .transfer) && j.names n) = true ↔ s.Transfers n := by
  rw [Table.any_iff_look hw]
  simp only [List.any_eq_true, Bool.and_eq_true, decide_eq_true_eq, Job.names]
  exact ⟨fun ⟨a, x, hx, j, hj, hk, hn⟩ => ⟨a, x, j, hx, hj, hk, hn⟩, fun ⟨a, x, j, hx, hj, hk, hn⟩ => ⟨a, x, hx, j, hj, hk, hn⟩⟩

/-- Where no job exists, no bin has a pending home (R10). -/
theorem Homes.no_pending (h : Homes s) (hidle : ∀ a x, s.aisles.look a = some x → x.jobs = []) {n : Nat} {b : Bin}
    (hb : s.bins.look n = some b) : b.pendingHome = none := by
  by_contra hp
  obtain ⟨a, x, j, hx, hj, -⟩ := h.named n b hb hp
  rw [hidle a x hx] at hj
  cases hj

theorem homes_iff (ht : s.tablesLawful = true) (hc : Cranes s) : s.homesLawful = true ↔ Homes s := by
  obtain ⟨-, -, -, -, -, -, -, hb, -⟩ := (tablesLawful_iff s).1 ht
  unfold State.homesLawful
  rw [Bool.and_eq_true, Table.all_iff_look hb]
  simp only [Bool.or_eq_true, transfers_iff hc.wf, Option.isNone_iff_eq_none, or_iff_not_imp_left]
  rcases s.mode.inService_or_commissioning with hm | hm
  · simp only [State.isInService, hm, decide_true, if_true, Bool.and_eq_true, decide_eq_true_eq, Table.all_iff_look hb,
      List.all_eq_true]
    exact ⟨fun ⟨⟨h1, h2⟩, h3⟩ => ⟨hb, fun _ => h1, fun _ n b v hn => h2 n b hn v, h3⟩,
      fun h => ⟨⟨h.apart hm, fun n b hn v => h.inBounds hm n b v hn⟩, h.named⟩⟩
  · have hin : s.isInService = false := by simp [State.isInService, hm]
    simp only [hin, Bool.false_eq_true, if_false, Table.all_iff_look hb, Option.isNone_iff_eq_none]
    constructor
    · rintro ⟨-, h3⟩
      have hnot : s.mode ≠ .inService := by simp [hm]
      exact ⟨hb, fun h => absurd h hnot, fun h => absurd h hnot, h3⟩
    · exact fun h => ⟨fun n b hn => h.no_pending (hc.idle hm) hn, h.named⟩

end

end Sys2Proof.Machine
end

section
/-! What the operations keep of the crane records, the home slots and the shelf space. `Same` says that a change touches none
of what the three laws speak of; `Kept` that a change of the wing in IN_SERVICE keeps the laws; `Upholds` that a command
does, in either mode. -/
namespace Sys2Proof.Machine

/-! ### Tables that agree in what a law reads -/

theorem Table.look_of_map_eq {α β : Type} {v : Nat × α → β} (hv : ∀ e f, v e = v f → e.1 = f.1) {t u : Table α}
    (h : t.map v = u.map v) {n : Nat} {b : α} (hb : t.look n = some b) : ∃ c, u.look n = some c ∧ v (n, c) = v (n, b) := by
  induction t generalizing u with
  | nil => cases hb
  | cons e t ih =>
    cases u with
    | nil => cases h
    | cons f u =>
      rw [List.map_cons, List.map_cons, List.cons.injEq] at h
      obtain ⟨hef, htu⟩ := h
      obtain ⟨k, x⟩ := e
      obtain ⟨m, y⟩ := f
      obtain rfl : k = m := hv _ _ hef
      rw [Table.look_cons] at hb ⊢
      by_cases hk : k = n
      · rw [if_pos hk] at hb ⊢
        obtain rfl := Option.some.inj hb
        exact ⟨y, rfl, by rw [← hk]; exact hef.symm⟩
      · rw [if_neg hk] at hb ⊢
        exact ih htu hb

theorem Table.numbers_of_map_eq {α β : Type} {v : Nat × α → β} (hv : ∀ e f, v e = v f → e.1 = f.1) {t u : Table α}
    (h : t.map v = u.map v) : t.numbers = u.numbers := by
  induction t generalizing u with
  | nil =>
    cases u with
    | nil => rfl
    | cons f u => cases h
  | cons e t ih =>
    cases u with
    | nil => cases h
    | cons f u =>
      rw [List.map_cons, List.map_cons, List.cons.injEq] at h
      simp only [Table.numbers, List.map_cons, List.cons.injEq]
      exact ⟨hv _ _ h.1, ih h.2⟩

theorem Table.wf_of_map_eq {α β : Type} {v : Nat × α → β} (hv : ∀ e f, v e = v f → e.1 = f.1) {t u : Table α}
    (h : t.map v = u.map v) : t.wf = u.wf := by
  rw [Table.wf_eq, Table.wf_eq, Table.numbers_of_map_eq hv h]

/-! ### What the laws read of a record -/

/-- What the laws read of a bin: its slots, its capacity and its figures. -/
structure BinView where
  home : Slot
  pendingHome : Option Slot
  capacity : Nat
  fill : Nat
  reserved : Nat
  count : Nat

def Bin.view (b : Bin) : BinView :=
  { home := b.home, pendingHome := b.pendingHome, capacity := b.capacity, fill := b.fill, reserved := b.reserved
    count := b.count }

/-- What the law of the shelf space reads of a request. -/
structure RequestView where
  tag : Nat
  item : Nat
  picked : Bool
  windowed : Bool

def Request.view (r : Request) : RequestView :=
  { tag := r.tag, item := r.item, picked := decide (r.state = .picked), windowed := r.window.isSome }

/-- Nothing that the laws of the crane records, the home slots and the shelf space read has changed. -/
structure Same (s t : State) : Prop where
  mode : t.mode = s.mode
  aisles : t.aisles = s.aisles
  bins : (t.bins.map fun e => (e.1, e.2.view)) = s.bins.map fun e => (e.1, e.2.view)
  items : t.items = s.items
  requests : t.requests.map Request.view = s.requests.map Request.view
  tag : t.nextRequest = s.nextRequest
  returns : (t.stations.map fun e => (e.1, e.2.returns)) = s.stations.map fun e => (e.1, e.2.returns)

/-- The same, but for the aisles. -/
structure SameStock (s t : State) : Prop where
  mode : t.mode = s.mode
  bins : (t.bins.map fun e => (e.1, e.2.view)) = s.bins.map fun e => (e.1, e.2.view)
  items : t.items = s.items
  requests : t.requests.map Request.view = s.requests.map Request.view
  tag : t.nextRequest = s.nextRequest
  returns : (t.stations.map fun e => (e.1, e.2.returns)) = s.stations.map fun e => (e.1, e.2.returns)

/-- No crane record and no slot of a bin has changed. -/
structure SameWing (s t : State) : Prop where
  mode : t.mode = s.mode
  aisles : t.aisles = s.aisles
  bins : (t.bins.map fun e => (e.1, e.2.home, e.2.pendingHome)) = s.bins.map fun e => (e.1, e.2.home, e.2.pendingHome)

/-- The bin, if there is one, has no pending home. -/
def State.Unpending (s : State) (n : Nat) : Prop := ∀ b, s.bins.look n = some b → b.pendingHome = none

/-- What every operation of the wing keeps in IN_SERVICE. -/
structure Kept (s t : State) : Prop where
  mode : t.mode = s.mode
  cranes : s.mode = .inService → Cranes s → Cranes t
  homes : s.mode = .inService → Cranes s → Homes s → Homes t
  stock : s.mode = .inService → Stock s → Stock t
  unpending : ∀ n, s.Unpending n → t.Unpending n

/-- What every command keeps. -/
structure Upholds (s t : State) : Prop where
  cranes : Cranes s → Cranes t
  homes : Cranes s → Homes s → Homes t
  stock : Stock s → Stock t

section
variable {s t u : State} {n : Nat} {b : Bin}

theorem Same.refl (s : State) : Same s s := ⟨rfl, rfl, rfl, rfl, rfl, rfl, rfl⟩

theorem Same.trans (h : Same s t) (k : Same t u) : Same s u where
  mode := k.mode.trans h.mode
  aisles := k.aisles.trans h.aisles
  bins := k.bins.trans h.bins
  items := k.items.trans h.items
  requests := k.requests.trans h.requests
  tag := k.tag.trans h.tag
  returns := k.returns.trans h.returns

theorem SameStock.refl (s : State) : SameStock s s := ⟨rfl, rfl, rfl, rfl, rfl, rfl⟩

theorem SameStock.trans (h : SameStock s t) (k : SameStock t u) : SameStock s u where
  mode := k.mode.trans h.mode
  bins := k.bins.trans h.bins
  items := k.items.trans h.items
  requests := k.requests.trans h.requests
  tag := k.tag.trans h.tag
  returns := k.returns.trans h.returns

theorem SameStock.same (h : SameStock s t) : Same s { t with aisles := s.aisles } :=
  ⟨h.mode, rfl, h.bins, h.items, h.requests, h.tag, h.returns⟩

theorem Same.sameStock (h : Same s t) : SameStock s t := ⟨h.mode, h.bins, h.items, h.requests, h.tag, h.returns⟩

theorem Kept.refl (s : State) : Kept s s := ⟨rfl, fun _ => id, fun _ _ => id, fun _ => id, fun _ => id⟩

theorem Kept.trans (h : Kept s t) (k : Kept t u) : Kept s u where
  mode := k.mode.trans h.mode
  cranes := fun hm hc => k.cranes (h.mode.trans hm) (h.cranes hm hc)
  homes := fun hm hc hh => k.homes (h.mode.trans hm) (h.cranes hm hc) (h.homes hm hc hh)
  stock := fun hm hs => k.stock (h.mode.trans hm) (h.stock hm hs)
  unpending := fun n hn => k.unpending n (h.unpending n hn)

theorem Upholds.refl (s : State) : Upholds s s := ⟨id, fun _ => id, id⟩

theorem Upholds.trans (h : Upholds s t) (k : Upholds t u) : Upholds s u where
  cranes := fun hc => k.cranes (h.cranes hc)
  homes := fun hc hh => k.homes (h.cranes hc) (h.homes hc hh)
  stock := fun hs => k.stock (h.stock hs)

theorem Kept.upholds (h : Kept s t) (hm : s.mode = .inService) : Upholds s t := ⟨h.cranes hm, h.homes hm, h.stock hm⟩

/-! ### The laws read no more than the view -/

/-- The table's number and what a law reads of its record. -/
theorem view_fst {α β : Type} {g : α → β} (e f : Nat × α) (h : (e.1, g e.2) = (f.1, g f.2)) : e.1 = f.1 :=
  (Prod.mk.inj h).1

theorem Same.look_bin (h : Same s t) (hb : t.bins.look n = some b) : ∃ c, s.bins.look n = some c ∧ c.view = b.view := by
  obtain ⟨c, hc, hv⟩ := Table.look_of_map_eq view_fst h.bins hb
  exact ⟨c, hc, (Prod.mk.inj hv).2⟩

theorem Same.look_bin_isSome (h : Same s t) (n : Nat) : (t.bins.look n).isSome = (s.bins.look n).isSome := by
  rw [Bool.eq_iff_iff, Option.isSome_iff_exists, Option.isSome_iff_exists]
  constructor
  · rintro ⟨b, hb⟩
    obtain ⟨c, hc, -⟩ := h.look_bin hb
    exact ⟨c, hc⟩
  · rintro ⟨b, hb⟩
    obtain ⟨c, hc, -⟩ := Table.look_of_map_eq view_fst h.bins.symm hb
    exact ⟨c, hc⟩

theorem Same.wing (h : Same s t) : SameWing s t where
  mode := h.mode
  aisles := h.aisles
  bins := by
    have hv : ∀ m : Table Bin, (m.map fun e => (e.1, e.2.home, e.2.pendingHome)) =
        (m.map fun e => (e.1, e.2.view)).map fun e => (e.1, e.2.home, e.2.pendingHome) := fun m => by
      rw [List.map_map]
      rfl
    rw [hv, hv, h.bins]

theorem SameWing.look_bin (h : SameWing s t) (hb : t.bins.look n = some b) :
    ∃ c, s.bins.look n = some c ∧ c.home = b.home ∧ c.pendingHome = b.pendingHome := by
  obtain ⟨c, hc, hv⟩ := Table.look_of_map_eq (v := fun e : Nat × Bin => (e.1, e.2.home, e.2.pendingHome))
    (fun e f he => (Prod.mk.inj he).1) h.bins hb
  obtain ⟨hhome, hpending⟩ := Prod.mk.inj (Prod.mk.inj hv).2
  exact ⟨c, hc, hhome, hpending⟩

theorem SameWing.slots (h : SameWing s t) : (t.bins.flatMap fun e => e.2.slots) = s.bins.flatMap fun e => e.2.slots := by
  have hv : ∀ m : Table Bin, (m.flatMap fun e => e.2.slots) =
      (m.map fun e => (e.1, e.2.home, e.2.pendingHome)).flatMap fun e => e.2.1 :: e.2.2.toList := fun m => by
    rw [List.flatMap_map]
    rfl
  rw [hv, hv, h.bins]

theorem SameWing.cranes (h : SameWing s t) (hc : Cranes s) : Cranes t where
  wf := by rw [h.aisles]; exact hc.wf
  sound := by rw [h.aisles]; exact hc.sound
  idle := by rw [h.aisles, h.mode]; exact hc.idle

theorem SameWing.homes (h : SameWing s t) (hh : Homes s) : Homes t where
  wf := (Table.wf_of_map_eq (v := fun e : Nat × Bin => (e.1, e.2.home, e.2.pendingHome))
    (fun e f he => (Prod.mk.inj he).1) h.bins).trans hh.wf
  apart := by rw [h.slots, h.mode]; exact hh.apart
  inBounds := fun hm n b v hb hv => by
    obtain ⟨c, hc, hhome, hpending⟩ := h.look_bin hb
    have hslots : c.slots = b.slots := by rw [Bin.slots, Bin.slots, hhome, hpending]
    rw [State.slotInBounds, h.aisles]
    exact hh.inBounds (h.mode ▸ hm) n c v hc (hslots ▸ hv)
  named := fun n b hb hp => by
    obtain ⟨c, hc, -, hpending⟩ := h.look_bin hb
    unfold State.Transfers
    rw [h.aisles]
    exact hh.named n c hc (hpending ▸ hp)

theorem SameWing.unpending (h : SameWing s t) (hn : s.Unpending n) : t.Unpending n := fun b hb => by
  obtain ⟨c, hc, -, hpending⟩ := h.look_bin hb
  rw [← hpending]
  exact hn c hc

theorem SameWing.kept (h : SameWing s t) (hs : s.mode = .inService → Stock s → Stock t) : Kept s t :=
  ⟨h.mode, fun _ => h.cranes, fun _ _ => h.homes, hs, fun _ => h.unpending⟩

theorem SameWing.refl (s : State) : SameWing s s := ⟨rfl, rfl, rfl⟩

theorem SameWing.trans (h : SameWing s t) (k : SameWing t u) : SameWing s u :=
  ⟨k.mode.trans h.mode, k.aisles.trans h.aisles, k.bins.trans h.bins⟩

theorem Item.Housed.mono {i : Item} {m m' : Table Bin} (h : i.Housed m) (hm : ∀ n, (m.look n).isSome = true → (m'.look n).isSome = true) :
    i.Housed m' := by
  unfold Item.Housed at *
  split at h
  · obtain ⟨n, hn, hs⟩ := h; exact ⟨n, hn, hm n hs⟩
  · obtain ⟨n, hn, hs⟩ := h; exact ⟨n, hn, hm n hs⟩
  · obtain ⟨n, hn, hs⟩ := h; exact ⟨n, hn, hm n hs⟩
  · obtain ⟨n, hn, hs⟩ := h; exact ⟨n, hn, hm n hs⟩
  · obtain ⟨n, hn, hs⟩ := h; exact ⟨n, hn, hm n hs⟩
  · trivial
  · trivial

theorem Same.shelves (h : Same s t) (hs : Shelves s.mode s.bins s.items) : Shelves t.mode t.bins t.items where
  figures := fun n b hb => by
    obtain ⟨c, hc, hview⟩ := h.look_bin hb
    simp only [Bin.view, BinView.mk.injEq] at hview
    obtain ⟨-, -, -, hf, hr, hn⟩ := hview
    rw [h.items]
    exact (hs.figures n c hc).same hf.symm hr.symm hn.symm
  room := fun hm n b hb => by
    obtain ⟨c, hc, hview⟩ := h.look_bin hb
    simp only [Bin.view, BinView.mk.injEq] at hview
    obtain ⟨-, -, hcap, hf, hr, -⟩ := hview
    rw [← hcap, ← hf, ← hr]
    exact hs.room (h.mode ▸ hm) n c hc
  sized := by rw [h.items]; exact hs.sized
  housed := fun k i hk => by
    rw [h.items] at hk
    exact (hs.housed k i hk).mono fun n hn => by rw [h.look_bin_isSome]; exact hn

theorem Request.view_eq_iff {r q : Request} : r.view = q.view ↔
    r.tag = q.tag ∧ r.item = q.item ∧ (r.state = .picked ↔ q.state = .picked) ∧ r.window.isSome = q.window.isSome := by
  simp only [Request.view, RequestView.mk.injEq, decide_eq_decide]

theorem Request.Suits.congr {r q : Request} {i : Item} (h : r.Suits i) (hv : r.view = q.view) : q.Suits i := by
  obtain ⟨-, -, hp, hw⟩ := Request.view_eq_iff.1 hv
  refine ⟨fun hq => h.1 (hp.2 hq), fun hq => ?_⟩
  obtain ⟨hs, hnone⟩ := h.2 (mt hp.1 hq)
  rw [hnone] at hw
  exact ⟨hs, Option.not_isSome_iff_eq_none.1 (by rw [← hw]; decide)⟩

theorem Wants.congr {q q' : List Request} {l : Table Item} (h : Wants q l) (hv : q'.map Request.view = q.map Request.view) : Wants q' l := by
  have htag : q'.map (·.tag) = q.map (·.tag) := by
    have := congrArg (List.map RequestView.tag) hv
    rwa [List.map_map, List.map_map] at this
  have hitem : q'.map (·.item) = q.map (·.item) := by
    have := congrArg (List.map RequestView.item) hv
    rwa [List.map_map, List.map_map] at this
  refine ⟨htag ▸ h.tags, hitem ▸ h.items, fun r hr => ?_, fun k i hk hi => ?_⟩
  · have hmem : r.view ∈ q.map Request.view := hv ▸ List.mem_map_of_mem hr
    obtain ⟨r', hr', hview⟩ := List.mem_map.1 hmem
    obtain ⟨i, hi, hsuits⟩ := h.suited r' hr'
    exact ⟨i, (Request.view_eq_iff.1 hview).2.1 ▸ hi, hsuits.congr hview⟩
  · obtain ⟨r, hr, rfl⟩ := h.asked k i hk hi
    have hmem : r.view ∈ q'.map Request.view := hv ▸ List.mem_map_of_mem hr
    obtain ⟨r', hr', hview⟩ := List.mem_map.1 hmem
    exact ⟨r', hr', (Request.view_eq_iff.1 hview).2.1⟩

theorem returnEntries_eq (s : State) :
    s.returnEntries = (s.stations.map fun e => (e.1, e.2.returns)).flatMap (·.2) := by
  rw [List.flatMap_map]
  rfl

theorem Same.returnEntries (h : Same s t) : t.returnEntries = s.returnEntries := by
  rw [returnEntries_eq, returnEntries_eq, h.returns]

theorem Same.stock (h : Same s t) (hs : Stock s) : Stock t where
  bins := (Table.wf_of_map_eq view_fst h.bins).trans hs.bins
  items := by rw [h.items]; exact hs.items
  stations := (Table.wf_of_map_eq view_fst h.returns).trans hs.stations
  tag := by rw [h.tag]; exact hs.tag
  short := by
    have := congrArg List.length h.requests
    rw [List.length_map, List.length_map] at this
    exact this.le.trans hs.short
  shelves := h.shelves hs.shelves
  wants := by
    rw [h.items]
    exact hs.wants.congr h.requests
  owes := by
    rw [h.items, h.returnEntries]
    exact hs.owes
  idle := fun hm => by
    obtain ⟨hq, hr⟩ := hs.idle (h.mode ▸ hm)
    refine ⟨?_, h.returnEntries.trans hr⟩
    have := h.requests
    rw [hq] at this
    exact List.map_eq_nil_iff.1 this

theorem Same.kept (h : Same s t) : Kept s t := h.wing.kept fun _ => h.stock

theorem Same.upholds (h : Same s t) : Upholds s t := ⟨h.wing.cranes, fun _ => h.wing.homes, h.stock⟩

theorem Kept.same (h : Kept s t) (k : Same t u) : Kept s u := h.trans k.kept

theorem Upholds.same (h : Upholds s t) (k : Same t u) : Upholds s u := h.trans k.upholds

end

end Sys2Proof.Machine
end

section
/-! The operations that change nothing of the crane records, the home slots and the shelf space: reports, telegrams, the
states and trips of bins, lanes, presentations, zones, shutters and concentrators. One lemma for each, written as the
operation is. -/
namespace Sys2Proof.Machine

variable {s t : State}

/-! ### Named updates -/

theorem Same.foldl {β : Type} (h : Same s t) (l : List β) (f : State → β → State) (hf : ∀ t x, Same s t → Same s (f t x)) :
    Same s (l.foldl f t) := by
  induction l generalizing t with
  | nil => exact h
  | cons x l ih => exact ih (hf t x h)

theorem Same.ite {p : Prop} [Decidable p] {a b : State} (ha : Same s a) (hb : Same s b) : Same s (if p then a else b) := by
  split
  · exact ha
  · exact hb

theorem Same.setLink (h : Same s t) (l : Link) : Same s (t.setLink l) := h.trans { Same.refl t with }
theorem Same.post (h : Same s t) (r : Report) : Same s (t.post r) := h.trans { Same.refl t with }
theorem Same.report (h : Same s t) (k : ReportKind) (u : Subject) (c : Option Code) : Same s (t.report k u c) := h.post _
theorem Same.passUp (h : Same s t) (n : Nat) (l : List Byte) : Same s (t.passUp n l) := h.trans { Same.refl t with }
theorem Same.send (h : Same s t) (ad : Option Nat) (m : FieldTelegram) : Same s (t.send ad m) := h.trans { Same.refl t with }
theorem Same.sendCrane (h : Same s t) (a : Nat) (m : FieldTelegram) : Same s (t.sendCrane a m) := h.send _ _
theorem Same.sendStation (h : Same s t) (n : Nat) (m : FieldTelegram) : Same s (t.sendStation n m) := h.send _ _
theorem Same.sendShutter (h : Same s t) (n : Nat) (m : FieldTelegram) : Same s (t.sendShutter n m) := h.send _ _
theorem Same.reply (h : Same s t) (r : Reply) : Same s (t.reply r) := h.trans { Same.refl t with }
theorem Same.setFaults (h : Same s t) (f : FaultUnit) : Same s (t.setFaults f) := h.trans { Same.refl t with }
theorem Same.setKeyLine (h : Same s t) (k : Bool) : Same s (t.setKeyLine k) := h.trans { Same.refl t with }
theorem Same.setFirePanel (h : Same s t) (p : Bool) : Same s (t.setFirePanel p) := h.trans { Same.refl t with }
theorem Same.modZone (h : Same s t) (z : Nat) (f : Zone → Zone) : Same s (t.modZone z f) := h.trans { Same.refl t with }
theorem Same.judgeSecuredLine (h : Same s t) : Same s t.judgeSecuredLine := h.trans { Same.refl t with }
theorem Same.modConcentrator (h : Same s t) (n : Nat) (f : Concentrator → Concentrator) : Same s (t.modConcentrator n f) :=
  h.trans { Same.refl t with }
theorem Same.modShutter (h : Same s t) (n : Nat) (f : Shutter → Shutter) : Same s (t.modShutter n f) :=
  h.trans { Same.refl t with }

theorem Same.modStation (h : Same s t) (n : Nat) (f : Station → Station)
    (hf : ∀ x, (f x).returns = x.returns := by intro _; rfl) : Same s (t.modStation n f) :=
  h.trans
    { Same.refl t with
      returns := by
        rw [State.modStation_stations, Table.map_adjust]
        intro v
        rw [hf] }

theorem Same.mapStations (h : Same s t) (f : Nat → Station → Station)
    (hf : ∀ n x, (f n x).returns = x.returns := by intro _ _; rfl) : Same s (t.setStations (t.stations.mapRecords f)) :=
  h.trans
    { Same.refl t with
      returns := by
        rw [State.setStations_stations, Table.map_mapRecords]
        intro n v
        rw [hf] }

theorem Same.modBin (h : Same s t) (n : Nat) (f : Bin → Bin) (hf : ∀ b, (f b).view = b.view := by intro _; rfl) :
    Same s (t.modBin n f) :=
  h.trans
    { Same.refl t with
      bins := by
        rw [State.modBin_bins, Table.map_adjust]
        intro v
        rw [hf] }

theorem Same.setRequests (h : Same s t) (l : List Request) (hl : l.map Request.view = t.requests.map Request.view) :
    Same s (t.setRequests l) := h.trans { Same.refl t with requests := hl }

/-- A change of the states of requests that are not PICKED, to states that are not PICKED. -/
theorem map_ite_view {q : List Request} {p : Request → Bool} {v : RequestState} (hv : v ≠ .picked)
    (hp : ∀ r, p r = true → r.state ≠ .picked) :
    (q.map fun r => if p r = true then { r with state := v } else r).map Request.view = q.map Request.view := by
  rw [List.map_map]
  refine List.map_congr_left fun r _ => ?_
  by_cases h : p r = true
  · have hr := hp r h
    simp [h, Request.view, hv, hr]
  · simp [h]

theorem State.standsOn_not_picked {n : Nat} {r : Request} (h : s.standsOn n r = true) : r.state ≠ .picked :=
  (State.standsOn_iff.1 h).1

theorem State.standsFor_not_picked {n st : Nat} {r : Request} (h : s.standsFor n st r = true) : r.state ≠ .picked := by
  rw [State.standsFor, Bool.and_eq_true] at h
  exact State.standsOn_not_picked h.1

/-! ### Zones and concentrators -/

theorem Same.fieldProtocol (h : Same s t) (u : Subject) (c : Option Code) : Same s (t.fieldProtocol u c) := h.report _ _ _

theorem Same.turnZone (h : Same s t) (z : Nat) (v : ZoneState) : Same s (t.turnZone z v) := (h.modZone z _).judgeSecuredLine

theorem Same.reportZone (h : Same s t) (z : Nat) (v : ZoneState) : Same s (t.reportZone z v) := h.report _ _ _

theorem Same.setZoneState (h : Same s t) (z : Nat) (v : ZoneState) : Same s (t.setZoneState z v) :=
  (h.turnZone z v).reportZone z v

theorem Same.turnAlert (h : Same s t) (z : Nat) : Same s (t.turnAlert z) := (h.modZone z _).turnZone z _

theorem Same.enterAlert (h : Same s t) (z : Nat) : Same s (t.enterAlert z) := (h.turnAlert z).reportZone z _

theorem Same.alertIfCaused (h : Same s t) (z : Nat) : Same s (t.alertIfCaused z) := by
  unfold State.alertIfCaused
  split
  · exact h
  · exact .ite (h.enterAlert z) h

theorem Same.reformCauses (h : Same s t) (z : Nat) : Same s (t.reformCauses z) := (h.modZone z _).alertIfCaused z

theorem Same.unsecure (h : Same s t) (z : Nat) : Same s (t.unsecure z) := .ite (h.setZoneState z _) h

theorem Same.setHealth (h : Same s t) (n : Nat) (c : Concentrator) (v : Health) : Same s (t.setHealth n c v) :=
  .ite (h.modConcentrator n _) ((h.modConcentrator n _).report _ _ _)

/-! ### Shutters and the stations of a zone -/

theorem Same.startClose (h : Same s t) (n : Nat) : Same s (t.startClose n) := by
  unfold State.startClose
  split
  · exact h
  · split
    case h_1 | h_2 => exact .ite (h.modShutter n _) ((h.modShutter n _).sendShutter n _)
    case h_3 => exact h.sendShutter n _
    all_goals exact h

theorem Same.restoreShutter (h : Same s t) (n : Nat) : Same s (t.restoreShutter n) := by
  unfold State.restoreShutter
  split
  · exact h
  · split
    case h_1 | h_2 => exact (h.modShutter n _).sendShutter n _
    case h_3 => exact h.sendShutter n _
    case h_4 => exact h.modShutter n _
    all_goals exact h

theorem Same.closeWaiting (h : Same s t) (n : Nat) : Same s (t.closeWaiting n) := by
  unfold State.closeWaiting
  split
  · exact h
  · exact .ite ((h.modShutter n _).sendShutter n _) h

theorem Same.setMouth (h : Same s t) (st : Nat) (o : Bool) : Same s (t.setMouth st o) := h.modStation st _

theorem Same.shutdownStation (h : Same s t) (st : Nat) : Same s (t.shutdownStation st) :=
  ((h.sendStation st _).sendStation st _).modStation st _

/-! ### Bins -/

theorem Same.leaveOverdue (h : Same s t) (n : Nat) : Same s (t.leaveOverdue n) := h.mapStations _

theorem Same.setBinState (h : Same s t) (n : Nat) (v : BinState) : Same s (t.setBinState n v) :=
  .ite ((h.modBin n _).leaveOverdue n) (h.modBin n _)

theorem Same.liftBin (h : Same s t) (j : Job) : Same s (t.liftBin j) := by
  unfold State.liftBin
  split
  · exact h
  · exact .ite (h.setBinState _ _) h

theorem Same.clearTrip (h : Same s t) (n : Nat) : Same s (t.clearTrip n) := h.modBin n _

theorem Same.setTrip (h : Same s t) (n st : Nat) : Same s (t.setTrip n st) := h.modBin n _

theorem Same.unexpectedBin (h : Same s t) (l : Nat) (c : Option Code) : Same s (t.unexpectedBin l c) := h.report _ _ _

theorem Same.reportRequest (h : Same s t) (k : ReportKind) (r : Request) (c : Option Code) : Same s (t.reportRequest k r c) :=
  h.post _

/-! ### Lanes and presentations -/

theorem Same.sendPresent (h : Same s t) (st : Nat) : Same s (t.sendPresent st) := by
  unfold State.sendPresent
  split
  · exact h
  · exact h.sendStation _ _

theorem Same.offerPresent (h : Same s t) (st : Nat) : Same s (t.offerPresent st) := .ite (h.sendPresent st) h

theorem Same.readyOne (h : Same s t) (st : Nat) (r : Request) : Same s (State.readyOne st t r) := h.reportRequest _ _ _

theorem Same.markPresented (h : Same s t) (st n : Nat) : Same s (t.markPresented st n) := by
  unfold State.markPresented
  refine (h.foldl _ _ fun t r h => h.readyOne st r).setRequests _ ?_
  rw [foldl_readyOne_requests]
  refine map_ite_view (by decide) fun r hr => ?_
  rw [State.becomesPresented, Bool.and_eq_true] at hr
  exact State.standsFor_not_picked hr.1

theorem Same.presentTop (h : Same s t) (st : Nat) : Same s (t.presentTop st) := by
  unfold State.presentTop
  split
  · exact h
  · exact ((h.report _ _ _).markPresented _ _).offerPresent _

theorem Same.endPresentation (h : Same s t) (st : Nat) : Same s (t.endPresentation st) := by
  unfold State.endPresentation
  split
  · exact h
  · refine h.setRequests _ (map_ite_view (by decide) fun r hr => ?_)
    rw [Bool.and_eq_true] at hr
    exact State.standsFor_not_picked hr.2

theorem Same.pushPlace (h : Same s t) (st : Nat) (p : Place) : Same s (t.pushPlace st p) :=
  (h.endPresentation st).modStation st _

theorem Same.removeFromLane (h : Same s t) (n st : Nat) : Same s (t.removeFromLane n st) := by
  unfold State.removeFromLane
  split
  · exact h
  · have k := (Same.ite (p := decide (t.presentedBin st = some n) = true) (h.endPresentation st) h).modStation st fun x => x.dropBin n
    exact .ite (.ite (k.presentTop st) k) h

theorem Same.removeTransit (h : Same s t) (n st : Nat) : Same s (t.removeTransit n st) := h.modStation st _

theorem Same.endHold (h : Same s t) (st : Nat) : Same s (t.endHold st) := h.modStation st _

theorem Same.popLane (h : Same s t) (st : Nat) : Same s (t.popLane st) := h.modStation st _

theorem Same.refuseScan (h : Same s t) (st : Nat) (c : ScanCode) : Same s (t.refuseScan st c) := h.sendStation _ _

theorem Same.resumeStation (h : Same s t) (st : Nat) : Same s (t.resumeStation st) :=
  ((h.sendStation st _).sendPresent st).modStation st _

theorem Same.lockOut (h : Same s t) (st : Nat) : Same s (t.lockOut st) := by
  unfold State.lockOut
  split
  · exact h
  · exact (h.endPresentation st).setBinState _ _

theorem Same.releaseBin (h : Same s t) (n : Nat) : Same s (t.releaseBin n) := by
  unfold State.releaseBin
  have k := h.setBinState n .inLane
  simp only
  split
  · exact k
  · exact .ite (k.presentTop _) k

theorem Same.delayRequests (h : Same s t) (n st : Nat) : Same s (t.delayRequests n st) := by
  unfold State.delayRequests
  refine (h.foldl _ (State.delayOne st) fun t r h => h.reportRequest _ _ _).setRequests _ ?_
  rw [foldl_delayOne_requests]
  exact map_ite_view (by decide) fun r hr => State.standsFor_not_picked hr

theorem Same.arriveTray (h : Same s t) (st l : Nat) : Same s (t.arriveTray st l) := (h.pushPlace st _).unexpectedBin l _

theorem Same.arriveOnTime (h : Same s t) (st n : Nat) : Same s (t.arriveOnTime st n) :=
  ((((h.removeTransit n st).pushPlace st _).setBinState n _).leaveOverdue n).presentTop st

theorem Same.retrieveDone (h : Same s t) (n st l : Nat) : Same s (t.retrieveDone n st l) :=
  .ite h (((h.setBinState n _).modBin n _).modStation st _)

end Sys2Proof.Machine
end

section
/-! How the three parts of the law of the shelf space follow a change of items: one item that moves between states, several
requests that fail, several return entries that are displaced. -/
namespace Sys2Proof.Machine

/-! ### The shelves -/

/-- For the bins of `m`, an item `j` is as good as `i`: it takes the same of each. -/
structure Item.Weighs (i j : Item) (m : Table Bin) : Prop where
  thickness : j.thickness = i.thickness
  housed : i.Housed m → j.Housed m
  filling : ∀ n, j.filling n = i.filling n
  reserving : ∀ n, j.reserving n = i.reserving n
  counting : ∀ n, j.counting n = i.counting n

theorem Item.Weighs.refl (i : Item) (m : Table Bin) : i.Weighs i m := ⟨rfl, id, fun _ => rfl, fun _ => rfl, fun _ => rfl⟩

section
variable {v : Mode} {m m' : Table Bin} {l : Table Item} {k n : Nat} {i j : Item} {b c : Bin}

/-- One item changes, and the bins with it. -/
theorem Shelves.move {g : Nat → Bin → Bin} {f : Item → Item} (h : Shelves v m l) (hi : l.look k = some i) (hf : f i = j)
    (hlook : ∀ n, m'.look n = (m.look n).map (g n)) (hsized : 1 ≤ j.thickness ∧ j.thickness ≤ 250) (hh : j.Housed m)
    (hg : ∀ n b, m.look n = some b → b.Moved (g n b) n i j)
    (hroom : v = .inService → ∀ n b, m.look n = some b → i.filling n ≤ b.fill → i.reserving n ≤ b.reserved →
      b.fill + b.reserved ≤ b.capacity → (g n b).fill + (g n b).reserved ≤ (g n b).capacity) :
    Shelves v m' (l.adjust k f) := by
  have hmono : ∀ n, (m.look n).isSome = true → (m'.look n).isSome = true := fun n hn => by
    rw [hlook, Option.isSome_map]
    exact hn
  have hother : ∀ q, q ≠ k → (l.adjust k f).look q = l.look q := fun q hq => Table.look_adjust_ne l f hq
  have hself : (l.adjust k f).look k = some j := by rw [Table.look_adjust_same, hi, Option.map_some, hf]
  refine ⟨fun n c hc => ?_, fun hv n c hc => ?_, fun q y hy => ?_, fun q y hy => ?_⟩
  · rw [hlook, Option.map_eq_some_iff] at hc
    obtain ⟨b, hb, rfl⟩ := hc
    exact (h.figures n b hb).adjust hi hf (hg n b hb)
  · rw [hlook, Option.map_eq_some_iff] at hc
    obtain ⟨b, hb, rfl⟩ := hc
    have hfig := h.figures n b hb
    exact hroom hv n b hb (hfig.fill ▸ le_itemSum hi) (hfig.reserved ▸ le_itemSum hi) (h.room hv n b hb)
  · by_cases hq : q = k
    · subst hq
      obtain rfl := Option.some.inj (hself.symm.trans hy)
      exact hsized
    · exact h.sized q y ((hother q hq).symm.trans hy)
  · by_cases hq : q = k
    · subst hq
      obtain rfl := Option.some.inj (hself.symm.trans hy)
      exact hh.mono hmono
    · exact (h.housed q y ((hother q hq).symm.trans hy)).mono hmono

theorem Bin.Moved.of_eq (hf : i.filling n = j.filling n) (hr : i.reserving n = j.reserving n)
    (hc : i.counting n = j.counting n) : b.Moved b n i j :=
  ⟨fun _ => by rw [hf], fun _ => by rw [hr], fun _ => by rw [hc]⟩

/-- One item changes without a change of the bins. -/
theorem Shelves.turn {f : Item → Item} (h : Shelves v m l) (hi : l.look k = some i) (hw : i.Weighs (f i) m) :
    Shelves v m (l.adjust k f) :=
  h.move (g := fun _ b => b) hi rfl (fun n => by simp) (hw.thickness ▸ h.sized k i hi) (hw.housed (h.housed k i hi))
    (fun n b _ => .of_eq (hw.filling n).symm (hw.reserving n).symm (hw.counting n).symm) fun hv n b _ _ _ hroom => hroom

/-- One item changes, with the figures of one bin. -/
theorem Shelves.move_at {f : Item → Item} {g : Bin → Bin} {n : Nat} (h : Shelves v m l) (hi : l.look k = some i) (hf : f i = j)
    (hsized : 1 ≤ j.thickness ∧ j.thickness ≤ 250) (hh : j.Housed m)
    (hother : ∀ q, q ≠ n → i.filling q = j.filling q ∧ i.reserving q = j.reserving q ∧ i.counting q = j.counting q)
    (hg : ∀ b, m.look n = some b → b.Moved (g b) n i j)
    (hroom : v = .inService → ∀ b, m.look n = some b → i.filling n ≤ b.fill → i.reserving n ≤ b.reserved →
      b.fill + b.reserved ≤ b.capacity → (g b).fill + (g b).reserved ≤ (g b).capacity) :
    Shelves v (m.adjust n g) (l.adjust k f) := by
  refine h.move (g := fun q b => if q = n then g b else b) hi hf (fun q => ?_) hsized hh (fun q b hb => ?_)
    fun hv q b hb hfill hres hcap => ?_
  · by_cases hq : q = n
    · subst hq; simp
    · rw [Table.look_adjust_ne m g hq]; simp [hq]
  · by_cases hq : q = n
    · subst hq; simpa using hg b hb
    · obtain ⟨h1, h2, h3⟩ := hother q hq
      simpa [hq] using Bin.Moved.of_eq h1 h2 h3
  · by_cases hq : q = n
    · subst hq; simpa using hroom hv b hb hfill hres hcap
    · simpa [hq] using hcap

/-- Items change that weigh the same after it. -/
theorem Shelves.mapItems {f : Nat → Item → Item} (h : Shelves v m l) (hl : l.wf = true)
    (hf : ∀ k i, l.look k = some i → i.Weighs (f k i) m) : Shelves v m (l.mapRecords f) := by
  have hsum : ∀ w : Item → Nat, (∀ k i, l.look k = some i → w (f k i) = w i) → itemSum (l.mapRecords f) w = itemSum l w := fun w hf => by
    rw [itemSum_mapRecords]
    exact congrArg List.sum (List.map_congr_left fun e he => hf e.1 e.2 (Table.look_of_mem hl he))
  refine ⟨fun n b hb => ?_, h.room, fun k i hi => ?_, fun k i hi => ?_⟩
  · obtain ⟨h1, h2, h3⟩ := h.figures n b hb
    exact ⟨by rw [hsum _ fun k i hi => (hf k i hi).filling n, h1], by rw [hsum _ fun k i hi => (hf k i hi).reserving n, h2],
      by rw [hsum _ fun k i hi => (hf k i hi).counting n, h3]⟩
  · rw [Table.look_mapRecords, Option.map_eq_some_iff] at hi
    obtain ⟨y, hy, rfl⟩ := hi
    rw [(hf k y hy).thickness]
    exact h.sized k y hy
  · rw [Table.look_mapRecords, Option.map_eq_some_iff] at hi
    obtain ⟨y, hy, rfl⟩ := hi
    exact (hf k y hy).housed (h.housed k y hy)

end

/-! ### The requests -/

section
variable {q q' : List Request} {l l' : Table Item} {k : Nat} {i j : Item} {r : Request}

theorem Request.Suits.wanted (h : r.Suits i) : i.Wanted := by
  by_cases hp : r.state = .picked
  · exact .inr (h.1 hp)
  · exact .inl (h.2 hp).1

/-- An item that has no request, before and after. -/
theorem Wants.keep (h : Wants q l) (hl : ∀ m, m ≠ k → l'.look m = l.look m) (hk : ∀ i, l.look k = some i → ¬i.Wanted)
    (hk' : ∀ i, l'.look k = some i → ¬i.Wanted) : Wants q l' := by
  refine ⟨h.tags, h.items, fun r hr => ?_, fun m i hm hi => ?_⟩
  · obtain ⟨i, hi, hs⟩ := h.suited r hr
    have hne : r.item ≠ k := by
      rintro rfl
      exact hk i hi hs.wanted
    exact ⟨i, (hl _ hne).trans hi, hs⟩
  · have hne : m ≠ k := by
      rintro rfl
      exact hk' i hm hi
    exact h.asked m i ((hl m hne).symm.trans hm) hi

/-- Items change that have no request, before and after. -/
theorem Wants.mapItems {f : Nat → Item → Item} (h : Wants q l)
    (hf : ∀ k i, l.look k = some i → f k i = i ∨ (¬i.Wanted ∧ ¬(f k i).Wanted)) : Wants q (l.mapRecords f) := by
  refine ⟨h.tags, h.items, fun r hr => ?_, fun m i hm hi => ?_⟩
  · obtain ⟨i, hi, hs⟩ := h.suited r hr
    have hfi := (hf _ i hi).resolve_right fun hc => hc.1 hs.wanted
    exact ⟨i, by rw [Table.look_mapRecords, hi, Option.map_some, hfi], hs⟩
  · rw [Table.look_mapRecords, Option.map_eq_some_iff] at hm
    obtain ⟨y, hy, rfl⟩ := hm
    have hfy := (hf m y hy).resolve_right fun hc => hc.2 hi
    rw [hfy] at hi
    exact h.asked m y hy hi

/-- The request of an item ends. -/
theorem Wants.drop (h : Wants q l) (hl : ∀ m, m ≠ k → l'.look m = l.look m) (hk : ∀ i, l'.look k = some i → ¬i.Wanted) :
    Wants (q.filter fun r => !decide (r.item = k)) l' := by
  have hsub : (q.filter fun r => !decide (r.item = k)).Sublist q := List.filter_sublist
  refine ⟨h.tags.sublist (hsub.map _), h.items.sublist (hsub.map _), fun r hr => ?_, fun m i hm hi => ?_⟩
  · obtain ⟨hr, hne⟩ := List.mem_filter.1 hr
    obtain ⟨i, hi, hs⟩ := h.suited r hr
    exact ⟨i, (hl _ (by simpa using hne)).trans hi, hs⟩
  · have hne : m ≠ k := by
      rintro rfl
      exact hk i hm hi
    obtain ⟨r, hr, rfl⟩ := h.asked m i ((hl m hne).symm.trans hm) hi
    exact ⟨r, List.mem_filter.2 ⟨hr, by simpa using hne⟩, rfl⟩

/-- Requests fail, and their items become SHELVED. -/
theorem Wants.fail {p : Request → Bool} (h : Wants q l) :
    Wants (q.filter fun r => !p r)
      (l.mapRecords fun m y => if q.any fun r => p r && decide (r.item = m) then { y with state := .shelved } else y) := by
  have hsub : (q.filter fun r => !p r).Sublist q := List.filter_sublist
  refine ⟨h.tags.sublist (hsub.map _), h.items.sublist (hsub.map _), fun r hr => ?_, fun m i hm hi => ?_⟩
  · obtain ⟨hr, hpr⟩ := List.mem_filter.1 hr
    obtain ⟨i, hi, hs⟩ := h.suited r hr
    have hnot : (q.any fun r' => p r' && decide (r'.item = r.item)) = false := by
      rw [List.any_eq_false]
      intro r' hr' hc
      rw [Bool.and_eq_true, decide_eq_true_eq] at hc
      obtain rfl := List.inj_on_of_nodup_map h.items hr' hr hc.2
      rw [hc.1] at hpr
      cases hpr
    exact ⟨i, by rw [Table.look_mapRecords, hi, Option.map_some, hnot, if_neg Bool.false_ne_true], hs⟩
  · rw [Table.look_mapRecords, Option.map_eq_some_iff] at hm
    obtain ⟨y, hy, hyi⟩ := hm
    by_cases hany : (q.any fun r => p r && decide (r.item = m)) = true
    · rw [if_pos hany] at hyi
      subst hyi
      rcases hi with hi | hi <;> cases hi
    · rw [if_neg hany] at hyi
      subst hyi
      obtain ⟨r, hr, rfl⟩ := h.asked m y hy hi
      refine ⟨r, List.mem_filter.2 ⟨hr, ?_⟩, rfl⟩
      rw [Bool.not_eq_true, List.any_eq_false] at hany
      simpa using hany r hr

/-- A SHELVED item is requested under a tag that no request holds. -/
theorem Wants.append (h : Wants q l) (hl : ∀ m, m ≠ r.item → l'.look m = l.look m) (hold : ∀ i, l.look r.item = some i → ¬i.Wanted)
    (hnew : l'.look r.item = some j) (hs : r.Suits j) (htag : r.tag ∉ q.map (·.tag)) : Wants (q ++ [r]) l' := by
  have hne : ∀ r' ∈ q, r'.item ≠ r.item := fun r' hr' he => by
    obtain ⟨i, hi, hs'⟩ := h.suited r' hr'
    exact hold i (he ▸ hi) hs'.wanted
  refine ⟨?_, ?_, fun r' hr' => ?_, fun m i hm hi => ?_⟩
  · rw [List.map_append, List.map_singleton]
    exact List.nodup_append.2 ⟨h.tags, List.nodup_singleton _, fun a ha b hb hab => htag (by
      rw [List.mem_singleton] at hb
      rw [← hb, ← hab]
      exact ha)⟩
  · rw [List.map_append, List.map_singleton]
    refine List.nodup_append.2 ⟨h.items, List.nodup_singleton _, fun a ha b hb hab => ?_⟩
    obtain ⟨r', hr', rfl⟩ := List.mem_map.1 ha
    rw [List.mem_singleton] at hb
    exact hne r' hr' (hab.trans hb)
  · rcases List.mem_append.1 hr' with hr' | hr'
    · obtain ⟨i, hi, hs'⟩ := h.suited r' hr'
      exact ⟨i, (hl _ (hne r' hr')).trans hi, hs'⟩
    · obtain rfl := List.mem_singleton.1 hr'
      exact ⟨j, hnew, hs⟩
  · by_cases hmr : m = r.item
    · exact ⟨r, List.mem_append_right _ List.mem_cons_self, hmr.symm⟩
    · obtain ⟨r', hr', rfl⟩ := h.asked m i ((hl m hmr).symm.trans hm) hi
      exact ⟨r', List.mem_append_left _ hr', rfl⟩

/-- The item of a request is picked, and the request with it. -/
theorem Wants.pick {w : Option Nat} (h : Wants q l) (hr : r ∈ q) (hl : ∀ m, m ≠ r.item → l'.look m = l.look m)
    (hnew : l'.look r.item = some j) (hj : j.state = .picked) :
    Wants (q.map fun x => if x.tag = r.tag then { x with state := .picked, window := w } else x) l' := by
  have hkeep : ∀ x : Request, (if x.tag = r.tag then { x with state := .picked, window := w } else x).tag = x.tag
      ∧ (if x.tag = r.tag then { x with state := .picked, window := w } else x).item = x.item := fun x => by
    split <;> exact ⟨rfl, rfl⟩
  refine ⟨?_, ?_, fun x hx => ?_, fun m i hm hi => ?_⟩
  · rw [List.map_map]
    exact (congrArg List.Nodup (List.map_congr_left fun x _ => (hkeep x).1)).mpr h.tags
  · rw [List.map_map]
    exact (congrArg List.Nodup (List.map_congr_left fun x _ => (hkeep x).2)).mpr h.items
  · obtain ⟨y, hy, rfl⟩ := List.mem_map.1 hx
    by_cases ht : y.tag = r.tag
    · obtain rfl := List.inj_on_of_nodup_map h.tags hy hr ht
      rw [if_pos ht]
      exact ⟨j, hnew, fun _ => hj, fun hne => absurd rfl hne⟩
    · rw [if_neg ht]
      obtain ⟨i, hi, hs⟩ := h.suited y hy
      refine ⟨i, (hl _ fun he => ht ?_).trans hi, hs⟩
      rw [List.inj_on_of_nodup_map h.items hy hr he]
  · have hold : ∃ x ∈ q, x.item = m := by
      by_cases hmr : m = r.item
      · exact ⟨r, hr, hmr.symm⟩
      · exact h.asked m i ((hl m hmr).symm.trans hm) hi
    obtain ⟨x, hx, rfl⟩ := hold
    exact ⟨_, List.mem_map_of_mem hx, (hkeep x).2⟩

theorem Wants.state_of_mem (h : Wants q l) (hr : r ∈ q) (hi : l.look r.item = some i) : r.Suits i := by
  obtain ⟨y, hy, hs⟩ := h.suited r hr
  obtain rfl := Option.some.inj (hy.symm.trans hi)
  exact hs

end

/-! ### The return entries -/

section
variable {q q' a c : List ReturnEntry} {l l' : Table Item} {k : Nat} {i : Item} {e : ReturnEntry}

theorem Owes.perm (h : Owes q l) (hq : q'.Perm q) : Owes q' l :=
  ⟨(hq.map _).nodup_iff.2 h.items, fun e he => h.due e (hq.mem_iff.1 he), fun k i hk hi => by
    obtain ⟨e, he, hei⟩ := h.entered k i hk hi
    exact ⟨e, hq.mem_iff.2 he, hei⟩⟩

/-- An item that has no return entry, before and after. -/
theorem Owes.keep (h : Owes q l) (hl : ∀ m, m ≠ k → l'.look m = l.look m) (hk : ∀ i, l.look k = some i → i.state ≠ .returning)
    (hk' : ∀ i, l'.look k = some i → i.state ≠ .returning) : Owes q l' := by
  refine ⟨h.items, fun e he => ?_, fun m i hm hi => ?_⟩
  · obtain ⟨i, hi, hs, ht⟩ := h.due e he
    have hne : e.item ≠ k := by
      rintro rfl
      exact hk i hi hs
    exact ⟨i, (hl _ hne).trans hi, hs, ht⟩
  · have hne : m ≠ k := by
      rintro rfl
      exact hk' i hm hi
    exact h.entered m i ((hl m hne).symm.trans hm) hi

/-- Items change that have no return entry, before and after. -/
theorem Owes.mapItems {f : Nat → Item → Item} (h : Owes q l)
    (hf : ∀ k i, l.look k = some i → f k i = i ∨ (i.state ≠ .returning ∧ (f k i).state ≠ .returning)) : Owes q (l.mapRecords f) := by
  refine ⟨h.items, fun e he => ?_, fun m i hm hi => ?_⟩
  · obtain ⟨i, hi, hs, ht⟩ := h.due e he
    have hfi := (hf _ i hi).resolve_right fun hc => hc.1 hs
    exact ⟨i, by rw [Table.look_mapRecords, hi, Option.map_some, hfi], hs, ht⟩
  · rw [Table.look_mapRecords, Option.map_eq_some_iff] at hm
    obtain ⟨y, hy, rfl⟩ := hm
    have hfy := (hf m y hy).resolve_right fun hc => hc.2 hi
    rw [hfy] at hi
    exact h.entered m y hy hi

/-- An item is returned: a new entry. -/
theorem Owes.insert (h : Owes q l) (hl : ∀ m, m ≠ e.item → l'.look m = l.look m) (hold : ∀ i, l.look e.item = some i → i.state ≠ .returning)
    (hnew : l'.look e.item = some i) (hs : i.state = .returning) (ht : i.target = some e.target) : Owes (e :: q) l' := by
  have hne : ∀ x ∈ q, x.item ≠ e.item := fun x hx he => by
    obtain ⟨y, hy, hys, -⟩ := h.due x hx
    exact hold y (he ▸ hy) hys
  refine ⟨List.nodup_cons.2 ⟨fun hm => ?_, h.items⟩, fun x hx => ?_, fun m y hm hy => ?_⟩
  · obtain ⟨x, hx, hxe⟩ := List.mem_map.1 hm
    exact hne x hx hxe
  · rcases List.mem_cons.1 hx with rfl | hx
    · exact ⟨i, hnew, hs, ht⟩
    · obtain ⟨y, hy, hys, hyt⟩ := h.due x hx
      exact ⟨y, (hl _ (hne x hx)).trans hy, hys, hyt⟩
  · by_cases hme : m = e.item
    · exact ⟨e, List.mem_cons_self, hme.symm⟩
    · obtain ⟨x, hx, hxm⟩ := h.entered m y ((hl m hme).symm.trans hm) hy
      exact ⟨x, List.mem_cons_of_mem _ hx, hxm⟩

/-- Entries leave a return queue, and their items are no longer RETURNING. -/
theorem Owes.release {p : ReturnEntry → Bool} (h : Owes (a ++ c) l)
    (hl : ∀ m, (∀ e ∈ a, p e = true → e.item ≠ m) → l'.look m = l.look m)
    (hk : ∀ e ∈ a, p e = true → ∀ i, l'.look e.item = some i → i.state ≠ .returning) :
    Owes ((a.filter fun e => !p e) ++ c) l' := by
  have hsub : ((a.filter fun e => !p e) ++ c).Sublist (a ++ c) := List.filter_sublist.append (.refl c)
  have hnd := h.items
  rw [List.map_append, List.nodup_append] at hnd
  obtain ⟨hnda, -, hdisj⟩ := hnd
  have hfree : ∀ e ∈ (a.filter fun e => !p e) ++ c, ∀ x ∈ a, p x = true → x.item ≠ e.item := fun e he x hx hp hxe => by
    rcases List.mem_append.1 he with he | he
    · obtain ⟨he, hpe⟩ := List.mem_filter.1 he
      obtain rfl := List.inj_on_of_nodup_map hnda hx he hxe
      rw [hp] at hpe
      cases hpe
    · exact hdisj _ (List.mem_map_of_mem hx) _ (List.mem_map_of_mem he) hxe
  refine ⟨h.items.sublist (hsub.map _), fun e he => ?_, fun m i hm hi => ?_⟩
  · obtain ⟨i, hi, hs, ht⟩ := h.due e (hsub.subset he)
    exact ⟨i, (hl _ (hfree e he)).trans hi, hs, ht⟩
  · have hfree' : ∀ e ∈ a, p e = true → e.item ≠ m := by
      rintro e he hp rfl
      exact hk e he hp i hm hi
    obtain ⟨e, he, rfl⟩ := h.entered m i ((hl m hfree').symm.trans hm) hi
    refine ⟨e, ?_, rfl⟩
    rcases List.mem_append.1 he with he | he
    · refine List.mem_append_left _ (List.mem_filter.2 ⟨he, ?_⟩)
      by_contra hp
      exact hfree' e he (by simpa using hp) rfl
    · exact List.mem_append_right _ he

end

/-! ### Lists over a table -/

/-- What one record adds to a list over a table, and the rest. -/
theorem flatMap_adjust_split {α β : Type} {t : Table α} {n : Nat} {x : α} (g : α → List β) (hx : t.look n = some x) :
    ∃ rest, (t.flatMap fun e => g e.2).Perm (g x ++ rest)
      ∧ ∀ f : α → α, ((t.adjust n f).flatMap fun e => g e.2).Perm (g (f x) ++ rest) := by
  induction t with
  | nil => cases hx
  | cons e t ih =>
    obtain ⟨m, y⟩ := e
    rw [Table.look_cons] at hx
    by_cases hm : m = n
    · rw [if_pos hm] at hx
      obtain rfl := Option.some.inj hx
      refine ⟨t.flatMap fun e => g e.2, .refl _, fun f => ?_⟩
      rw [Table.adjust, if_pos hm]
      exact .refl _
    · rw [if_neg hm] at hx
      obtain ⟨rest, hold, hnew⟩ := ih hx
      refine ⟨g y ++ rest, ?_, fun f => ?_⟩
      · rw [List.flatMap_cons]
        exact (hold.append_left _).trans (List.perm_append_comm_assoc _ _ _)
      · rw [Table.adjust, if_neg hm, List.flatMap_cons]
        exact ((hnew f).append_left _).trans (List.perm_append_comm_assoc _ _ _)

/-- What a new record adds to a list over a table. -/
theorem flatMap_put {α β : Type} {t : Table α} {n : Nat} {x : α} (g : α → List β) (hx : t.look n = none) :
    ((t.put n x).flatMap fun e => g e.2).Perm (g x ++ t.flatMap fun e => g e.2) := by
  induction t with
  | nil => exact .refl _
  | cons e t ih =>
    obtain ⟨m, y⟩ := e
    rw [Table.look_cons] at hx
    by_cases hm : m = n
    · rw [if_pos hm] at hx
      cases hx
    · rw [if_neg hm] at hx
      by_cases hlt : n < m
      · rw [Table.put, if_pos hlt]
        exact .refl _
      · rw [Table.put, if_neg hlt, if_neg hm, List.flatMap_cons]
        exact ((ih hx).append_left _).trans (List.perm_append_comm_assoc _ _ _)

/-- The return entries of one station, and the rest. -/
theorem returnEntries_split {s : State} {st : Nat} {x : Station} (hx : s.stations.look st = some x) :
    ∃ rest, s.returnEntries.Perm (x.returns ++ rest)
      ∧ ∀ f : Station → Station, ((s.stations.adjust st f).flatMap fun e => e.2.returns).Perm ((f x).returns ++ rest) :=
  flatMap_adjust_split Station.returns hx

end Sys2Proof.Machine
end

section
/-! The loss of a bin keeps the laws: its requests fail (R120), and its return entries are displaced (R133). -/
namespace Sys2Proof.Machine

variable {s t : State} {n st : Nat}

/-! ### Slots and crane records stand -/

theorem SameWing.foldl {β : Type} (h : SameWing s t) (l : List β) (f : State → β → State)
    (hf : ∀ t x, SameWing s t → SameWing s (f t x)) : SameWing s (l.foldl f t) := by
  induction l generalizing t with
  | nil => exact h
  | cons x l ih => exact ih (hf t x h)

theorem SameWing.of_same {u : State} (h : SameWing s t) (k : Same t u) : SameWing s u := h.trans k.wing

theorem SameWing.modItem (h : SameWing s t) (i : Nat) (f : Item → Item) : SameWing s (t.modItem i f) :=
  h.trans { SameWing.refl t with }

theorem SameWing.setRequests (h : SameWing s t) (l : List Request) : SameWing s (t.setRequests l) :=
  h.trans { SameWing.refl t with }

theorem SameWing.modStation (h : SameWing s t) (n : Nat) (f : Station → Station) : SameWing s (t.modStation n f) :=
  h.trans { SameWing.refl t with }

theorem SameWing.modBin (h : SameWing s t) (n : Nat) (f : Bin → Bin)
    (hf : ∀ b, (f b).home = b.home ∧ (f b).pendingHome = b.pendingHome := by intro _; exact ⟨rfl, rfl⟩) : SameWing s (t.modBin n f) :=
  h.trans
    { SameWing.refl t with
      bins := by
        rw [State.modBin_bins, Table.map_adjust]
        intro v
        rw [(hf v).1, (hf v).2] }

theorem SameWing.failRequests (h : SameWing s t) (p : Request → Bool) (c : RefusalCode) : SameWing s (t.failRequests p c) :=
  (h.foldl _ _ fun _ r h => (h.of_same ((Same.refl _).reportRequest _ r _)).modItem _ _).setRequests _

theorem SameWing.displaceOne (h : SameWing s t) (c : RefusalCode) (e : ReturnEntry) : SameWing s (State.displaceOne c t e) :=
  ((h.modBin _ _).modItem _ _).of_same ((Same.refl _).report _ _ _)

theorem SameWing.displaceAt (h : SameWing s t) (n : Nat) (c : RefusalCode) (st : Nat) : SameWing s (t.displaceAt n c st) := by
  unfold State.displaceAt
  split
  · exact h
  · exact (h.foldl _ _ fun _ e h => h.displaceOne c e).modStation _ _

/-! ### Requests that fail -/

/-- A REQUESTED item that becomes SHELVED stays in its bin. -/
theorem Item.weighs_shelved {i : Item} (m : Table Bin) (hs : i.state = .requested) : i.Weighs { i with state := .shelved } m := by
  refine ⟨rfl, fun h => ?_, fun n => ?_, fun n => ?_, fun n => ?_⟩
  · unfold Item.Housed at h ⊢
    rw [hs] at h
    exact h
  all_goals simp [Item.filling, Item.reserving, Item.counting, Item.fills, Item.reserves, hs]

theorem Stock.failRequests (h : Stock s) {p : Request → Bool} (hp : ∀ r, p r = true → r.state ≠ .picked) (c : RefusalCode) :
    Stock (s.failRequests p c) := by
  rw [State.failRequests_eq h.items]
  have hreq : ∀ k i, s.items.look k = some i → (s.requests.any fun r => p r && decide (r.item = k)) = true →
      i.state = .requested := fun k i hi hany => by
    obtain ⟨r, hr, hrk⟩ := List.any_eq_true.1 hany
    rw [Bool.and_eq_true, decide_eq_true_eq] at hrk
    obtain ⟨hpr, rfl⟩ := hrk
    exact ((h.wants.state_of_mem hr hi).2 (hp r hpr)).1
  have hcases : ∀ k i, s.items.look k = some i →
      (if s.requests.any fun r => p r && decide (r.item = k) then { i with state := .shelved } else i) = i
        ∨ i.state = .requested ∧ (if s.requests.any fun r => p r && decide (r.item = k) then { i with state := .shelved } else i) =
          { i with state := .shelved } := fun k i hi => by
    by_cases hany : (s.requests.any fun r => p r && decide (r.item = k)) = true
    · exact .inr ⟨hreq k i hi hany, if_pos hany⟩
    · exact .inl (if_neg hany)
  refine { h with items := ?_, short := ?_, shelves := ?_, wants := h.wants.fail, owes := ?_, idle := ?_ }
  · simpa using h.items
  · exact (List.length_filter_le _ _).trans h.short
  · refine h.shelves.mapItems (f := fun k i => if s.requests.any fun r => p r && decide (r.item = k) then { i with state := .shelved } else i)
      h.items fun k i hi => ?_
    rcases hcases k i hi with he | ⟨hs, he⟩
    · exact he.symm ▸ .refl i _
    · exact he.symm ▸ Item.weighs_shelved _ hs
  · refine h.owes.mapItems (f := fun k i => if s.requests.any fun r => p r && decide (r.item = k) then { i with state := .shelved } else i)
      fun k i hi => ?_
    rcases hcases k i hi with he | ⟨hs, he⟩
    · exact .inl he
    · exact .inr ⟨by rw [hs]; decide, by rw [he]; exact nofun⟩
  · exact fun hm => ⟨by rw [(h.idle hm).1]; rfl, (h.idle hm).2⟩

theorem Kept.failRequests (h : Kept s t) {p : Request → Bool} (hp : ∀ r, p r = true → r.state ≠ .picked) (c : RefusalCode) :
    Kept s (t.failRequests p c) :=
  h.trans (((SameWing.refl t).failRequests p c).kept fun _ hs => hs.failRequests hp c)

/-! ### Return entries that are displaced -/

/-- Entries with RETURNING items of their own, displaced one after another: the shelves agree throughout. -/
theorem Shelves.displace {c : RefusalCode} {l : List ReturnEntry} (h : Shelves s.mode s.bins s.items) (hnd : (l.map (·.item)).Nodup)
    (hdue : ∀ e ∈ l, ∃ i, s.items.look e.item = some i ∧ i.state = .returning ∧ i.target = some e.target) :
    Shelves s.mode (l.foldl (State.displaceOne c) s).bins (l.foldl (State.displaceOne c) s).items := by
  induction l generalizing s with
  | nil => exact h
  | cons e l ih =>
    obtain ⟨hne, hnd⟩ := List.nodup_cons.1 hnd
    obtain ⟨i, hi, hs, ht⟩ := hdue e List.mem_cons_self
    have hthick : s.thicknessOf e.item = i.thickness := by simp [State.thicknessOf, hi]
    refine ih (s := State.displaceOne c s e) ?_ hnd fun x hx => ?_
    · show Shelves s.mode (s.bins.adjust e.target fun b => b.release (s.thicknessOf e.item))
        (s.items.adjust e.item fun i => { i with state := .overflow, target := none })
      rw [hthick]
      refine h.move_at hi rfl (h.sized _ i hi) trivial (fun q hq => ?_) (fun b hb => ⟨fun _ => ?_, fun hle => ?_, fun _ => ?_⟩)
        fun _ b _ _ _ hcap => ?_
      · have : some e.target ≠ some q := fun heq => hq (Option.some.inj heq).symm
        simp [Item.filling, Item.reserving, Item.counting, Item.fills, Item.reserves, hs, ht, this]
      · simp [Item.filling, Item.fills, hs, Bin.release]
      · simp only [Item.reserving, Item.reserves, hs, ht, decide_true, if_true, Bin.release, Bool.false_eq_true, if_false] at hle ⊢
        omega
      · simp [Item.counting, Item.fills, hs, Bin.release]
      · simp only [Bin.release]
        omega
    · have hxe : x.item ≠ e.item := fun heq => hne (List.mem_map.2 ⟨x, hx, heq⟩)
      obtain ⟨y, hy⟩ := hdue x (List.mem_cons_of_mem _ hx)
      exact ⟨y, (Table.look_adjust_ne s.items _ hxe).trans hy.1, hy.2⟩

theorem Stock.displaceAt (h : Stock s) (n : Nat) (c : RefusalCode) (st : Nat) : Stock (s.displaceAt n c st) := by
  cases hx : s.stations.look st with
  | none =>
    have : s.displaceAt n c st = s := by simp only [State.displaceAt, hx]
    rw [this]
    exact h
  | some x =>
    obtain ⟨rest, hold, hnew⟩ := returnEntries_split hx
    have howes := h.owes.perm hold.symm
    have hdue : ∀ e ∈ x.aimedAt n, ∃ i, s.items.look e.item = some i ∧ i.state = .returning ∧ i.target = some e.target := fun e he =>
      howes.due e (List.mem_append_left _ (List.mem_filter.1 he).1)
    have hnd : ((x.aimedAt n).map (·.item)).Nodup :=
      howes.items.sublist (((List.filter_sublist).trans (List.sublist_append_left _ _)).map _)
    have hshelves := h.shelves.displace (c := c) hnd hdue
    have hclosed := State.foldl_displaceOne (s := s) h.items c (x.aimedAt n) fun e he => of_decide_eq_true (List.mem_filter.1 he).2
    have heq := State.displaceAt_of_look (n := n) (code := c) hx
    rw [hclosed] at heq hshelves
    rw [heq]
    refine ⟨by simpa using h.bins, by simpa using h.items, by simpa using h.stations, h.tag, h.short, hshelves, ?_, ?_, ?_⟩
    · refine h.wants.mapItems (f := fun k i =>
        if (x.aimedAt n).any fun e => decide (e.item = k) then { i with state := .overflow, target := none } else i) fun k i hi => ?_
      by_cases hany : ((x.aimedAt n).any fun e => decide (e.item = k)) = true
      · obtain ⟨e, he, hek⟩ := List.any_eq_true.1 hany
        obtain rfl := of_decide_eq_true hek
        obtain ⟨y, hy, hys, -⟩ := hdue e he
        obtain rfl := Option.some.inj (hi.symm.trans hy)
        exact .inr ⟨by simp [Item.Wanted, hys], by rw [if_pos hany]; exact fun hc => hc.elim nofun nofun⟩
      · exact .inl (if_neg hany)
    · refine Owes.perm ?_ (hnew (Station.spared n))
      refine howes.release (p := fun e => decide (e.target = n)) (fun m hm => ?_) fun e he hp i hi => ?_
      · have hany : ((x.aimedAt n).any fun e => decide (e.item = m)) = false := by
          rw [List.any_eq_false]
          intro e he
          obtain ⟨he, hp⟩ := List.mem_filter.1 he
          simpa using hm e he hp
        simp only [Table.look_mapRecords, hany, Bool.false_eq_true, if_false, Option.map_id']
      · have hany : ((x.aimedAt n).any fun e' => decide (e'.item = e.item)) = true :=
          List.any_eq_true.2 ⟨e, List.mem_filter.2 ⟨he, hp⟩, decide_eq_true rfl⟩
        simp only [Table.look_mapRecords, hany, if_true, Option.map_eq_some_iff] at hi
        obtain ⟨y, -, rfl⟩ := hi
        exact nofun
    · intro hm
      refine ⟨(h.idle hm).1, ?_⟩
      have hnil := (h.idle hm).2
      rw [hnil, List.nil_perm, List.append_eq_nil_iff] at hold
      have hspared : (x.spared n).returns = [] := by simp [Station.spared, hold.1]
      have hperm := hnew (Station.spared n)
      rw [hspared, hold.2] at hperm
      exact List.perm_nil.1 hperm

theorem Kept.displaceAt (h : Kept s t) (n : Nat) (c : RefusalCode) (st : Nat) : Kept s (t.displaceAt n c st) :=
  h.trans (((SameWing.refl t).displaceAt n c st).kept fun _ hs => hs.displaceAt n c st)

/-! ### The loss of a bin -/

theorem Kept.foldl {β : Type} (h : Kept s t) (l : List β) (f : State → β → State) (hf : ∀ t x, Kept s t → Kept s (f t x)) :
    Kept s (l.foldl f t) := by
  induction l generalizing t with
  | nil => exact h
  | cons x l ih => exact ih (hf t x h)

theorem Kept.ite {p : Prop} [Decidable p] {a b : State} (ha : Kept s a) (hb : Kept s b) : Kept s (if p then a else b) := by
  split
  · exact ha
  · exact hb

theorem Kept.enterLoss (h : Kept s t) (n : Nat) (v : BinState) (c : Option Code) : Kept s (t.enterLoss n v c) :=
  ((h.same ((((Same.refl t).setBinState n v).modBin n _).report _ _ _)).failRequests (fun _ => State.standsOn_not_picked) _).foldl _ _
    fun _ st h => h.displaceAt n _ st

theorem Kept.enterDoubt (h : Kept s t) (n : Nat) : Kept s (t.enterDoubt n) := .ite h (h.enterLoss _ _ _)

theorem Kept.judgeRead (h : Kept s t) (n : Nat) : Kept s (t.judgeRead n) := .ite (h.enterLoss _ _ _) h

theorem Kept.overrun (h : Kept s t) (st n : Nat) : Kept s (t.overrun st n) :=
  ((h.same (((Same.refl t).removeTransit n st).clearTrip n)).enterDoubt n).same ((Same.refl _).modStation st _)

theorem SameWing.enterLoss (h : SameWing s t) (n : Nat) (v : BinState) (c : Option Code) : SameWing s (t.enterLoss n v c) :=
  ((h.of_same ((((Same.refl t).setBinState n v).modBin n _).report _ _ _)).failRequests _ _).foldl _ _
    fun _ st h => h.displaceAt n _ st

theorem SameWing.ite {p : Prop} [Decidable p] {a b : State} (ha : SameWing s a) (hb : SameWing s b) :
    SameWing s (if p then a else b) := by
  split
  · exact ha
  · exact hb

theorem SameWing.enterDoubt (h : SameWing s t) (n : Nat) : SameWing s (t.enterDoubt n) := .ite h (h.enterLoss _ _ _)

theorem SameWing.judgeRead (h : SameWing s t) (n : Nat) : SameWing s (t.judgeRead n) := .ite (h.enterLoss _ _ _) h

end Sys2Proof.Machine
end

section
/-! A change of one aisle, or of the slots of one bin, and when it keeps the laws. -/
namespace Sys2Proof.Machine

/-! ### What one aisle hands on -/

/-- The aisle `y` takes the place of `x`: it is sound and as large, and each TRANSFER of `x` is one of `y`, or else may go. -/
structure Aisle.Hands (may : Job → Prop) (x y : Aisle) : Prop where
  sound : y.Sound
  geom : y.geom = x.geom
  jobs : ∀ j ∈ x.jobs, j.kind = .transfer → j ∈ y.jobs ∨ may j

/-- Nothing may go. -/
def nothing (_ : Job) : Prop := False

/-- The bin of the job, if it names one, has no pending home. -/
def State.Freed (s : State) (j : Job) : Prop := ∀ n, j.bin = some n → s.Unpending n

theorem Aisle.mem_jobs {x : Aisle} {j : Job} : j ∈ x.jobs ↔
    j ∈ x.queue ∨ x.crane.staged = some j ∨ x.crane.active = some j ∨ ∃ r, x.crane.suspension = some r ∧ r.job = j := by
  simp only [Aisle.jobs, List.mem_append, Option.mem_toList, Option.map_eq_some_iff, or_assoc]

section
variable {may may' : Job → Prop} {x y z : Aisle}

theorem Aisle.Hands.imp (h : x.Hands may y) (hm : ∀ j ∈ x.jobs, may j → may' j) : x.Hands may' y :=
  ⟨h.sound, h.geom, fun j hj hk => (h.jobs j hj hk).imp_right (hm j hj)⟩

theorem Aisle.Hands.any (h : x.Hands nothing y) : x.Hands may y := h.imp fun _ _ => False.elim

theorem Aisle.Hands.refl (h : x.Sound) : x.Hands nothing x := ⟨h, rfl, fun _ hj _ => .inl hj⟩

theorem Aisle.Hands.trans (h : x.Hands may y) (k : y.Hands nothing z) : x.Hands may z :=
  ⟨k.sound, k.geom.trans h.geom, fun j hj hk =>
    (h.jobs j hj hk).imp_left fun hy => (k.jobs j hy hk).resolve_right False.elim⟩

end

/-! ### One aisle changes -/

section
variable {s t u : State} {a n : Nat} {f : Aisle → Aisle} {j : Job}

/-- The aisles change, each to one that takes its place, and else nothing that the laws read. -/
theorem Kept.everyAisle {g : Nat → Aisle → Aisle} (h : Kept s t) (hsame : SameStock t u) (hw : u.aisles.wf = t.aisles.wf)
    (ha : ∀ b, u.aisles.look b = (t.aisles.look b).map (g b))
    (hg : ∀ b x, t.aisles.look b = some x → x.Sound → x.Hands t.Freed (g b x)) : Kept s u := by
  have hu := hsame.same
  have hcranes : t.mode = .inService → Cranes t → Cranes u := fun hm hc => by
    refine ⟨hw.trans hc.wf, fun b y hy => ?_, fun hm' => absurd (hm'.symm.trans (hu.mode.trans hm)) (by decide)⟩
    rw [ha, Option.map_eq_some_iff] at hy
    obtain ⟨x, hx, rfl⟩ := hy
    exact (hg b x hx (hc.sound b x hx)).sound
  refine h.trans ⟨hu.mode, hcranes, fun hm hc hh => ?_, fun _ hs => { hu.stock hs with }, fun n hn => hu.wing.unpending hn⟩
  have hv := hu.wing.homes hh
  refine ⟨hv.wf, hv.apart, fun hm n b v hb hv' => ?_, fun n b hb hp => ?_⟩
  · have hin := hv.inBounds hm n b v hb hv'
    unfold State.slotInBounds at hin ⊢
    rw [ha]
    cases hx : t.aisles.look v.aisle with
    | none => simp [hx] at hin
    | some x =>
      have hgeom := (hg _ x hx (hc.sound _ x hx)).geom
      simpa [hx, hgeom] using hin
  · obtain ⟨b', x, j, hx, hj, hk, hn⟩ := hv.named n b hb hp
    rw [show ({ u with aisles := t.aisles } : State).aisles = t.aisles from rfl] at hx
    rcases (hg b' x hx (hc.sound _ x hx)).jobs j hj hk with hj' | hfree
    · exact ⟨b', g b' x, j, by rw [ha, hx]; rfl, hj', hk, hn⟩
    · exact absurd (hu.wing.unpending (hfree n hn) b hb) hp

/-- One aisle changes, and else nothing that the laws read. -/
theorem Kept.adjust (h : Kept s t) (hsame : SameStock t u) (ha : u.aisles = t.aisles.adjust a f)
    (hf : ∀ x, t.aisles.look a = some x → x.Sound → x.Hands t.Freed (f x)) : Kept s u := by
  refine h.everyAisle (g := fun b x => if b = a then f x else x) hsame (by rw [ha, Table.wf_adjust]) (fun b => ?_) fun b x hx hs => ?_
  · rw [ha, Table.look_adjust]
    split
    next hb => simp [hb]
    · simp
  · by_cases hb : b = a
    · subst hb
      simpa using hf x hx hs
    · simpa [hb] using (Aisle.Hands.refl hs).any

theorem Kept.modAisle (h : Kept s t) (hf : ∀ x, t.aisles.look a = some x → x.Sound → x.Hands t.Freed (f x)) :
    Kept s (t.modAisle a f) := h.adjust { SameStock.refl t with } rfl hf

theorem Kept.modAisle_safe (h : Kept s t) (hf : ∀ x, t.aisles.look a = some x → x.Sound → x.Hands nothing (f x)) :
    Kept s (t.modAisle a f) := h.modAisle fun x hx hs => (hf x hx hs).any

/-! ### The slots of one bin change -/

theorem Homes.modBin {g : Bin → Bin} (h : Homes s) (hslots : ∀ b, (g b).slots.Sublist b.slots)
    (hp : ∀ b, (g b).pendingHome ≠ none → b.pendingHome ≠ none) : Homes (s.modBin n g) := by
  have hsub : ∀ m : Table Bin, ((m.adjust n g).flatMap fun e => e.2.slots).Sublist (m.flatMap fun e => e.2.slots) := fun m => by
    induction m with
    | nil => exact .refl _
    | cons e m ih =>
      obtain ⟨k, b⟩ := e
      by_cases hk : k = n
      · rw [Table.adjust, if_pos hk]
        exact (hslots b).append (.refl _)
      · rw [Table.adjust, if_neg hk]
        exact (List.Sublist.refl _).append ih
  have hlook : ∀ m c, (s.modBin n g).bins.look m = some c →
      ∃ b, s.bins.look m = some b ∧ (∀ v ∈ c.slots, v ∈ b.slots) ∧ (c.pendingHome ≠ none → b.pendingHome ≠ none) := fun m c hc => by
    rw [State.modBin_bins, Table.look_adjust] at hc
    by_cases hm : m = n
    · rw [if_pos hm, Option.map_eq_some_iff] at hc
      obtain ⟨b, hb, rfl⟩ := hc
      exact ⟨b, hm ▸ hb, fun v hv => (hslots b).subset hv, hp b⟩
    · rw [if_neg hm] at hc
      exact ⟨c, hc, fun _ => id, id⟩
  refine ⟨by simpa using h.wf, fun hm => (h.apart hm).sublist (hsub _), fun hm m c v hc hv => ?_, fun m c hc hpend => ?_⟩
  · obtain ⟨b, hb, hin, -⟩ := hlook m c hc
    exact h.inBounds hm m b v hb (hin v hv)
  · obtain ⟨b, hb, -, hpb⟩ := hlook m c hc
    exact h.named m b hb (hpb hpend)

/-- The figures of a bin. -/
def Bin.figures (b : Bin) : Nat × Nat × Nat := (b.fill, b.reserved, b.count)

/-- The record of a bin changes, but for its figures, for which it keeps room. -/
theorem Stock.recast {g : Bin → Bin} (h : Stock s) (hg : ∀ b, (g b).figures = b.figures)
    (hroom : s.mode = .inService → ∀ b, s.bins.look n = some b → b.fill + b.reserved ≤ (g b).capacity) : Stock (s.modBin n g) := by
  have hlook : ∀ m c, (s.bins.adjust n g).look m = some c →
      ∃ b, s.bins.look m = some b ∧ c.figures = b.figures ∧ (s.mode = .inService → b.fill + b.reserved ≤ c.capacity) := fun m c hc => by
    rw [Table.look_adjust] at hc
    by_cases hm : m = n
    · rw [if_pos hm, Option.map_eq_some_iff] at hc
      obtain ⟨b, hb, rfl⟩ := hc
      exact ⟨b, hm ▸ hb, hg b, fun hv => hroom hv b hb⟩
    · rw [if_neg hm] at hc
      exact ⟨c, hc, rfl, fun hv => h.shelves.room hv m c hc⟩
  refine { h with bins := by simpa using h.bins, shelves := ⟨fun m c hc => ?_, fun hm m c hc => ?_, h.shelves.sized, fun k i hi => ?_⟩ }
  · obtain ⟨b, hb, hfig, -⟩ := hlook m c hc
    simp only [Bin.figures, Prod.mk.injEq] at hfig
    obtain ⟨h1, h2, h3⟩ := hfig
    exact (h.shelves.figures m b hb).same h1 h2 h3
  · obtain ⟨b, hb, hfig, hle⟩ := hlook m c hc
    simp only [Bin.figures, Prod.mk.injEq] at hfig
    obtain ⟨h1, h2, -⟩ := hfig
    rw [h1, h2]
    exact hle hm
  · refine (h.shelves.housed k i hi).mono fun m hm => ?_
    show ((s.bins.adjust n g).look m).isSome = true
    rw [Table.look_adjust]
    split
    · rw [Option.isSome_map]; rename_i he; exact he ▸ hm
    · exact hm

theorem Stock.modBin {g : Bin → Bin} (h : Stock s) (hg : ∀ b, (g b).figures = b.figures) (hcap : ∀ b, (g b).capacity = b.capacity) :
    Stock (s.modBin n g) :=
  h.recast hg fun hm b hb => by rw [hcap]; exact h.shelves.room hm n b hb

/-- The slots of a bin change to fewer, and its figures stand. -/
theorem Kept.modSlots {g : Bin → Bin} (h : Kept s t) (hslots : ∀ b, (g b).slots.Sublist b.slots)
    (hp : ∀ b, (g b).pendingHome ≠ none → b.pendingHome ≠ none) (hg : ∀ b, (g b).figures = b.figures) (hcap : ∀ b, (g b).capacity = b.capacity) :
    Kept s (t.modBin n g) :=
  h.trans ⟨rfl, fun _ hc => { hc with }, fun _ _ hh => hh.modBin hslots hp, fun _ hs => hs.modBin hg hcap, fun m hm b hb => by
    rw [State.modBin_bins, Table.look_adjust] at hb
    split at hb
    · rename_i he
      obtain ⟨c, hc, rfl⟩ := Option.map_eq_some_iff.1 hb
      by_contra hne
      exact hp c hne (hm c (he ▸ hc))
    · exact hm b hb⟩

theorem Kept.clearPending (h : Kept s t) (n : Nat) : Kept s (t.clearPending n) :=
  h.modSlots (fun b => by simp [Bin.slots]) (fun b hb => absurd rfl hb) (fun _ => rfl) fun _ => rfl

theorem Kept.moveHome (h : Kept s t) (n : Nat) : Kept s (t.modBin n Bin.moveHome) :=
  h.modSlots (fun b => by cases hb : b.pendingHome <;> simp [Bin.slots, Bin.moveHome, hb]) (fun b hb => absurd rfl hb) (fun _ => rfl) fun _ => rfl

/-- A bin whose pending home has just been taken from it has none. -/
theorem State.unpending_modBin {g : Bin → Bin} (hg : ∀ b, (g b).pendingHome = none) : (s.modBin n g).Unpending n := fun b hb => by
  rw [State.modBin_bins, Table.look_adjust_same, Option.map_eq_some_iff] at hb
  obtain ⟨c, -, rfl⟩ := hb
  exact hg c

/-! ### A job that is dropped -/

/-- A job may go with its bin lost: the pending home of a TRANSFER goes with it. -/
theorem Kept.drop (h : Kept s t) (hf : ∀ x, t.aisles.look a = some x → x.Sound → x.Hands (· = j) (f x)) :
    Kept s ((t.modAisle a f).dropJob j) := by
  unfold State.dropJob
  split
  next hb =>
    refine h.modAisle fun x hx hs => (hf x hx hs).imp fun k _ hk n hn => ?_
    rw [hk, hb] at hn
    cases hn
  next n hb =>
    have hclear : Kept s (if j.kind = .transfer then (t.modAisle a f).clearPending n else t.modAisle a f) := by
      split
      · refine (h.clearPending n).modAisle (a := a) (f := f) fun x hx hs => (hf x hx hs).imp fun k _ hk m hm => ?_
        rw [hk, hb] at hm
        obtain rfl := Option.some.inj hm
        exact State.unpending_modBin fun _ => rfl
      next hk =>
        refine h.modAisle_safe fun x hx hs => ?_
        obtain ⟨h1, h2, h3⟩ := hf x hx hs
        exact ⟨h1, h2, fun k hkx hkt => (h3 k hkx hkt).imp_right fun (he : k = j) => hk (he ▸ hkt)⟩
    exact .ite hclear (Kept.enterDoubt (.ite (hclear.same ((Same.refl _).clearTrip n)) hclear) n)

theorem Kept.dropJob (h : Kept s t) (j : Job) : Kept s (t.dropJob j) := by
  unfold State.dropJob
  split
  · exact h
  next n _ =>
    have hclear : Kept s (if j.kind = .transfer then t.clearPending n else t) := .ite (h.clearPending n) h
    exact .ite hclear (Kept.enterDoubt (.ite (hclear.same ((Same.refl _).clearTrip n)) hclear) n)

/-- The bin of a TRANSFER that has been dropped has no pending home. -/
theorem State.freed_dropJob (hk : j.kind = .transfer) : (t.dropJob j).Freed j := fun n hn => by
  have hclear : (t.clearPending n).Unpending n := State.unpending_modBin fun _ => rfl
  unfold State.dropJob
  simp only [hn, hk, if_true]
  split
  · exact hclear
  · rw [if_neg (by decide)]
    exact ((SameWing.refl _).enterDoubt n).unpending hclear

end

end Sys2Proof.Machine
end

section
/-! What the Dispatcher and the stops make of one aisle: the new crane record is sound, and no TRANSFER is lost. -/
namespace Sys2Proof.Machine

/-! ### Sound crane records, by what the crane holds -/

section
variable {c d : Crane} {x : Aisle} {j k : Job} {q : List Job}

theorem Crane.sound_of_busy (hb : c.state = .busy) (ha : c.active.isSome = true) (hs : c.suspension = none)
    (hp : c.phase.isSome = true) (hd : c.deadline.isSome = true) : c.Sound where
  busy := fun _ => ⟨ha, hs⟩
  staged := fun h => absurd hb h
  resting := fun h => by rw [hb] at h; rcases h with h | h <;> cases h
  lost := fun h => by rw [hb] at h; cases h
  phase := hp.trans ha.symm
  deadline := hd.trans ha.symm
  retry := fun h => by rw [h] at ha; cases ha
  beside := fun r j hr => by rw [hs] at hr; cases hr

/-- A crane without a job. -/
theorem Crane.sound_of_jobless (hb : c.state ≠ .busy) (ha : c.active = none) (hst : c.staged = none) (hp : c.phase = none)
    (hd : c.deadline = none) (hr : c.retryIndex = 0) (hs : c.state.lost = true → c.suspension = none) : c.Sound where
  busy := fun h => absurd h hb
  staged := fun _ => hst
  resting := fun _ => ha
  lost := hs
  phase := by rw [hp, ha]; rfl
  deadline := by rw [hd, ha]; rfl
  retry := fun _ => hr
  beside := fun r j _ hj => by rw [ha] at hj; cases hj

/-- A crane that keeps its job while it parks, stops, or stands stopped. -/
theorem Crane.Sound.keeps (h : c.Sound) (hstate : d.state = .parking ∨ d.state = .stopping) (ha : d.active = c.active) (hst : d.staged = none) (hs : d.suspension.isSome = true → c.suspension.isSome = true)
    (hp : d.phase.isSome = c.phase.isSome)
    (hd : d.deadline.isSome = c.deadline.isSome) (hr : d.retryIndex = c.retryIndex) : d.Sound where
  busy := fun hb => by rw [hb] at hstate; rcases hstate with h | h <;> cases h
  staged := fun _ => hst
  resting := fun hb => by rcases hstate with h | h <;> rw [h] at hb <;> rcases hb with hb | hb <;> cases hb
  lost := fun hb => by rcases hstate with h | h <;> rw [h] at hb <;> cases hb
  phase := by rw [hp, ha, h.phase]
  deadline := by rw [hd, ha, h.deadline]
  retry := fun hn => hr.trans (h.retry (ha ▸ hn))
  beside := fun r j hrec hj => by
    obtain ⟨r', hr'⟩ := Option.isSome_iff_exists.1 (hs (by rw [hrec]; rfl))
    refine ⟨(h.beside r' j hr' (ha ▸ hj)).1, fun hb => ?_⟩
    rw [hb] at hstate
    rcases hstate with h | h <;> cases h

/-- A crane whose state, jobs and record stand. -/
theorem Crane.Sound.alike (h : c.Sound) (hstate : d.state = c.state) (ha : d.active = c.active) (hst : d.staged = c.staged)
    (hs : d.suspension.isSome = c.suspension.isSome) (hp : d.phase.isSome = c.phase.isSome)
    (hd : d.deadline.isSome = c.deadline.isSome) (hr : c.active = none → d.retryIndex = 0) : d.Sound where
  busy := fun hb => by
    obtain ⟨h1, h2⟩ := h.busy (hstate ▸ hb)
    exact ⟨ha ▸ h1, by simpa [h2] using hs⟩
  staged := fun hb => hst.trans (h.staged (hstate ▸ hb))
  resting := fun hb => ha.trans (h.resting (hstate ▸ hb))
  lost := fun hb => by simpa [h.lost (hstate ▸ hb)] using hs
  phase := by rw [hp, ha, h.phase]
  deadline := by rw [hd, ha, h.deadline]
  retry := fun hn => hr (ha ▸ hn)
  beside := fun r j hrec hj => by
    obtain ⟨r', hr'⟩ := Option.isSome_iff_exists.1 (hs ▸ (by rw [hrec]; rfl : d.suspension.isSome = true))
    obtain ⟨h1, h2⟩ := h.beside r' j hr' (ha ▸ hj)
    exact ⟨h1, hstate ▸ h2⟩

/-! ### The queue -/

theorem mem_joinQueue : k ∈ joinQueue q j ↔ k = j ∨ k ∈ q := by
  unfold joinQueue
  split
  · rw [List.mem_append, List.mem_cons]
    conv_rhs => rw [← List.takeWhile_append_dropWhile (p := Job.isStore) (l := q), List.mem_append]
    tauto
  · rw [List.mem_append, List.mem_singleton, or_comm]

theorem mem_rejoinQueue : k ∈ rejoinQueue q j ↔ k = j ∨ k ∈ q := by
  unfold rejoinQueue
  split
  · exact List.mem_cons
  · rw [List.mem_append, List.mem_cons]
    conv_rhs => rw [← List.takeWhile_append_dropWhile (p := Job.isStore) (l := q), List.mem_append]
    tauto

theorem Aisle.Sound.hands_queue (hs : x.Sound) (hq : ∀ k ∈ x.queue, k.kind = .transfer → k ∈ q) :
    x.Hands nothing { x with queue := q } :=
  ⟨⟨hs.crane, hs.service⟩, rfl, fun k hk hkt => by
    rw [Aisle.mem_jobs] at hk ⊢
    exact .inl (hk.imp_left fun h => hq k h hkt)⟩

/-! ### Jobs handed to a crane -/

/-- The crane serves a job: it is BUSY, or an IDLE crane or a resumed one is so from now on. -/
theorem Aisle.Sound.not_out (hs : x.Sound) (h : x.crane.state.lost = false) : x.service ≠ .outOfService := fun ho => by
  rw [hs.service.1 ho] at h
  cases h

theorem mem_erase_or {l : List Job} (hk : k ∈ l) : k = j ∨ k ∈ l.erase j := by
  by_cases h : k = j
  · exact .inl h
  · exact .inr ((List.mem_erase_of_ne h).2 hk)

theorem Aisle.Sound.hands_activate (hs : x.Sound) (hidle : x.crane.state = .idle) (hrec : x.crane.suspension = none) (v : Deadline) :
    x.Hands nothing
      { x with
        queue := x.queue.erase j
        crane := { x.crane with
          state := .busy, phase := some .toSource, active := some j, retryIndex := 0, deadline := some v } } := by
  have hactive := hs.crane.resting (.inl hidle)
  have hstaged := hs.crane.staged (by rw [hidle]; decide)
  refine ⟨⟨Crane.sound_of_busy rfl rfl hrec rfl rfl, iff_of_false (hs.not_out (by rw [hidle]; rfl)) nofun⟩, rfl, fun k hk _ => .inl ?_⟩
  rw [Aisle.mem_jobs, hactive, hstaged, hrec] at hk
  rw [Aisle.mem_jobs]
  rcases hk with hk | hk | hk | ⟨r, hr, -⟩
  · exact (mem_erase_or (j := j) hk).elim (fun h => .inr (.inr (.inl (congrArg some h.symm)))) .inl
  · cases hk
  · cases hk
  · cases hr

theorem Aisle.Sound.hands_stage (hs : x.Sound) (hbusy : x.crane.state = .busy) (hstaged : x.crane.staged = none) :
    x.Hands nothing { x with queue := x.queue.erase j, crane := { x.crane with staged := some j } } := by
  obtain ⟨hactive, hrec⟩ := hs.crane.busy hbusy
  refine ⟨⟨Crane.sound_of_busy hbusy hactive hrec (hs.crane.phase.trans hactive) (hs.crane.deadline.trans hactive), hs.service⟩, rfl,
    fun k hk _ => .inl ?_⟩
  rw [Aisle.mem_jobs, hstaged] at hk
  rw [Aisle.mem_jobs]
  rcases hk with hk | hk | hk
  · exact (mem_erase_or (j := j) hk).elim (fun h => .inr (.inl (congrArg some h.symm))) .inl
  · cases hk
  · exact .inr (.inr hk)

theorem Aisle.Sound.hands_park (hs : x.Sound) (hparking : x.crane.state = .parking) (hactive : x.crane.active = none)
    (hj : j.kind = .park) (v : Deadline) :
    x.Hands nothing
      { x with
        queue := x.queue.erase j
        crane := { x.crane with phase := some .toDest, active := some j, retryIndex := 0, deadline := some v } } := by
  refine ⟨⟨⟨fun h => ?_, fun _ => ?_, fun h => ?_, fun h => ?_, rfl, rfl, fun h => ?_, fun r k _ hk => ?_⟩, hs.service⟩, rfl, fun k hk _ => .inl ?_⟩
  · exact absurd (hparking.symm.trans h) (by decide)
  · exact hs.crane.staged (by rw [hparking]; decide)
  · rw [hparking] at h
    rcases h with h | h <;> cases h
  · rw [hparking] at h
    cases h
  · cases h
  · obtain rfl := Option.some.inj hk
    exact ⟨hj, by rw [hparking]; decide⟩
  · rw [Aisle.mem_jobs, hactive] at hk
    rw [Aisle.mem_jobs]
    rcases hk with hk | hk | hk | hk
    · exact (mem_erase_or (j := j) hk).elim (fun h => .inr (.inr (.inl (congrArg some h.symm)))) .inl
    · exact .inr (.inl hk)
    · cases hk
    · exact .inr (.inr (.inr hk))

theorem Aisle.Sound.hands_resume (hs : x.Sound) (hidle : x.crane.state = .idle) {r : Suspension} (hrec : x.crane.suspension = some r)
    (v : Deadline) :
    x.Hands nothing
      { x with crane := { x.crane with
          state := .busy, phase := some .toDest, active := some r.job, retryIndex := 0, deadline := some v, suspension := none } } := by
  have hactive := hs.crane.resting (.inl hidle)
  refine ⟨⟨Crane.sound_of_busy rfl rfl rfl rfl rfl, iff_of_false (hs.not_out (by rw [hidle]; rfl)) nofun⟩, rfl, fun k hk _ => .inl ?_⟩
  rw [Aisle.mem_jobs, hactive, hrec] at hk
  rw [Aisle.mem_jobs]
  rcases hk with hk | hk | hk | ⟨r', hr', rfl⟩
  · exact .inl hk
  · exact .inr (.inl hk)
  · cases hk
  · exact .inr (.inr (.inl (by rw [Option.some.inj hr'])))

theorem Aisle.Sound.hands_unstage (hs : x.Sound) (hj : x.crane.staged = some j) :
    x.Hands nothing { x with queue := rejoinQueue x.queue j, crane := { x.crane with staged := none } } := by
  have hbusy : x.crane.state = .busy := by
    by_contra h
    rw [hs.crane.staged h] at hj
    cases hj
  obtain ⟨hactive, hrec⟩ := hs.crane.busy hbusy
  refine ⟨⟨Crane.sound_of_busy hbusy hactive hrec (hs.crane.phase.trans hactive) (hs.crane.deadline.trans hactive), hs.service⟩, rfl,
    fun k hk _ => .inl ?_⟩
  rw [Aisle.mem_jobs, hj] at hk
  rw [Aisle.mem_jobs]
  rcases hk with hk | hk | hk
  · exact .inl (mem_rejoinQueue.2 (.inr hk))
  · exact .inl (mem_rejoinQueue.2 (.inl (Option.some.inj hk).symm))
  · exact .inr (.inr hk)

theorem Aisle.Sound.hands_unstaged (hs : x.Sound) : x.Hands nothing x.unstaged := by
  unfold Aisle.unstaged
  split
  · exact .refl hs
  next j hj => exact hs.hands_unstage hj

/-! ### Stops -/

theorem Aisle.unstaged_crane (x : Aisle) : x.unstaged.crane = { x.crane with staged := none } := by
  unfold Aisle.unstaged
  split
  next h => rw [← h]
  · rfl

/-- A crane that is sent STOP keeps its job and its record. -/
theorem Aisle.Sound.hands_sentStop (hs : x.Sound) (hlost : x.crane.state.lost = false) (wait : Nat) :
    x.Hands nothing (x.sentStop wait) := by
  have hun := hs.hands_unstaged
  obtain ⟨hgeom, hservice, -⟩ := x.unstaged_fixed
  refine ⟨⟨?_, ?_⟩, hgeom, fun k hk hkt => .inl ?_⟩
  · unfold Aisle.sentStop
    rw [Aisle.unstaged_crane]
    exact hs.crane.keeps (.inr rfl) rfl rfl id rfl rfl rfl
  · unfold Aisle.sentStop
    rw [hservice]
    exact iff_of_false (hs.not_out hlost) nofun
  · have hk' := (hun.jobs k hk hkt).resolve_right False.elim
    rw [Aisle.mem_jobs] at hk' ⊢
    exact hk'.imp_left fun h => List.mem_filter.2 ⟨h, by simp [hkt]⟩

theorem Aisle.Sound.hands_frozen (hs : x.Sound) : x.Hands nothing x.frozen := by
  unfold Aisle.frozen
  split
  · exact ⟨⟨hs.crane.alike rfl rfl rfl rfl rfl (by simp) fun h => hs.crane.retry h, hs.service⟩, rfl, fun k hk _ => .inl hk⟩
  · exact .refl hs

theorem Aisle.Sound.hands_halted (hs : x.Sound) (wait : Nat) : x.Hands nothing (x.halted wait) := by
  unfold Aisle.halted
  split
  case h_1 hstate | h_2 hstate | h_3 hstate =>
    have h := hs.hands_sentStop (by rw [hstate]; rfl) wait
    exact h.trans h.sound.hands_frozen
  case h_4 => exact hs.hands_frozen
  all_goals exact .refl hs

theorem Aisle.Sound.hands_entered (hs : x.Sound) (wait : Nat) : x.Hands nothing (x.entered wait) := by
  unfold Aisle.entered
  split
  case h_1 hstate | h_2 hstate => exact hs.hands_sentStop (by rw [hstate]; rfl) wait
  case h_3 hstate =>
    have h := hs.hands_sentStop (by rw [hstate]; rfl) wait
    refine ⟨⟨?_, h.sound.service⟩, h.geom, fun k hk hkt => .inl ?_⟩
    · refine h.sound.crane.alike rfl rfl rfl ?_ rfl rfl fun ha => h.sound.crane.retry ha
      rw [Option.isSome_map]
      unfold Aisle.sentStop
      rw [Aisle.unstaged_crane]
    · have hk' := (h.jobs k hk hkt).resolve_right False.elim
      rw [Aisle.mem_jobs] at hk' ⊢
      refine hk'.imp_right fun h => h.imp_right fun h => h.imp_right ?_
      rintro ⟨r, hr, rfl⟩
      unfold Aisle.sentStop at hr
      rw [Aisle.unstaged_crane] at hr
      exact ⟨{ r with parkLabel := none }, by rw [show x.crane.suspension = some r from hr]; rfl, rfl⟩
  case h_4 => exact ⟨⟨hs.crane.alike rfl rfl rfl rfl rfl rfl fun h => hs.crane.retry h, hs.service⟩, rfl, fun k hk _ => .inl hk⟩
  case h_5 hstate =>
    split
    · exact .refl hs
    next j hj =>
      have hstaged := hs.crane.staged (by rw [hstate]; decide)
      refine ⟨⟨Crane.sound_of_jobless (by rw [hstate]; decide) rfl hstaged rfl rfl rfl fun h => ?_, hs.service⟩, rfl, fun k hk _ => .inl ?_⟩
      · rw [hstate] at h
        cases h
      · rw [Aisle.mem_jobs, hj] at hk
        rw [Aisle.mem_jobs]
        rcases hk with hk | hk | hk | ⟨r, hr, -⟩
        · exact .inl hk
        · exact .inr (.inl hk)
        · exact .inr (.inr (.inr ⟨_, rfl, Option.some.inj hk⟩))
        · exact absurd hstate (hs.crane.beside r j hr hj).2
  all_goals exact .refl hs

/-! ### A PARK, the end of a service -/

theorem Aisle.Sound.hands_createPark (hs : x.Sound) (hb : x.crane.state ≠ .busy) (hlost : x.crane.state.lost = false) :
    x.Hands nothing { x with queue := joinQueue x.queue j, crane := { x.crane with state := .parking } } := by
  refine ⟨⟨hs.crane.keeps (.inl rfl) rfl (hs.crane.staged hb) id rfl rfl rfl, iff_of_false (hs.not_out hlost) nofun⟩, rfl,
    fun k hk _ => .inl ?_⟩
  rw [Aisle.mem_jobs] at hk ⊢
  exact hk.imp_left fun h => mem_joinQueue.2 (.inr h)

/-- The crane and the aisle out of service (R78, R80, R81). -/
def Aisle.retired (x : Aisle) : Aisle := { x with service := .outOfService, crane := { x.crane with state := .outOfService } }

theorem Aisle.Sound.hands_retired (hs : x.Sound) (ha : x.crane.active = none) (hrec : x.crane.suspension = none) :
    x.Hands nothing x.retired := by
  have hb : x.crane.state ≠ .busy := fun h => by
    have := (hs.crane.busy h).1
    rw [ha] at this
    cases this
  have hp : x.crane.phase = none := by simpa [ha] using hs.crane.phase
  have hd : x.crane.deadline = none := by simpa [ha] using hs.crane.deadline
  exact ⟨⟨Crane.sound_of_jobless nofun ha (hs.crane.staged hb) hp hd (hs.crane.retry ha) fun _ => hrec, iff_of_true rfl rfl⟩, rfl,
    fun k hk _ => .inl hk⟩

end

end Sys2Proof.Machine
end

section
/-! The Dispatcher, the calls of bins, the end of a job and the end of a service keep the laws. -/
namespace Sys2Proof.Machine

section
variable {s t : State} {a n : Nat} {x : Aisle} {j : Job}

/-! ### The queue -/

theorem Kept.addJob (h : Kept s t) (a : Nat) (mk : Nat → Job) : Kept s (t.addJob a mk) :=
  h.adjust { SameStock.refl t with } rfl fun _ _ hs => (hs.hands_queue fun _ hk _ => mem_joinQueue.2 (.inr hk)).any

theorem Kept.returnJob (h : Kept s t) (a : Nat) (j : Job) : Kept s (t.returnJob a j) :=
  h.modAisle_safe fun _ _ hs => hs.hands_queue fun _ hk _ => mem_rejoinQueue.2 (.inr hk)

theorem Kept.dropQueuedPark (h : Kept s t) (a : Nat) : Kept s (t.dropQueuedPark a) :=
  h.modAisle_safe fun _ _ hs => hs.hands_queue fun k hk hkt => List.mem_filter.2 ⟨hk, by simp [hkt]⟩

/-! ### Calls of bins -/

theorem Kept.callBin (h : Kept s t) (n st : Nat) (p : Purpose) : Kept s (t.callBin n st p) := by
  unfold State.callBin
  split
  · exact h
  · exact (h.addJob _ _).same ((Same.refl _).modBin _ _)

theorem Kept.followOn (h : Kept s t) (n : Nat) : Kept s (t.followOn n) := by
  unfold State.followOn
  split
  · exact h
  · have k := h.same ((Same.refl t).modBin n fun b => { b with next := none })
    exact .ite (k.callBin _ _ _) (.ite (k.callBin _ _ _) k)

theorem Kept.binStored (h : Kept s t) (n : Nat) : Kept s (t.binStored n) :=
  (h.same (((Same.refl t).setBinState n _).report _ _ _)).followOn n

theorem Kept.uncallBin (h : Kept s t) (n : Nat) : Kept s (t.uncallBin n) :=
  .ite ((h.same (((Same.refl t).setBinState n _).clearTrip n)).followOn n) h

/-! ### Jobs handed to cranes (R62 to R64, R77, R175) -/

theorem Kept.activateNext (h : Kept s t) (hx : t.aisles.look a = some x) (hidle : x.crane.state = .idle)
    (hrec : x.crane.suspension = none) : Kept s (t.activateNext a) := by
  unfold State.activateNext
  simp only [hx]
  split
  · exact h
  · refine h.adjust { SameStock.refl t with } (Table.adjust_adjust _ _ _ _) fun y hy hs => ?_
    obtain rfl := Option.some.inj (hx.symm.trans hy)
    exact (hs.hands_activate hidle hrec _).any

theorem Kept.offerStage (h : Kept s t) (a : Nat) : Kept s (t.offerStage a) := by
  unfold State.offerStage
  split
  · exact h
  next x hx =>
    split
    next hc =>
      simp only [Bool.and_eq_true, decide_eq_true_eq, Option.isNone_iff_eq_none] at hc
      obtain ⟨⟨hbusy, hstaged⟩, -⟩ := hc
      split
      · exact h
      · refine h.adjust { SameStock.refl t with } (Table.adjust_adjust _ _ _ _) fun y hy hs => ?_
        obtain rfl := Option.some.inj (hx.symm.trans hy)
        exact (hs.hands_stage hbusy hstaged).any
    · exact h

theorem Kept.activatePark (h : Kept s t) (hx : t.aisles.look a = some x) (hparking : x.crane.state = .parking) :
    Kept s (t.activatePark a) := by
  unfold State.activatePark
  simp only [hx]
  split
  · exact h
  next j hj =>
    split
    next hc =>
      rw [Bool.and_eq_true, Option.isNone_iff_eq_none] at hc
      refine h.adjust { SameStock.refl t with } (Table.adjust_adjust _ _ _ _) fun y hy hs => ?_
      obtain rfl := Option.some.inj (hx.symm.trans hy)
      exact (hs.hands_park hparking hc.1 (by simpa using List.find?_some hj) _).any
    · exact h

theorem Kept.resume (h : Kept s t) (hx : t.aisles.look a = some x) (hidle : x.crane.state = .idle) : Kept s (t.resume a) := by
  unfold State.resume
  simp only [hx]
  split
  · exact h
  next r hrec =>
    split
    · refine Kept.same (Kept.modAisle_safe (a := a) h fun y hy hs => ?_) (((Same.refl _).liftBin _).sendCrane _ _)
      obtain rfl := Option.some.inj (hx.symm.trans hy)
      exact hs.hands_resume hidle hrec _
    · exact h

theorem Kept.lookAisle (h : Kept s t) (a : Nat) : Kept s (t.lookAisle a) := by
  unfold State.lookAisle
  split
  · exact h
  next x hx =>
    split
    next hidle =>
      refine Kept.offerStage ?_ a
      split
      · exact h.resume hx hidle
      next hrec => exact h.activateNext hx hidle hrec
    next hparking => exact h.activatePark hx hparking
    · exact h.offerStage a
    all_goals exact h

theorem Kept.lookAll (h : Kept s t) : Kept s t.lookAll := h.foldl _ _ fun _ a h => h.lookAisle a

theorem Kept.withdrawStaged (h : Kept s t) (tell : Bool) (a : Nat) : Kept s (t.withdrawStaged tell a) := by
  unfold State.withdrawStaged
  split
  · exact h
  next x hx =>
    split
    · exact h
    next j hj =>
      have k : Kept s ((t.modCrane a fun c => { c with staged := none }).returnJob a j) := by
        refine h.adjust { SameStock.refl t with } (Table.adjust_adjust _ _ _ _) fun y hy hs => ?_
        obtain rfl := Option.some.inj (hx.symm.trans hy)
        exact (hs.hands_unstage hj).any
      exact .ite (k.same ((Same.refl _).sendCrane _ _)) k

theorem Kept.withdrawIneligible (h : Kept s t) (a : Nat) : Kept s (t.withdrawIneligible a) := by
  unfold State.withdrawIneligible
  split
  · exact h
  · split
    · exact h
    · exact .ite h (h.withdrawStaged _ _)

theorem Kept.withdrawAll (h : Kept s t) : Kept s t.withdrawAll := h.foldl _ _ fun _ a h => h.withdrawIneligible a

/-! ### The end of a service (R78, R80, R81) -/

theorem State.takeOut_aisles (t : State) (a : Nat) : (t.takeOut a).aisles = t.aisles.adjust a Aisle.retired := by
  cases hx : t.aisles.look a with
  | none =>
    have hx' : (t.modCrane a fun c => { c with state := .outOfService }).aisles.look a = none := by simp [State.modCrane, hx]
    simp only [State.takeOut, State.setService, hx']
    exact Table.adjust_congr fun y hy => by rw [hx] at hy; cases hy
  | some x =>
    by_cases hs : x.service = .outOfService
    · have hx' : (t.modCrane a fun c => { c with state := .outOfService }).aisles.look a =
          some { x with crane := { x.crane with state := .outOfService } } := by simp [State.modCrane, hx]
      rw [State.takeOut, State.setService_of_eq hx' hs]
      refine Table.adjust_congr fun y hy => ?_
      obtain rfl := Option.some.inj (hx.symm.trans hy)
      rw [Aisle.retired, ← hs]
    · rw [State.takeOut_of_ne hx hs]
      rfl

theorem SameStock.modAisle (h : SameStock s t) (a : Nat) (f : Aisle → Aisle) : SameStock s (t.modAisle a f) :=
  h.trans { SameStock.refl t with }

theorem SameStock.modCrane (h : SameStock s t) (a : Nat) (f : Crane → Crane) : SameStock s (t.modCrane a f) :=
  h.trans { SameStock.refl t with }

theorem SameStock.setService (h : SameStock s t) (a : Nat) (v : Service) : SameStock s (t.setService a v) := by
  unfold State.setService
  split
  · exact h
  · split
    · exact h
    · exact (h.modAisle a _).trans ((Same.refl _).report _ _ _).sameStock

theorem SameStock.takeOut (h : SameStock s t) (a : Nat) : SameStock s (t.takeOut a) := (h.modCrane a _).setService a _

/-- The aisle ends its service when its crane holds neither a job nor a record. -/
theorem Kept.takeOut (h : Kept s t) (hfree : ∀ x, t.aisles.look a = some x → x.crane.free = true) : Kept s (t.takeOut a) := by
  refine h.adjust ((SameStock.refl t).takeOut a) (State.takeOut_aisles t a) fun x hx hs => ?_
  have hf := hfree x hx
  simp only [Crane.free, Bool.and_eq_true, Option.isNone_iff_eq_none] at hf
  exact (hs.hands_retired hf.1 hf.2).any

theorem Kept.endDraining (h : Kept s t) (a : Nat) : Kept s (t.endDraining a) := by
  unfold State.endDraining
  split
  · exact h
  next x hx =>
    split
    next hc =>
      refine h.takeOut fun y hy => ?_
      obtain rfl := Option.some.inj (hx.symm.trans hy)
      exact (Bool.and_eq_true_iff.1 hc).2
    · exact h

end

end Sys2Proof.Machine
end

section
/-! Stops, losses, the entries of a zone to SHUTDOWN and RESTORING, and the end of a job keep the laws. -/
namespace Sys2Proof.Machine

section
variable {s t : State} {a n : Nat} {x : Aisle} {j : Job} {p : Point}

/-! ### Stops (R160, R181) -/

theorem Kept.haltCrane (h : Kept s t) (a : Nat) : Kept s (t.haltCrane a) := by
  cases hx : t.aisles.look a with
  | none =>
    have : t.haltCrane a = t := by simp only [State.haltCrane, hx]
    rw [this]
    exact h
  | some x =>
    rw [State.haltCrane_eq hx]
    exact h.adjust { SameStock.refl t with } rfl fun y _ hs => (hs.hands_halted _).any

theorem Kept.haltCranes (h : Kept s t) : Kept s t.haltCranes := h.foldl _ _ fun _ a h => h.haltCrane a

theorem Kept.raise (h : Kept s t) (f : Raised) : Kept s (t.raise f) := by
  unfold State.raise
  simp only
  split
  · exact h.same (((Same.refl t).setFaults _).report _ _ _)
  · exact (h.same (((Same.refl t).setFaults _).report _ _ _)).haltCranes.same ((Same.refl _).report _ _ _)
  · exact h.same ((Same.refl t).report _ _ _)

theorem Kept.shutdownCrane (h : Kept s t) (a : Nat) : Kept s (t.shutdownCrane a) := by
  cases hx : t.aisles.look a with
  | none =>
    have : t.shutdownCrane a = t := by simp only [State.shutdownCrane, hx]
    rw [this]
    exact h
  | some x =>
    rw [State.shutdownCrane_of_look hx]
    exact h.adjust { SameStock.refl t with } rfl fun y _ hs => (hs.hands_entered _).any

theorem Kept.entryActions (h : Kept s t) (z : Nat) : Kept s (t.entryActions z) :=
  (((h.foldl _ _ fun _ n h => h.same ((Same.refl _).shutdownStation n)).foldl _ _ fun _ a h => h.shutdownCrane a).foldl _ _
    fun _ n h => h.same ((Same.refl _).startClose n))

theorem Kept.enterShutdown (h : Kept s t) (z : Nat) : Kept s (t.enterShutdown z) := by
  unfold State.enterShutdown
  split
  case h_1 | h_2 | h_3 => exact (h.same (((Same.refl t).modZone z _).setZoneState z _)).entryActions z
  all_goals exact h

theorem Kept.holdLane (h : Kept s t) (st : Nat) : Kept s (t.holdLane st) := (h.same ((Same.refl t).modStation st _)).withdrawAll

/-! ### Restoration (R170) -/

theorem Kept.createPark (h : Kept s t) (hx : ∀ x, t.aisles.look a = some x → x.crane.state ≠ .busy ∧ x.crane.state.lost = false) :
    Kept s (t.createPark a) :=
  h.adjust { SameStock.refl t with } (Table.adjust_adjust _ _ _ _) fun x hl hs => (hs.hands_createPark (hx x hl).1 (hx x hl).2).any

theorem Kept.parkStopped (h : Kept s t) (a : Nat) : Kept s (t.parkStopped a) := by
  unfold State.parkStopped
  split
  · exact h
  next x hx =>
    split
    next hstopped =>
      refine h.createPark fun y hy => ?_
      obtain rfl := Option.some.inj (hx.symm.trans hy)
      rw [hstopped]
      exact ⟨by decide, rfl⟩
    · exact h

theorem Kept.enterRestoring (h : Kept s t) (z : Nat) : Kept s (t.enterRestoring z) :=
  ((h.same ((Same.refl t).setZoneState z _)).foldl _ _ fun _ n h => h.same ((Same.refl _).restoreShutter n)).foldl _ _
    fun _ a h => h.parkStopped a

/-! ### The end of a job (R65, R67, R81) -/

/-- The crane after its job has ended at a point. -/
def Crane.ended (p : Point) (c : Crane) : Crane := { c.clearJob with position := some p }

theorem Crane.Sound.ended {c : Crane} (h : c.Sound) (hb : c.state ≠ .busy) : (c.ended p).Sound :=
  Crane.sound_of_jobless hb rfl (h.staged hb) rfl rfl rfl h.lost

/-- What an aisle loses with the active job of its crane. -/
theorem Aisle.mem_jobs_ended {q : List Job} {k : Job} (hk : k ∈ x.jobs) (hq : q = x.queue) :
    k ∈ ({ x with queue := q, crane := x.crane.ended p } : Aisle).jobs ∨ x.crane.active = some k := by
  rw [Aisle.mem_jobs] at hk
  subst hq
  rcases hk with hk | hk | hk | hk
  · exact .inl (Aisle.mem_jobs.2 (.inl hk))
  · exact .inl (Aisle.mem_jobs.2 (.inr (.inl hk)))
  · exact .inr hk
  · exact .inl (Aisle.mem_jobs.2 (.inr (.inr (.inr hk))))

theorem Kept.endJob (h : Kept s t)
    (hfree : ∀ x j, t.aisles.look a = some x → x.crane.active = some j → j.kind = .transfer → t.Freed j) (p : Point) :
    Kept s (t.endJob a p) := by
  unfold State.endJob
  split
  · exact h
  next x hx =>
    have hx' : (t.modCrane a (Crane.ended p)).aisles.look a = some { x with crane := x.crane.ended p } := by
      simp [State.modCrane, hx]
    have hjobs : ∀ k ∈ x.jobs, k.kind = .transfer →
        k ∈ ({ x with crane := x.crane.ended p } : Aisle).jobs ∨ t.Freed k := fun k hk hkt =>
      (Aisle.mem_jobs_ended hk rfl).imp_right fun ha => hfree x k hx ha hkt
    split
    next hbusy =>
      show Kept s ((t.modCrane a (Crane.ended p)).nextAfter a p)
      unfold State.nextAfter
      simp only [hx']
      split
      next j hj =>
        have hstaged : x.crane.staged = some j := hj
        refine h.adjust { SameStock.refl t with }
          ((Table.adjust_adjust _ _ _ _).trans (Table.adjust_adjust _ _ _ _)) fun y hy hs => ?_
        obtain rfl := Option.some.inj (hx.symm.trans hy)
        obtain ⟨-, hrec⟩ := hs.crane.busy hbusy
        refine ⟨⟨Crane.sound_of_busy rfl rfl hrec rfl rfl, iff_of_false (hs.not_out (by rw [hbusy]; rfl)) nofun⟩, rfl,
          fun k hk hkt => (hjobs k hk hkt).imp_left fun hk' => ?_⟩
        rw [Aisle.mem_jobs] at hk' ⊢
        rcases hk' with hk' | hk' | hk' | hk'
        · exact .inl hk'
        · exact .inr (.inr (.inl (hstaged.symm.trans hk' ▸ rfl)))
        · cases hk'
        · exact .inr (.inr (.inr hk'))
      next hnone =>
        have hstaged : x.crane.staged = none := hnone
        split
        · refine h.adjust (((SameStock.refl t).modCrane a _).takeOut a)
            ((State.takeOut_aisles _ a).trans (Table.adjust_adjust _ _ _ _)) fun y hy hs => ?_
          obtain rfl := Option.some.inj (hx.symm.trans hy)
          obtain ⟨-, hrec⟩ := hs.crane.busy hbusy
          exact ⟨⟨Crane.sound_of_jobless nofun rfl hstaged rfl rfl rfl fun _ => hrec, iff_of_true rfl rfl⟩, rfl, hjobs⟩
        · refine h.adjust { SameStock.refl t with } (Table.adjust_adjust _ _ _ _) fun y hy hs => ?_
          obtain rfl := Option.some.inj (hx.symm.trans hy)
          exact ⟨⟨Crane.sound_of_jobless nofun rfl hstaged rfl rfl rfl nofun, iff_of_false (hs.not_out (by rw [hbusy]; rfl)) nofun⟩,
            rfl, hjobs⟩
    next hbusy =>
      refine h.modAisle fun y hy hs => ?_
      obtain rfl := Option.some.inj (hx.symm.trans hy)
      exact ⟨⟨hs.crane.ended hbusy, hs.service⟩, rfl, hjobs⟩

/-! ### A crane that is lost (R74, R76, R162) -/

/-- The settlement of a lost job may add it to the queue of its aisle; the crane stands. -/
theorem State.settleLost_look {back : Bool} {y : Aisle} (hy : (t.settleLost a j back).aisles.look a = some y) :
    ∃ x, t.aisles.look a = some x ∧ y.crane = x.crane ∧ (∀ k ∈ x.queue, k ∈ y.queue) ∧ (back = true → j ∈ y.queue) := by
  unfold State.settleLost at hy
  cases back
  · rw [if_neg (by decide), State.dropJob_aisles] at hy
    exact ⟨y, hy, rfl, fun _ => id, nofun⟩
  · rw [if_pos rfl, State.returnJob, State.modAisle_aisles, Table.look_adjust_same, Option.map_eq_some_iff] at hy
    obtain ⟨x, hx, rfl⟩ := hy
    exact ⟨x, hx, rfl, fun k hk => mem_rejoinQueue.2 (.inr hk), fun _ => mem_rejoinQueue.2 (.inl rfl)⟩

theorem Kept.settleLost (h : Kept s t) (a : Nat) (j : Job) (back : Bool) : Kept s (t.settleLost a j back) :=
  .ite (h.returnJob a j) (h.dropJob j)

theorem Kept.settleActive (h : Kept s t) (a : Nat) (c : Crane) : Kept s (t.settleActive a c) := by
  unfold State.settleActive
  split
  · exact h
  · exact h.settleLost _ _ _

theorem Kept.settleRecord (h : Kept s t) (a : Nat) (c : Crane) : Kept s (t.settleRecord a c) := by
  unfold State.settleRecord
  split
  · exact h
  · exact h.settleLost _ _ _

/-- The job of a crane that is lost is provided for: it is back in the queue, or its bin has no pending home. -/
def State.Provided (s : State) (a : Nat) (j : Job) : Prop :=
  (∀ y, s.aisles.look a = some y → j ∈ y.queue) ∨ s.Freed j

theorem State.provided_settleLost {back : Bool} (hk : j.kind = .transfer) : (t.settleLost a j back).Provided a j := by
  cases back
  · exact .inr (State.freed_dropJob hk)
  · refine .inl fun y hy => ?_
    obtain ⟨x, -, -, -, hj⟩ := State.settleLost_look hy
    exact hj rfl

theorem State.Provided.settleLost {k : Job} {back : Bool} (h : t.Provided a j) : (t.settleLost a k back).Provided a j := by
  refine h.imp (fun hq y hy => ?_) fun hf n hn => ((Kept.refl t).settleLost a k back).unpending n (hf n hn)
  obtain ⟨x, hx, -, hqueue, -⟩ := State.settleLost_look hy
  exact hqueue j (hq x hx)

/-- The active job and the record of a crane, settled (R75, R76). -/
def State.jobsSettled (s : State) (a : Nat) (c : Crane) : State := ((s.settleActive a c).settleRecord a c).dropQueuedPark a

theorem Kept.jobsSettled (h : Kept s t) (a : Nat) (c : Crane) : Kept s (t.jobsSettled a c) :=
  ((h.settleActive a c).settleRecord a c).dropQueuedPark a

theorem State.jobsSettled_look {c : Crane} {y : Aisle} (hy : (t.jobsSettled a c).aisles.look a = some y) :
    ∃ x, t.aisles.look a = some x ∧ y.crane = x.crane
      ∧ ∀ j, j.kind = .transfer → j ∈ x.queue → j ∈ y.queue := by
  have hactive : ∀ {u : State} {z : Aisle}, (u.settleActive a c).aisles.look a = some z →
      ∃ x, u.aisles.look a = some x ∧ z.crane = x.crane ∧ ∀ k ∈ x.queue, k ∈ z.queue := fun {u z} hz => by
    unfold State.settleActive at hz
    split at hz
    · exact ⟨z, hz, rfl, fun _ => id⟩
    · obtain ⟨x, hx, hc, hq, -⟩ := State.settleLost_look hz
      exact ⟨x, hx, hc, hq⟩
  have hrecord : ∀ {u : State} {z : Aisle}, (u.settleRecord a c).aisles.look a = some z →
      ∃ x, u.aisles.look a = some x ∧ z.crane = x.crane ∧ ∀ k ∈ x.queue, k ∈ z.queue := fun {u z} hz => by
    unfold State.settleRecord at hz
    split at hz
    · exact ⟨z, hz, rfl, fun _ => id⟩
    · obtain ⟨x, hx, hc, hq, -⟩ := State.settleLost_look hz
      exact ⟨x, hx, hc, hq⟩
  rw [State.jobsSettled, State.dropQueuedPark, State.modAisle_aisles, Table.look_adjust_same, Option.map_eq_some_iff] at hy
  obtain ⟨w, hw, rfl⟩ := hy
  obtain ⟨z, hz, hzc, hzq⟩ := hrecord hw
  obtain ⟨x, hx, hxc, hxq⟩ := hactive hz
  exact ⟨x, hx, hzc.trans hxc, fun k hk hkq => List.mem_filter.2 ⟨hzq k (hxq k hkq), by simp [hk]⟩⟩

theorem State.provided_jobsSettled {c : Crane} (hk : j.kind = .transfer)
    (hj : c.active = some j ∨ ∃ r, c.suspension = some r ∧ r.job = j) : (t.jobsSettled a c).Provided a j := by
  have hsettled : ((t.settleActive a c).settleRecord a c).Provided a j := by
    rcases hj with hj | ⟨r, hr, rfl⟩
    · have hactive : (t.settleActive a c).Provided a j := by
        simp only [State.settleActive, hj]
        exact State.provided_settleLost hk
      unfold State.settleRecord
      split
      · exact hactive
      · exact hactive.settleLost
    · simp only [State.settleRecord, hr]
      exact State.provided_settleLost hk
  refine hsettled.imp (fun hq y hy => ?_) fun hf n hn => ((Kept.refl _).dropQueuedPark a).unpending n (hf n hn)
  rw [State.jobsSettled, State.dropQueuedPark, State.modAisle_aisles, Table.look_adjust_same, Option.map_eq_some_iff] at hy
  obtain ⟨x, hx, rfl⟩ := hy
  exact List.mem_filter.2 ⟨hq x hx, by simp [hk]⟩

/-- The aisle of a lost crane. -/
def Aisle.forfeited (x : Aisle) : Aisle := { x with service := .outOfService, crane := x.crane.lose }

theorem State.forfeited_aisles (t : State) (a : Nat) :
    ((t.modCrane a Crane.lose).setService a .outOfService).aisles = t.aisles.adjust a Aisle.forfeited := by
  cases hx : t.aisles.look a with
  | none =>
    have hx' : (t.modCrane a Crane.lose).aisles.look a = none := by simp [State.modCrane, hx]
    simp only [State.setService, hx']
    exact Table.adjust_congr fun y hy => by rw [hx] at hy; cases hy
  | some x =>
    have hx' : (t.modCrane a Crane.lose).aisles.look a = some { x with crane := x.crane.lose } := by simp [State.modCrane, hx]
    by_cases hs : x.service = .outOfService
    · rw [State.setService_of_eq hx' hs]
      refine Table.adjust_congr fun y hy => ?_
      obtain rfl := Option.some.inj (hx.symm.trans hy)
      rw [Aisle.forfeited, ← hs]
    · rw [State.setService_of_ne hx' hs]
      exact Table.adjust_adjust t.aisles a (fun x => { x with crane := x.crane.lose }) fun x => { x with service := .outOfService }

theorem State.withdrawStaged_look {y : Aisle} (hy : (t.withdrawStaged false a).aisles.look a = some y) :
    ∃ x, t.aisles.look a = some x ∧ y = x.unstaged := by
  rw [State.withdrawStaged_eq, State.modAisle_aisles, Table.look_adjust_same, Option.map_eq_some_iff] at hy
  obtain ⟨x, hx, rfl⟩ := hy
  exact ⟨x, hx, rfl⟩

theorem Kept.loseCrane (h : Kept s t) (a : Nat) (k : FaultKind) : Kept s (t.loseCrane a k) := by
  unfold State.loseCrane
  split
  · exact h
  next x hx =>
    refine Kept.raise ?_ _
    have hsent := (h.same ((Same.refl t).sendCrane a .stop)).withdrawStaged false a
    refine (hsent.jobsSettled a x.crane).adjust (((SameStock.refl _).modCrane a _).setService a _) (State.forfeited_aisles _ a)
      fun y hy _ => ⟨⟨Crane.sound_of_jobless nofun rfl rfl rfl rfl rfl fun _ => rfl, iff_of_true rfl rfl⟩, rfl, fun j hj hk => ?_⟩
    obtain ⟨z, hz, hcrane, -⟩ := State.jobsSettled_look hy
    obtain ⟨w, hw, rfl⟩ := State.withdrawStaged_look hz
    obtain rfl := Option.some.inj (hx.symm.trans hw)
    rw [Aisle.unstaged_crane] at hcrane
    rw [Aisle.mem_jobs, hcrane] at hj
    have hprovided : (x.crane.active = some j ∨ ∃ r, x.crane.suspension = some r ∧ r.job = j) →
        j ∈ y.forfeited.jobs ∨ State.Freed _ j := fun hj =>
      (State.provided_jobsSettled hk hj).imp_left fun hq => Aisle.mem_jobs.2 (.inl (hq y hy))
    rcases hj with hj | hj | hj
    · exact .inl (Aisle.mem_jobs.2 (.inl hj))
    · cases hj
    · exact hprovided hj

theorem Kept.loseIdleOutOfService (h : Kept s t)
    (ho : ∀ x, t.aisles.look a = some x → x.crane.state = .outOfService) : Kept s (t.loseIdleOutOfService a) := by
  refine Kept.raise (Kept.modAisle_safe (a := a) h fun x hx hs => ?_) _
  have hlost : x.crane.state.lost = true := by rw [ho x hx]; rfl
  have hactive := hs.crane.resting (.inr hlost)
  have hp : x.crane.phase = none := by simpa [hactive] using hs.crane.phase
  have hd : x.crane.deadline = none := by simpa [hactive] using hs.crane.deadline
  exact ⟨⟨Crane.sound_of_jobless nofun hactive (hs.crane.staged (by rw [ho x hx]; decide)) hp hd (hs.crane.retry hactive)
    fun _ => hs.crane.lost hlost, iff_of_true (hs.service.2 hlost) rfl⟩, rfl, fun _ hk _ => .inl hk⟩

end

end Sys2Proof.Machine
end

section
/-! The resolution of suspension records, the completion of a restoration, and the pass at the end of a command keep the
laws. A load that no job accounts for ends a service, which is sound only of a crane that holds no job: the restored zone
has no crane that parks or stops, and so none with a job beside its record. -/
namespace Sys2Proof.Machine

/-- What an operation keeps, whether or not the crane records are sound. -/
structure Frugal (s t : State) : Prop where
  mode : t.mode = s.mode
  stock : s.mode = .inService → Stock s → Stock t
  unpending : ∀ n, s.Unpending n → t.Unpending n

/-- No crane takes a state but OUT_OF_SERVICE, and none takes a record. -/
def State.Settles (s t : State) : Prop :=
  ∀ b y, t.aisles.look b = some y → ∃ x, s.aisles.look b = some x ∧ y.geom = x.geom
    ∧ (y.crane.state = x.crane.state ∨ y.crane.state = .outOfService)

section
variable {s t u : State} {a n : Nat} {x : Aisle} {j : Job}

/-! ### Frugal operations -/

theorem Kept.frugal (h : Kept s t) : Frugal s t := ⟨h.mode, h.stock, h.unpending⟩

theorem Frugal.trans (h : Frugal s t) (k : Frugal t u) : Frugal s u :=
  ⟨k.mode.trans h.mode, fun hm hs => k.stock (h.mode.trans hm) (h.stock hm hs), fun n hn => k.unpending n (h.unpending n hn)⟩

theorem SameStock.frugal (h : SameStock s t) : Frugal s t :=
  ⟨h.mode, fun _ hs => { h.same.stock hs with }, fun _ hn => h.same.wing.unpending hn⟩

theorem Frugal.foldl {β : Type} (h : Frugal s t) (l : List β) (f : State → β → State) (hf : ∀ u i, Frugal s u → Frugal s (f u i)) :
    Frugal s (l.foldl f t) := by
  induction l generalizing t with
  | nil => exact h
  | cons i l ih => exact ih (hf t i h)

/-- An operation that keeps the laws of sound crane records, and the rest of the laws of any, keeps the laws. -/
theorem Kept.assuming (hf : Frugal s t) (hk : s.mode = .inService → Cranes s → Kept s t) : Kept s t where
  mode := hf.mode
  cranes := fun hm hc => (hk hm hc).cranes hm hc
  homes := fun hm hc => (hk hm hc).homes hm hc
  stock := hf.stock
  unpending := hf.unpending

/-! ### A load that no job accounts for (R78) -/

theorem Kept.unaccountedLoad (h : Kept s t)
    (hfree : ∀ x, t.aisles.look a = some x → x.crane.active = none ∧ x.crane.suspension = none) (n : Nat) :
    Kept s (t.unaccountedLoad a n) := by
  have hjudged := (h.judgeRead n).same ((Same.refl _).unexpectedBin n none)
  refine hjudged.adjust (((SameStock.refl _).modCrane a _).takeOut a) ((State.takeOut_aisles _ a).trans (Table.adjust_adjust _ _ _ _))
    fun y hy hs => ?_
  have hy' : t.aisles.look a = some y := by
    rw [show t.aisles = ((t.judgeRead n).unexpectedBin n none).aisles from ((SameWing.refl t).judgeRead n).aisles.symm]
    exact hy
  obtain ⟨hactive, hrec⟩ := hfree y hy'
  have hsound := hs.hands_retired hactive hrec
  exact (Aisle.Hands.mk (y := { y with service := .outOfService, crane := { y.crane with state := .outOfService, stopWait := none } })
    ⟨hsound.sound.crane.alike rfl rfl rfl rfl rfl rfl fun h => hs.crane.retry h, hsound.sound.service⟩ rfl fun k hk _ => .inl hk)

/-! ### A record is dropped (R174) -/

theorem Crane.Sound.dropRecord {c : Crane} (h : c.Sound) : ({ c with suspension := none } : Crane).Sound where
  busy := fun hb => ⟨(h.busy hb).1, rfl⟩
  staged := h.staged
  resting := h.resting
  lost := fun _ => rfl
  phase := h.phase
  deadline := h.deadline
  retry := h.retry
  beside := fun _ _ hr => by cases hr

theorem Aisle.mem_jobs_dropRecord {r : Suspension} (hr : x.crane.suspension = some r) (hj : j ∈ x.jobs) :
    j ∈ ({ x with crane := { x.crane with suspension := none } } : Aisle).jobs ∨ j = r.job := by
  rw [Aisle.mem_jobs] at hj ⊢
  rcases hj with hj | hj | hj | ⟨r', hr', rfl⟩
  · exact .inl (.inl hj)
  · exact .inl (.inr (.inl hj))
  · exact .inl (.inr (.inr (.inl hj)))
  · exact .inr (by rw [Option.some.inj (hr.symm.trans hr')])

/-- The job of a record goes back to its queue. -/
theorem Kept.recordReturned (h : Kept s t) {r : Suspension} (hx : t.aisles.look a = some x) (hr : x.crane.suspension = some r) :
    Kept s ((t.dropRecord a).returnJob a r.job) := by
  refine h.adjust { SameStock.refl t with } (Table.adjust_adjust _ _ _ _) fun y hy hs => ?_
  obtain rfl := Option.some.inj (hx.symm.trans hy)
  refine ⟨⟨hs.crane.dropRecord, hs.service⟩, rfl, fun j hj _ => .inl ?_⟩
  rcases Aisle.mem_jobs_dropRecord hr hj with hj | rfl
  · rw [Aisle.mem_jobs] at hj ⊢
    exact hj.imp_left fun h => mem_rejoinQueue.2 (.inr h)
  · exact Aisle.mem_jobs.2 (.inl (mem_rejoinQueue.2 (.inl rfl)))

/-- The job of a record is dropped. -/
theorem Kept.recordDropped (h : Kept s t) {r : Suspension} (hx : t.aisles.look a = some x) (hr : x.crane.suspension = some r) :
    Kept s ((t.dropRecord a).dropJob r.job) :=
  h.drop fun y hy hs => by
    obtain rfl := Option.some.inj (hx.symm.trans hy)
    exact ⟨⟨hs.crane.dropRecord, hs.service⟩, rfl, fun j hj _ => Aisle.mem_jobs_dropRecord hr hj⟩

theorem Kept.recordAudited (h : Kept s t) {r : Suspension} (hx : t.aisles.look a = some x) (hr : x.crane.suspension = some r) :
    Kept s ((t.dropRecord a).dropAndAudit a r.job) := by
  have hdrop := h.recordDropped hx hr
  unfold State.dropAndAudit
  split
  next hb =>
    have : (t.dropRecord a).dropJob r.job = t.dropRecord a := by simp only [State.dropJob, hb]
    exact this ▸ hdrop
  · dsimp only
    split
    · exact hdrop
    · exact hdrop.addJob _ _

theorem State.dropRecord_look (hx : t.aisles.look a = some x) :
    (t.dropRecord a).aisles.look a = some { x with crane := { x.crane with suspension := none } } := by
  simp [State.dropRecord, State.modCrane, hx]

theorem Kept.resolveRecord (h : Kept s t)
    (hrest : ∀ x, t.aisles.look a = some x → x.crane.suspension ≠ none → x.crane.active = none) : Kept s (t.resolveRecord a) := by
  unfold State.resolveRecord
  split
  · exact h
  next x hx =>
    split
    · exact h
    next r hr =>
      have hactive : x.crane.active = none := hrest x hx (by rw [hr]; nofun)
      have hback := h.recordReturned hx hr
      split
      · exact h
      · split
        · exact hback.endDraining a
        · split
          · exact hback.endDraining a
          · exact (h.recordAudited hx hr).endDraining a
      next n _ =>
        split
        · exact h
        · split
          · refine hback.unaccountedLoad (fun y hy => ?_) n
            rw [State.returnJob, State.modAisle_aisles, Table.look_adjust_same, State.dropRecord_look hx] at hy
            obtain rfl := Option.some.inj hy
            exact ⟨hactive, rfl⟩
          · refine (h.recordDropped hx hr).unaccountedLoad (fun y hy => ?_) n
            rw [State.dropJob_aisles, State.dropRecord_look hx] at hy
            obtain rfl := Option.some.inj hy
            exact ⟨hactive, rfl⟩

/-! ### What a resolution does of any crane record -/

theorem Frugal.unaccountedLoad (h : Frugal s t) (a n : Nat) : Frugal s (t.unaccountedLoad a n) :=
  h.trans ((((Kept.refl t).judgeRead n).same ((Same.refl _).unexpectedBin n none)).frugal.trans
    (((SameStock.refl _).modCrane a _).takeOut a).frugal)

theorem Frugal.resolveRecord (h : Frugal s t) (a : Nat) : Frugal s (t.resolveRecord a) := by
  unfold State.resolveRecord
  split
  · exact h
  next x hx =>
    split
    · exact h
    next r hr =>
      have hback := h.trans (((Kept.refl t).recordReturned hx hr).frugal)
      split
      · exact h
      · split
        · exact hback.trans ((Kept.refl _).endDraining a).frugal
        · split
          · exact hback.trans ((Kept.refl _).endDraining a).frugal
          · exact h.trans (((Kept.refl t).recordAudited hx hr).endDraining a).frugal
      · split
        · exact h
        · split
          · exact hback.unaccountedLoad a _
          · exact (h.trans ((Kept.refl t).recordDropped hx hr).frugal).unaccountedLoad a _

theorem State.Settles.refl (s : State) : s.Settles s := fun _ y hy => ⟨y, hy, rfl, .inl rfl⟩

theorem State.Settles.trans (h : s.Settles t) (k : t.Settles u) : s.Settles u := fun b z hz => by
  obtain ⟨y, hy, hgeom, hyz⟩ := k b z hz
  obtain ⟨x, hx, hgeom', hxy⟩ := h b y hy
  exact ⟨x, hx, hgeom.trans hgeom', hyz.elim (fun he => he ▸ hxy) .inr⟩

theorem State.Settles.adjust {f : Aisle → Aisle} (h : s.Settles t) (ha : u.aisles = t.aisles.adjust a f)
    (hf : ∀ x, (f x).geom = x.geom ∧ ((f x).crane.state = x.crane.state ∨ (f x).crane.state = .outOfService)) : s.Settles u :=
  h.trans fun b y hy => by
    rw [ha, Table.look_adjust] at hy
    split at hy
    next hb =>
      obtain ⟨x, hx, rfl⟩ := Option.map_eq_some_iff.1 hy
      exact ⟨x, hb ▸ hx, (hf x).1, (hf x).2⟩
    · exact ⟨y, hy, rfl, .inl rfl⟩

theorem State.Settles.same (h : s.Settles t) (ha : u.aisles = t.aisles) : s.Settles u := fun b y hy => h b y (ha ▸ hy)

theorem State.Settles.takeOut (h : s.Settles t) (a : Nat) : s.Settles (t.takeOut a) :=
  h.adjust (State.takeOut_aisles t a) fun _ => ⟨rfl, .inr rfl⟩

theorem State.Settles.endDraining (h : s.Settles t) (a : Nat) : s.Settles (t.endDraining a) := by
  unfold State.endDraining
  split
  · exact h
  · split
    · exact h.takeOut a
    · exact h

theorem State.Settles.unaccountedLoad (h : s.Settles t) (a n : Nat) : s.Settles (t.unaccountedLoad a n) := by
  have hjudged : s.Settles ((t.judgeRead n).unexpectedBin n none) := h.same ((SameWing.refl t).judgeRead n).aisles
  exact (hjudged.adjust (f := fun x => { x with crane := { x.crane with stopWait := none } }) rfl fun _ => ⟨rfl, .inl rfl⟩).takeOut a

theorem State.Settles.resolveRecord (h : s.Settles t) (a : Nat) : s.Settles (t.resolveRecord a) := by
  have hdrop : s.Settles (t.dropRecord a) := h.adjust rfl fun _ => ⟨rfl, .inl rfl⟩
  have hback : ∀ j, s.Settles ((t.dropRecord a).returnJob a j) := fun j => hdrop.adjust rfl fun _ => ⟨rfl, .inl rfl⟩
  have hlost : ∀ j, s.Settles ((t.dropRecord a).dropJob j) := fun j => hdrop.same (State.dropJob_aisles _ j)
  unfold State.resolveRecord
  split
  · exact h
  · split
    · exact h
    · split
      · exact h
      · split
        · exact (hback _).endDraining a
        · split
          · exact (hback _).endDraining a
          · refine State.Settles.endDraining ?_ a
            unfold State.dropAndAudit
            split
            · exact hdrop
            · dsimp only
              split
              · exact hlost _
              · exact (hlost _).adjust rfl fun _ => ⟨rfl, .inl rfl⟩
      · split
        · exact h
        · split
          · exact (hback _).unaccountedLoad a _
          · exact (hlost _).unaccountedLoad a _

/-! ### Restoration is complete (R172) -/

/-- A crane that neither parks nor stops nor is stopped holds no job beside a record. -/
theorem Crane.Sound.alone {c : Crane} (h : c.Sound) (hp : c.state ≠ .parking) (hs : c.state ≠ .stopping) (ht : c.state ≠ .stopped)
    (hr : c.suspension ≠ none) : c.active = none := by
  refine h.resting ?_
  cases hstate : c.state
  case busy => exact absurd (h.busy hstate).2 hr
  case parking | stopping | stopped => contradiction
  case idle => exact .inl rfl
  case faulted | outOfService => exact .inr rfl

/-- No crane of the listed aisles parks, stops or is stopped. -/
def State.Parked (s : State) (l : List Nat) : Prop :=
  ∀ a ∈ l, ∀ x, s.aisles.look a = some x → x.crane.state ≠ .parking ∧ x.crane.state ≠ .stopping ∧ x.crane.state ≠ .stopped

theorem State.Parked.settles {l : List Nat} (h : s.Parked l) (k : s.Settles t) : t.Parked l := fun a ha y hy => by
  obtain ⟨x, hx, -, hstate⟩ := k a y hy
  rcases hstate with he | he <;> rw [he]
  · exact h a ha x hx
  · exact ⟨nofun, nofun, nofun⟩

theorem Kept.resolveRecords {l : List Nat} (hm : s.mode = .inService) (hc : Cranes s) (h : Kept s t) (hp : t.Parked l) :
    Kept s (l.foldl State.resolveRecord t) := by
  induction l generalizing t with
  | nil => exact h
  | cons a l ih =>
    refine ih (h.resolveRecord fun x hx hr => ?_) fun b hb x hx =>
      (hp.settles ((State.Settles.refl t).resolveRecord a)) b (.tail _ hb) x hx
    obtain ⟨h1, h2, h3⟩ := hp a (.head _) x hx
    exact ((h.cranes hm hc).sound a x hx).crane.alone h1 h2 h3 hr

theorem Same.resumeStations (h : Same s t) (l : List Nat) : Same s (l.foldl State.resumeStation t) :=
  h.foldl _ _ fun _ n h => h.resumeStation n

theorem Kept.normalActions (h : Kept s t) (z : Nat) (hp : t.mode = .inService → Cranes t → t.Parked (t.aislesOf z)) :
    Kept s (t.normalActions z) := by
  have hsame := (Same.refl t).resumeStations (t.stationsOf z)
  refine h.trans (Kept.assuming ?_ fun hm hc => ?_)
  · exact hsame.kept.frugal.foldl _ _ fun _ a h => h.resolveRecord a
  · refine hsame.kept.resolveRecords hm hc fun a ha x hx => hp hm hc a ha x ?_
    rw [← hsame.aisles]
    exact hx

theorem State.parked_of_restored {z : Nat} (hw : s.aisles.wf = true) (h : s.restoredCondition z = true) : s.Parked (s.aislesOf z) := by
  unfold State.restoredCondition at h
  rw [Bool.and_eq_true, Table.all_iff_look hw] at h
  intro a ha x hx
  have hzone : x.geom.zone = z := by
    have := (Table.mem_select hw (p := fun y : Aisle => decide (y.geom.zone = z)) (Table.mem_of_look hx)).1 ha
    simpa using this
  have := h.2 a x hx
  cases hstate : x.crane.state <;> simp_all

theorem Kept.completeRestoration (h : Kept s t) {z : Nat} (hr : t.restoredCondition z = true) : Kept s (t.completeRestoration z) := by
  have hparked : ∀ u : State, u.aisles = t.aisles → u.mode = .inService → Cranes u → u.Parked (u.aislesOf z) := fun u ha _ hc => by
    have hp := State.parked_of_restored (ha ▸ hc.wf) hr
    unfold State.Parked State.aislesOf at *
    rw [ha]
    exact hp
  have hnormal : Same t (t.setZoneState z .normal) := (Same.refl t).setZoneState z _
  unfold State.completeRestoration
  dsimp only
  split
  · exact ((h.same (hnormal.turnAlert z)).normalActions z (hparked _ (hnormal.turnAlert z).aisles)).same ((Same.refl _).reportZone z _)
  · exact (h.same hnormal).normalActions z (hparked _ hnormal.aisles)

theorem Kept.judgeZone (h : Kept s t) (z : Nat) : Kept s (t.judgeZone z) := by
  unfold State.judgeZone
  split
  · split
    · exact h.same ((Same.refl t).setZoneState z _)
    · exact h
  · split
    next hr => exact h.completeRestoration hr
    · exact h
  · exact h

theorem Kept.judgeZones (h : Kept s t) : Kept s t.judgeZones := h.foldl _ _ fun _ z h => h.judgeZone z

/-- The pass at the end of a command. -/
theorem Kept.settleWing (h : Kept s t) : Kept s t.settleWing := h.judgeZones.withdrawAll.lookAll

end

end Sys2Proof.Machine
end

section
/-! The telegrams of a crane keep the laws. -/
namespace Sys2Proof.Machine

/-- The crane records stand. -/
def State.Steady (s t : State) : Prop := ∀ b y, t.aisles.look b = some y → ∃ x, s.aisles.look b = some x ∧ y.crane = x.crane

section
variable {s t u : State} {a n : Nat} {x : Aisle} {j : Job} {p : Phase} {r : Reading}

/-! ### Operations under which the crane records stand -/

theorem State.Steady.refl (s : State) : s.Steady s := fun _ y hy => ⟨y, hy, rfl⟩

theorem State.Steady.same (h : s.Steady t) (ha : u.aisles = t.aisles) : s.Steady u := fun b y hy => h b y (ha ▸ hy)

theorem State.Steady.addJob (h : s.Steady t) (a : Nat) (mk : Nat → Job) : s.Steady (t.addJob a mk) := fun b y hy => by
  have ha : (t.addJob a mk).aisles = t.aisles.adjust a fun x => { x with queue := joinQueue x.queue (mk t.jobTag) } := rfl
  rw [ha, Table.look_adjust] at hy
  split at hy
  next hb =>
    obtain ⟨z, hz, rfl⟩ := Option.map_eq_some_iff.1 hy
    exact h b z (hb ▸ hz)
  · exact h b y hy

theorem State.Steady.callBin (h : s.Steady t) (n st : Nat) (q : Purpose) : s.Steady (t.callBin n st q) := by
  unfold State.callBin
  split
  · exact h
  · exact (h.addJob _ _).same rfl

theorem State.Steady.followOn (h : s.Steady t) (n : Nat) : s.Steady (t.followOn n) := by
  unfold State.followOn
  split
  · exact h
  · dsimp only
    have k : s.Steady (t.modBin n fun b => { b with next := none }) := h.same rfl
    split
    · exact k.callBin _ _ _
    · split
      · exact k.callBin _ _ _
      · exact k

theorem State.Steady.binStored (h : s.Steady t) (n : Nat) : s.Steady (t.binStored n) :=
  State.Steady.followOn (h.same (((Same.refl t).setBinState n .stored).report _ _ _).aisles) n

/-! ### The end of a job whose bin is settled -/

theorem Kept.endJobOf (h : Kept s t) (hx : s.aisles.look a = some x) (hj : x.crane.active = some j) (hs : s.Steady t)
    (hfree : j.kind = .transfer → t.Freed j) (p : Point) : Kept s (t.endJob a p) :=
  h.endJob (fun y k hy hk hkt => by
    obtain ⟨x', hx', hcrane⟩ := hs a y hy
    obtain rfl := Option.some.inj (hx.symm.trans hx')
    obtain rfl := Option.some.inj (hj.symm.trans (hcrane ▸ hk))
    exact hfree hkt) p

/-! ### PHASE (R66) -/

theorem Kept.judgePhase (h : Kept s t) (hx : t.aisles.look a = some x) (hj : x.crane.active = some j) (c : Crane) :
    Kept s (t.judgePhase a c j p) := by
  have hphase : Kept s (t.modCrane a fun c => { c with phase := some p }) := h.modAisle_safe fun y hy hs => by
    obtain rfl := Option.some.inj (hx.symm.trans hy)
    have hp := hs.crane.phase
    rw [hj] at hp
    exact ⟨⟨hs.crane.alike rfl rfl rfl rfl hp.symm rfl hs.crane.retry, hs.service⟩, rfl, fun _ hk _ => .inl hk⟩
  exact .ite (.ite (hphase.same ((Same.refl _).liftBin j)) hphase) (h.same ((Same.refl t).fieldProtocol _ _))

theorem Kept.takePhase (p : Phase) (bay level : Nat) (s : State) (a : Nat) : Kept s (s.takePhase p bay level a) := by
  unfold State.takePhase
  split
  · exact .refl s
  next x hx =>
    have hmoved : Kept s (s.modCrane a fun c => { c with position := some (clampPoint x.geom bay level) }) :=
      (Kept.refl s).modAisle_safe fun y _ hs =>
        ⟨⟨hs.crane.alike rfl rfl rfl rfl rfl rfl hs.crane.retry, hs.service⟩, rfl, fun _ hk _ => .inl hk⟩
    dsimp only
    split
    · exact hmoved
    next j hj =>
      refine .ite hmoved (hmoved.judgePhase (x := { x with crane := { x.crane with position := some (clampPoint x.geom bay level) } }) ?_ hj _)
      simp [State.modCrane, hx]

/-! ### DONE (R67) -/

theorem State.settleDone_spec (h : Kept s t) (hs : s.Steady t) (j : Job) (left : Nat) :
    Kept s (t.settleDone j left) ∧ s.Steady (t.settleDone j left) ∧ (j.kind = .transfer → (t.settleDone j left).Freed j) := by
  unfold State.settleDone
  split
  next hn => exact ⟨h, hs, fun _ n hn' => by rw [hn] at hn'; cases hn'⟩
  next n hn =>
    split
    case h_1 hk =>
      refine ⟨?_, ?_, fun hk' => by rw [hk] at hk'; cases hk'⟩
      · split
        · exact h
        · exact h.same ((Same.refl t).retrieveDone _ _ _)
      · split
        · exact hs
        · exact hs.same ((Same.refl t).retrieveDone _ _ _).aisles
    case h_2 hk =>
      refine ⟨.ite h (h.binStored n), ?_, fun hk' => by rw [hk] at hk'; cases hk'⟩
      split
      · exact hs
      · exact hs.binStored n
    case h_3 hk =>
      have hmoved : (t.modBin n Bin.moveHome).Unpending n := State.unpending_modBin fun _ => rfl
      have hfreed : ∀ {v : State}, v.Unpending n → v.Freed j := fun hv m hm => by
        obtain rfl := Option.some.inj (hn.symm.trans hm)
        exact hv
      have hsteady : s.Steady (t.modBin n Bin.moveHome) := hs.same rfl
      dsimp only
      split
      · exact ⟨h.moveHome n, hsteady, fun _ => hfreed hmoved⟩
      · exact ⟨(h.moveHome n).binStored n, hsteady.binStored n, fun _ => hfreed (((Kept.refl _).binStored n).unpending n hmoved)⟩
    case h_4 hk | h_5 hk => exact ⟨h, hs, fun hk' => by rw [hk] at hk'; cases hk'⟩

theorem Kept.takeDone (s : State) (a : Nat) : Kept s (s.takeDone a) := by
  unfold State.takeDone
  split
  · exact .refl s
  next x hx =>
    refine .ite (.refl s) ?_
    split
    · exact (Kept.refl s).same ((Same.refl s).fieldProtocol _ _)
    next j hj =>
      have hlift := (Same.refl s).liftBin j
      obtain ⟨h1, h2, h3⟩ := State.settleDone_spec hlift.kept ((State.Steady.refl s).same hlift.aisles) j x.crane.left
      exact .ite (h1.endJobOf hx hj h2 h3 _).settleWing ((Kept.refl s).same ((Same.refl s).fieldProtocol _ _))

/-! ### PICK_FAILED (R70, R71) -/

theorem State.settleAbandon_spec (h : Kept s t) (j : Job) (reason : PickReason) :
    Kept s (t.settleAbandon j reason) ∧ (t.settleAbandon j reason).aisles = t.aisles
      ∧ (j.kind = .transfer → (t.settleAbandon j reason).Freed j) := by
  unfold State.settleAbandon
  split
  next hn => exact ⟨h, rfl, fun _ n hn' => by rw [hn] at hn'; cases hn'⟩
  next n hn =>
    split
    case h_1 hk =>
      refine ⟨.ite h ((h.same ((Same.refl t).clearTrip n)).enterLoss n _ _), ?_, fun hk' => by rw [hk] at hk'; cases hk'⟩
      split
      · rfl
      · exact State.enterLoss_aisles _ n _ _
    case h_2 hk =>
      have hclear : (t.clearPending n).Unpending n := State.unpending_modBin fun _ => rfl
      have hfreed : ∀ {v : State}, v.Unpending n → v.Freed j := fun hv m hm => by
        obtain rfl := Option.some.inj (hn.symm.trans hm)
        exact hv
      dsimp only
      split
      · exact ⟨h.clearPending n, rfl, fun _ => hfreed hclear⟩
      · exact ⟨(h.clearPending n).enterLoss n _ _, State.enterLoss_aisles _ n _ _,
          fun _ => hfreed (((Kept.refl _).enterLoss n _ _).unpending n hclear)⟩
    case h_3 hk =>
      refine ⟨.ite h (h.enterLoss n _ _), ?_, fun hk' => by rw [hk] at hk'; cases hk'⟩
      split
      · rfl
      · exact State.enterLoss_aisles _ n _ _
    case h_4 hk | h_5 hk => exact ⟨h, rfl, fun hk' => by rw [hk] at hk'; cases hk'⟩

theorem Kept.abandon (hx : s.aisles.look a = some x) (hj : x.crane.active = some j) (reason : PickReason) :
    Kept s (s.abandon a j reason) := by
  have hsent := (Same.refl s).sendCrane a (.abandon j.tag)
  obtain ⟨h1, h2, h3⟩ := State.settleAbandon_spec hsent.kept j reason
  exact (h1.endJobOf hx hj ((State.Steady.refl s).same (h2.trans hsent.aisles)) h3 _).settleWing

theorem Kept.retryPick (hx : s.aisles.look a = some x) (hj : x.crane.active = some j) (g : Geometry) (o : Int × Int) :
    Kept s (s.retryPick a g o) := by
  refine Kept.same (Kept.modAisle_safe (a := a) (.refl s) fun y hy hs => ?_) ((Same.refl _).sendCrane _ _)
  obtain rfl := Option.some.inj (hx.symm.trans hy)
  have hp := hs.crane.phase
  rw [hj] at hp
  exact ⟨⟨hs.crane.alike rfl rfl rfl rfl hp.symm (by simp) (fun h => by rw [hj] at h; cases h), hs.service⟩, rfl,
    fun _ hk _ => .inl hk⟩

theorem Kept.takePickFailed (reason : PickReason) (s : State) (a : Nat) : Kept s (s.takePickFailed reason a) := by
  have hout := (Kept.refl s).same ((Same.refl s).fieldProtocol (.aisle a) (some (.number 3)))
  unfold State.takePickFailed
  split
  · exact .refl s
  next x hx =>
    refine .ite (.refl s) ?_
    split
    · exact hout
    next j hj =>
      refine .ite ?_ hout
      split
      · exact .retryPick hx hj _ _
      · exact .abandon hx hj reason

/-! ### AUDIT_RESULT (R72) -/

theorem State.settleAuditJob_spec (s : State) (j : Job) (r : Reading) :
    Kept s (s.settleAuditJob j r) ∧ s.Steady (s.settleAuditJob j r) := by
  have hself := State.Steady.refl s
  have hloss : ∀ n, Kept s (if s.inLane n then s else s.enterLoss n .missing none)
      ∧ (if s.inLane n then s else s.enterLoss n .missing none).aisles = s.aisles := fun n => by
    refine ⟨.ite (.refl s) ((Kept.refl s).enterLoss n _ _), ?_⟩
    split
    · rfl
    · exact State.enterLoss_aisles s n _ _
  unfold State.settleAuditJob
  split
  · exact ⟨.refl s, hself⟩
  next n _ =>
    unfold State.settleAudit
    split
    · exact ⟨(hloss n).1, hself.same (hloss n).2⟩
    next m =>
      split
      · refine ⟨.ite (.refl s) ((Kept.refl s).binStored n), ?_⟩
        split
        · exact hself
        · exact hself.binStored n
      · obtain ⟨hk, ha⟩ := hloss n
        exact ⟨(hk.judgeRead m).same ((Same.refl _).unexpectedBin m none),
          hself.same (((SameWing.refl _).judgeRead m).aisles.trans ha)⟩

theorem Kept.takeAuditResult (r : Reading) (s : State) (a : Nat) : Kept s (s.takeAuditResult r a) := by
  have hout := (Kept.refl s).same ((Same.refl s).fieldProtocol (.aisle a) (some (.number 4)))
  unfold State.takeAuditResult
  split
  · exact .refl s
  next x hx =>
    refine .ite (.refl s) ?_
    split
    · exact hout
    next j hj =>
      split
      next hc =>
        rw [Bool.and_eq_true, decide_eq_true_eq] at hc
        obtain ⟨h1, h2⟩ := State.settleAuditJob_spec s j r
        exact (h1.endJobOf hx hj h2 (fun hk => by rw [hc.2] at hk; cases hk) _).settleWing
      · exact hout

/-! ### STOPPED (R161) -/

theorem Aisle.Sound.hands_stop (hs : x.Sound) (hstop : x.crane.state = .stopping) (shut : Bool) (p : Phase) (load forks : Bool) :
    x.Hands nothing { x with crane := x.crane.stop shut p load forks } := by
  have hb : x.crane.state ≠ .busy := by rw [hstop]; decide
  have hstaged := hs.crane.staged hb
  have hlost : x.crane.state.lost = false := by rw [hstop]; rfl
  have hservice : x.service = .outOfService ↔ CraneState.stopped.lost = true := iff_of_false (hs.not_out hlost) (by decide)
  cases hj : x.crane.active with
  | none =>
    have hc : x.crane.stop shut p load forks = { x.crane with state := .stopped, stopWait := none } := by
      simp only [Crane.stop, hj]
    have hp : x.crane.phase = none := by simpa [hj] using hs.crane.phase
    have hd : x.crane.deadline = none := by simpa [hj] using hs.crane.deadline
    rw [hc]
    exact ⟨⟨Crane.sound_of_jobless nofun hj hstaged hp hd (hs.crane.retry hj) nofun, hservice⟩, rfl, fun _ hk _ => .inl hk⟩
  | some j =>
    by_cases hpark : j.kind = .park
    · have hc : x.crane.stop shut p load forks = { x.crane.clearJob with state := .stopped, stopWait := none } := by
        simp only [Crane.stop, hj, if_pos hpark]
      rw [hc]
      refine ⟨⟨Crane.sound_of_jobless nofun rfl hstaged rfl rfl rfl nofun, hservice⟩, rfl, fun k hk hkt => .inl ?_⟩
      rw [Aisle.mem_jobs] at hk ⊢
      refine hk.imp_right fun h => h.imp_right fun h => h.imp_left fun h => ?_
      obtain rfl := Option.some.inj (hj.symm.trans h)
      rw [hpark] at hkt
      cases hkt
    · have hrec : x.crane.suspension = none := by
        by_contra hne
        obtain ⟨r, hr⟩ := Option.ne_none_iff_exists'.1 hne
        exact hpark (hs.crane.beside r j hr hj).1
      cases shut
      · have hc : x.crane.stop false p load forks =
            { x.crane with state := .stopped, deadline := x.crane.deadline.map Deadline.pause, stopWait := none } := by
          simp only [Crane.stop, Crane.freeze, hj, if_neg hpark, Bool.false_eq_true, if_false]
        rw [hc]
        exact ⟨⟨⟨nofun, fun _ => hstaged, (fun h => by rcases h with h | h <;> cases h), nofun, hs.crane.phase,
          (Option.isSome_map ..).trans hs.crane.deadline, hs.crane.retry,
          (fun r k hr => by rw [show x.crane.suspension = some r from hr] at hrec; cases hrec)⟩, hservice⟩, rfl, fun _ hk _ => .inl hk⟩
      · have hc : x.crane.stop true p load forks =
            { x.crane.clearJob with state := .stopped, stopWait := none, suspension := some (stopRecord x.crane j p load forks) } := by
          simp only [Crane.stop, hj, if_neg hpark, if_true]
        rw [hc]
        refine ⟨⟨Crane.sound_of_jobless nofun rfl hstaged rfl rfl rfl nofun, hservice⟩, rfl, fun k hk _ => .inl ?_⟩
        rw [Aisle.mem_jobs, hj, hrec] at hk
        rw [Aisle.mem_jobs]
        rcases hk with hk | hk | hk | ⟨r, hr, -⟩
        · exact .inl hk
        · exact .inr (.inl hk)
        · exact .inr (.inr (.inr ⟨_, rfl, Option.some.inj hk⟩))
        · cases hr

theorem Kept.takeStopped (p : Phase) (load forks : Bool) (s : State) (a : Nat) : Kept s (s.takeStopped p load forks a) := by
  unfold State.takeStopped
  split
  · exact .refl s
  next x hx =>
    split
    case h_1 | h_2 | h_3 => exact .refl s
    case h_4 | h_5 | h_6 => exact (Kept.refl s).same ((Same.refl s).fieldProtocol _ _)
    case h_7 hstop =>
      refine Kept.settleWing (.ite (Kept.parkStopped (Kept.endDraining (Kept.modAisle_safe (a := a) (.refl s) fun y hy hs => ?_) a) a)
        (Kept.endDraining (Kept.modAisle_safe (a := a) (.refl s) fun y hy hs => ?_) a))
      · obtain rfl := Option.some.inj (hx.symm.trans hy)
        exact hs.hands_stop hstop _ _ _ _
      · obtain rfl := Option.some.inj (hx.symm.trans hy)
        exact hs.hands_stop hstop _ _ _ _

/-! ### PARKED (R78, R79) -/

theorem Aisle.mem_jobs_parked {d : Crane} (hd : d.staged = x.crane.staged)
    (hrec : ∀ r, x.crane.suspension = some r → ∃ q, d.suspension = some q ∧ q.job = r.job) (hj : x.crane.active = some j)
    (hpark : j.kind = .park) {k : Job} (hk : k ∈ x.jobs) (hkt : k.kind = .transfer) : k ∈ ({ x with crane := d } : Aisle).jobs := by
  rw [Aisle.mem_jobs] at hk ⊢
  rcases hk with hk | hk | hk | ⟨r, hr, rfl⟩
  · exact .inl hk
  · exact .inr (.inl (hd.trans hk))
  · obtain rfl := Option.some.inj (hj.symm.trans hk)
    rw [hpark] at hkt
    cases hkt
  · exact .inr (.inr (.inr (hrec r hr)))

theorem Aisle.Sound.hands_parkEnded (hs : x.Sound) (hb : x.crane.state ≠ .busy) (hlost : x.crane.state.lost = false)
    (hj : x.crane.active = some j) (hpark : j.kind = .park) {d : Crane}
    (hstate : d.state ≠ .busy) (hkept : d.state.lost = false) (ha : d.active = none) (hst : d.staged = x.crane.staged)
    (hp : d.phase = none) (hd : d.deadline = none) (hr : d.retryIndex = 0)
    (hrec : ∀ r, x.crane.suspension = some r → ∃ q, d.suspension = some q ∧ q.job = r.job) :
    x.Hands nothing { x with crane := d } :=
  ⟨⟨Crane.sound_of_jobless hstate ha (hst.trans (hs.crane.staged hb)) hp hd hr (fun h => by rw [hkept] at h; cases h),
    iff_of_false (hs.not_out hlost) (by rw [hkept]; nofun)⟩, rfl,
    fun _ hk hkt => .inl (Aisle.mem_jobs_parked hst hrec hj hpark hk hkt)⟩

theorem Kept.parkEnds (hx : s.aisles.look a = some x) (hstate : x.crane.state = .parking) (hj : x.crane.active = some j)
    (hpark : j.kind = .park) (r : Reading) : Kept s (s.parkEnds a x r) := by
  have hb : x.crane.state ≠ .busy := by rw [hstate]; decide
  have hlost : x.crane.state.lost = false := by rw [hstate]; rfl
  have hidle : Kept s (s.modCrane a fun c => { c.endPark with state := .idle }) := (Kept.refl s).modAisle_safe fun y hy hs => by
    obtain rfl := Option.some.inj (hx.symm.trans hy)
    exact hs.hands_parkEnded hb hlost hj hpark nofun rfl rfl rfl rfl rfl rfl fun r hr => ⟨r, hr, rfl⟩
  have hlook : (s.modCrane a fun c => { c.endPark with state := .idle }).aisles.look a =
      some { x with crane := { x.crane.endPark with state := .idle } } := by simp [State.modCrane, hx]
  unfold State.parkEnds
  dsimp only
  split
  · refine (Kept.refl s).adjust { SameStock.refl s with } (Table.adjust_adjust _ _ _ _) fun y hy hs => ?_
    obtain rfl := Option.some.inj (hx.symm.trans hy)
    exact (hs.hands_parkEnded (d := Crane.notePark r { x.crane.endPark with state := .idle }) hb hlost hj hpark nofun rfl rfl rfl rfl rfl rfl
      fun q hq => ⟨{ q with parkLabel := some r }, by
        rw [show (Crane.notePark r { x.crane.endPark with state := .idle }).suspension =
          x.crane.suspension.map fun q => { q with parkLabel := some r } from rfl, hq]; rfl, rfl⟩).any
  next hrec =>
    split
    · exact hidle.endDraining a
    · refine hidle.unaccountedLoad (fun y hy => ?_) _
      obtain rfl := Option.some.inj (hlook.symm.trans hy)
      exact ⟨rfl, hrec⟩

theorem Kept.parkEndsStopping (hx : s.aisles.look a = some x) (hstate : x.crane.state = .stopping) (hj : x.crane.active = some j)
    (hpark : j.kind = .park) (r : Reading) : Kept s (s.parkEndsStopping a x r) := by
  have hb : x.crane.state ≠ .busy := by rw [hstate]; decide
  have hlost : x.crane.state.lost = false := by rw [hstate]; rfl
  have hended : Kept s (s.modCrane a fun c => c.endPark.clearParkLabel) := (Kept.refl s).modAisle_safe fun y hy hs => by
    obtain rfl := Option.some.inj (hx.symm.trans hy)
    refine hs.hands_parkEnded (d := x.crane.endPark.clearParkLabel) hb hlost hj hpark hb hlost rfl rfl rfl rfl rfl fun q hq => ?_
    exact ⟨{ q with parkLabel := none }, by
      rw [show x.crane.endPark.clearParkLabel.suspension = x.crane.suspension.map fun q => { q with parkLabel := none } from rfl, hq]
      rfl, rfl⟩
  have hlook : (s.modCrane a fun c => c.endPark.clearParkLabel).aisles.look a =
      some { x with crane := x.crane.endPark.clearParkLabel } := by simp [State.modCrane, hx]
  unfold State.parkEndsStopping
  dsimp only
  split
  next hrec =>
    refine hended.unaccountedLoad (fun y hy => ?_) _
    obtain rfl := Option.some.inj (hlook.symm.trans hy)
    exact ⟨rfl, by
      rw [show x.crane.endPark.clearParkLabel.suspension = x.crane.suspension.map fun q => { q with parkLabel := none } from rfl, hrec]
      rfl⟩
  · exact hended

theorem Kept.takeParked (r : Reading) (s : State) (a : Nat) : Kept s (s.takeParked r a) := by
  have hout := (Kept.refl s).same ((Same.refl s).fieldProtocol (.aisle a) (some (.number 6)))
  unfold State.takeParked
  split
  · exact .refl s
  next x hx =>
    refine .ite (.refl s) ?_
    split
    next hpark =>
      obtain ⟨j, hj, hk⟩ := Option.map_eq_some_iff.1 (of_decide_eq_true hpark)
      split
      next hstate => exact (Kept.parkEnds hx hstate hj hk r).settleWing
      next hstate => exact (Kept.parkEndsStopping hx hstate hj hk r).settleWing
      · exact hout
    · exact hout

/-! ### CRANE_FAULT (R76) -/

theorem Kept.takeCraneFault (s : State) (a : Nat) : Kept s (s.takeCraneFault a) := by
  unfold State.takeCraneFault
  split
  · exact .refl s
  next x hx =>
    split
    · exact .refl s
    next ho =>
      refine Kept.settleWing (Kept.loseIdleOutOfService (.refl s) fun y hy => ?_)
      obtain rfl := Option.some.inj (hx.symm.trans hy)
      exact ho
    · exact ((Kept.refl s).loseCrane a _).settleWing

end

end Sys2Proof.Machine
end

section
/-! Arrivals, the telegrams of stations, shutters and concentrators, the fire panel line and the expiries keep the laws. -/
namespace Sys2Proof.Machine

section
variable {s t : State} {a n st z : Nat} {x : Aisle} {j : Job}

/-! ### Jobs that name an arriving bin (R92) -/

/-- Jobs that name a bin may go from an aisle when the bin's pending home goes with them, or no TRANSFER is among them. -/
theorem Kept.modAisleNaming (h : Kept s t) {f : Aisle → Aisle} {p : Prop} [Decidable p]
    (hf : ∀ x, t.aisles.look a = some x → x.Sound → x.Hands (fun j => j.bin = some n ∧ (j.kind = .transfer → p)) (f x)) :
    Kept s (if p then (t.modAisle a f).clearPending n else t.modAisle a f) := by
  split
  · refine (h.clearPending n).modAisle (a := a) (f := f) fun x hx hs => (hf x hx hs).imp fun j _ hj m hm => ?_
    obtain rfl := Option.some.inj (hj.1.symm.trans hm)
    exact State.unpending_modBin fun _ => rfl
  next hp =>
    refine h.modAisle_safe fun x hx hs => ?_
    obtain ⟨h1, h2, h3⟩ := hf x hx hs
    exact ⟨h1, h2, fun j hj hk => (h3 j hj hk).imp_right fun hmay => hp (hmay.2 hk)⟩

theorem Kept.dropQueuedNaming (h : Kept s t) (n a : Nat) : Kept s (t.dropQueuedNaming n a) := by
  unfold State.dropQueuedNaming
  split
  · exact h
  next x hx =>
    refine h.modAisleNaming (a := a) (n := n) fun y hy hs => ⟨⟨hs.crane, hs.service⟩, rfl, fun j hj _ => ?_⟩
    obtain rfl := Option.some.inj (hx.symm.trans hy)
    rw [Aisle.mem_jobs] at hj ⊢
    rcases hj with hj | hj
    · by_cases hn : j.names n = true
      · exact .inr ⟨of_decide_eq_true hn, fun hk => List.any_eq_true.2 ⟨j, hj, by simp [hn, hk]⟩⟩
      · exact .inl (.inl (List.mem_filter.2 ⟨hj, by simpa using hn⟩))
    · exact .inl (.inr hj)

theorem Kept.dropStagedNaming (h : Kept s t) (n a : Nat) : Kept s (t.dropStagedNaming n a) := by
  unfold State.dropStagedNaming
  split
  · exact h
  next j hj =>
    obtain ⟨x, hx, hstaged⟩ := Option.bind_eq_some_iff.1 hj
    split
    next hn =>
      have hdrop : Kept s (if j.kind = .transfer then (t.modCrane a fun c => { c with staged := none }).clearPending n
          else t.modCrane a fun c => { c with staged := none }) := by
        refine h.modAisleNaming fun y hy hs => ?_
        obtain rfl := Option.some.inj (hx.symm.trans hy)
        refine ⟨⟨⟨hs.crane.busy, fun _ => rfl, hs.crane.resting, hs.crane.lost, hs.crane.phase, hs.crane.deadline, hs.crane.retry,
          hs.crane.beside⟩, hs.service⟩, rfl, fun k hk _ => ?_⟩
        rw [Aisle.mem_jobs] at hk ⊢
        rcases hk with hk | hk | hk
        · exact .inl (.inl hk)
        · obtain rfl := Option.some.inj (hstaged.symm.trans hk)
          exact .inr ⟨of_decide_eq_true hn, id⟩
        · exact .inl (.inr (.inr hk))
      have hsent := hdrop.same ((Same.refl _).sendCrane a (.unstage j.tag))
      refine Eq.mp ?_ hsent
      congr 1
      split
      · rfl
      · rfl
    · exact h

theorem Kept.takeFromElsewhere (h : Kept s t) (n st : Nat) : Kept s (t.takeFromElsewhere n st) :=
  ((h.foldl _ _ fun _ _ h => h.same (((Same.refl _).removeFromLane n _).removeTransit n _)).foldl _ _
    fun _ a h => h.dropQueuedNaming n a).foldl _ _ fun _ a h => h.dropStagedNaming n a

/-! ### Arrivals (R90 to R95) -/

theorem Kept.arriveLate (h : Kept s t) (st n : Nat) : Kept s (t.arriveLate st n) :=
  (h.takeFromElsewhere n st).same ((((((Same.refl _).leaveOverdue n).pushPlace st _).setBinState n _).setTrip n st).report _ _ _
    |>.presentTop st)

theorem Kept.arriveUnexpected (h : Kept s t) (st n : Nat) : Kept s (t.arriveUnexpected st n) :=
  (((h.takeFromElsewhere n st).same ((((Same.refl _).leaveOverdue n).pushPlace st _).setTrip n st)).enterDoubt n).same
    ((Same.refl _).unexpectedBin n _)

theorem Kept.turnAway (h : Kept s t) (st n : Nat) : Kept s (t.turnAway st n) :=
  ((h.takeFromElsewhere n st).same ((((Same.refl _).removeTransit n st).leaveOverdue n).clearTrip n)).enterDoubt n

theorem Kept.arriveFull (h : Kept s t) (st l : Nat) : Kept s (t.arriveFull st l) :=
  ((Kept.ite (h.turnAway st l) h).holdLane st).raise _

theorem Kept.judgeArrival (h : Kept s t) (st l : Nat) (x : Station) : Kept s (t.judgeArrival st l x) :=
  .ite (.ite (h.arriveFull st l) (h.same ((Same.refl _).arriveOnTime st l)))
    (.ite (.ite (h.arriveFull st l) (h.arriveLate st l))
      (.ite (.ite ((h.same ((Same.refl _).removeFromLane l st)).arriveFull st l)
          ((h.same ((Same.refl _).removeFromLane l st)).arriveUnexpected st l))
        (.ite (h.arriveFull st l) (h.same ((Same.refl _).arriveTray st l)))))

theorem Kept.takeArrival (l : Nat) (s : State) (st : Nat) : Kept s (s.takeArrival l st) := by
  unfold State.takeArrival
  split
  · exact .refl s
  · exact (((Same.refl s).endHold st).kept.judgeArrival st l _).settleWing

/-! ### Stations (R101 to R103) -/

theorem Same.takeMouthClear (s : State) (st : Nat) : Same s (s.takeMouthClear st) := by
  unfold State.takeMouthClear
  split
  · exact (Same.refl s).setMouth _ _
  · exact ((Same.refl s).setMouth _ _).closeWaiting _

theorem Kept.takeStationFault (s : State) (st : Nat) : Kept s (s.takeStationFault st) := by
  unfold State.takeStationFault
  split
  · exact .refl s
  · exact (((Kept.refl s).holdLane st).raise _).settleWing

theorem Same.takeTerminalKey (l : List Byte) (s : State) (st : Nat) : Same s (s.takeTerminalKey l st) :=
  .ite ((Same.refl s).passUp _ _) (.refl s)

/-! ### Shutters (R166) -/

theorem Kept.takeClosed (s : State) (n : Nat) : Kept s (s.takeClosed n) := by
  unfold State.takeClosed
  split
  · exact .refl s
  · exact (Same.ite (((Same.refl s).modShutter n _).sendShutter n _) ((Same.refl s).modShutter n _)).kept.settleWing

theorem Kept.takeOpened (s : State) (n : Nat) : Kept s (s.takeOpened n) := by
  unfold State.takeOpened
  split
  · exact .refl s
  · refine Kept.settleWing (Same.kept ?_)
    have hopened := (Same.refl s).modShutter n fun h => { h with state := .opened, wait := none }
    split
    case h_1 | h_2 => exact (hopened.unsecure _).startClose n
    · exact hopened

theorem Kept.takeJammed (s : State) (n : Nat) : Kept s (s.takeJammed n) := by
  unfold State.takeJammed
  split
  · exact .refl s
  · exact .ite (.refl s) ((((Same.refl s).modShutter n _).unsecure _).kept.raise _).settleWing

/-! ### Concentrators (R142 to R147) -/

theorem Kept.afterAlert (h : Kept s t) (u : State) (z : Nat) : Kept s (u.afterAlert t z) := .ite h h.settleWing

theorem Kept.reformed (h : Same s t) (u : State) (z y : Nat) : Kept s (u.afterAlert (t.reformCauses z) y) :=
  (h.reformCauses z).kept.afterAlert u y

theorem Kept.takeBeat (k : Nat) (s : State) (n : Nat) : Kept s (s.takeBeat k n) := by
  unfold State.takeBeat
  split
  · exact .refl s
  · exact .reformed (((Same.refl s).setHealth n _ _).modConcentrator n _) _ _ _

theorem Kept.withDetector {n d : Nat} {take : State → Concentrator → State} (ht : ∀ c, Kept s (take s c)) :
    Kept s (s.withDetector n d take) := by
  unfold State.withDetector
  split
  · exact .refl s
  · exact .ite (ht _) ((Same.refl s).fieldProtocol _ _).kept

theorem Same.setDetector (s : State) (n d : Nat) (v : Condition) : Same s (s.setDetector n d v) := (Same.refl s).modConcentrator n _

theorem Kept.fireIn (h : Kept s t) (z : Nat) : Kept s (t.fireIn z) :=
  ((h.same ((Same.refl t).modZone z _)).enterShutdown z).settleWing

theorem Kept.takePrealarm (d : Nat) (s : State) (n : Nat) : Kept s (s.takePrealarm d n) := by
  refine .withDetector fun c => ?_
  dsimp only
  split
  case h_1 | h_2 => exact .refl s
  · exact .ite ((Same.setDetector s n d _).kept.fireIn _) (.reformed (Same.setDetector s n d _) _ _ _)

theorem Kept.takeAlarm (d : Nat) (s : State) (n : Nat) : Kept s (s.takeAlarm d n) :=
  .withDetector fun _ => (Same.setDetector s n d _).kept.fireIn _

theorem Kept.takeClear (d : Nat) (s : State) (n : Nat) : Kept s (s.takeClear d n) := by
  refine .withDetector fun c => ?_
  dsimp only
  split
  · exact .refl s
  · exact .reformed ((Same.refl s).modConcentrator n _) _ _ _

theorem Kept.takeTrouble (d : Nat) (s : State) (n : Nat) : Kept s (s.takeTrouble d n) := by
  refine .withDetector fun c => ?_
  split
  · exact .refl s
  · exact .reformed (Same.setDetector s n d _) _ _ _

/-! ### The fire panel line (R153) -/

theorem Kept.panelAlarm (h : Kept s t) : Kept s t.panelAlarm :=
  ((h.same ((Same.refl t).report _ _ _)).foldl _ _ fun _ z h => h.enterShutdown z).settleWing

/-! ### Expiries -/

theorem Kept.craneDeadlineExpires (s : State) (a : Nat) : Kept s (s.craneDeadlineExpires a) := by
  unfold State.craneDeadlineExpires
  split
  · exact .refl s
  · exact .ite ((Kept.refl s).loseCrane a _).settleWing (.refl s)

theorem Kept.inTransitExpires (s : State) (st n : Nat) : Kept s (s.inTransitExpires st n) := by
  unfold State.inTransitExpires
  split
  · exact .refl s
  · exact .ite (((Kept.refl s).overrun st n).raise _).settleWing (.refl s)

theorem Kept.alertExpires (s : State) (z : Nat) : Kept s (s.alertExpires z) := by
  unfold State.alertExpires
  split
  · exact .refl s
  · exact .ite (.ite ((((Same.refl s).modZone z _).setZoneState z _).kept.settleWing) ((Same.refl s).modZone z _).kept) (.refl s)

theorem Kept.supervisionExpires (s : State) (n : Nat) : Kept s (s.supervisionExpires n) := by
  unfold State.supervisionExpires
  split
  · exact .refl s
  · exact .ite (.reformed (((Same.refl s).setHealth n _ _).modConcentrator n _) _ _ _) (.refl s)

theorem Same.shutterWaitExpires (s : State) (n : Nat) : Same s (s.shutterWaitExpires n) := by
  unfold State.shutterWaitExpires
  split
  · exact .refl s
  · refine .ite ?_ (.refl s)
    have k := ((Same.refl s).modShutter n fun h => { h with state := .closing, wait := none }).sendShutter n (.closeShutter true)
    dsimp only
    split
    · exact k
    · exact k.lockOut _

theorem Kept.stopWaitExpires (s : State) (a : Nat) : Kept s (s.stopWaitExpires a) := by
  unfold State.stopWaitExpires
  split
  · exact .refl s
  · exact .ite ((Kept.refl s).loseCrane a _).settleWing (.refl s)

end

end Sys2Proof.Machine
end

section
/-! The moves of one item keep the law of the shelf space (R25 to R28), and so keep the laws: picks, loans, withdrawals, returns
and shelvings, each with the figures of its bin, its request and its return entry. -/
namespace Sys2Proof.Machine

section
variable {s t u : State} {k n st : Nat} {i : Item} {r : Request}

/-! ### The item that moves -/

/-- What an item takes of a bin, by its state (R24). -/
theorem Item.takes_of_shelved (hs : i.state = .shelved ∨ i.state = .requested) (hh : i.home = some n) (q : Nat) :
    i.filling q = (if q = n then i.thickness else 0) ∧ i.reserving q = 0 ∧ i.counting q = if q = n then 1 else 0 := by
  have hq : i.fills q = decide (q = n) := by
    rcases hs with hs | hs <;> simp [Item.fills, hs, hh, eq_comm]
  refine ⟨by simp [Item.filling, hq], ?_, by simp [Item.counting, hq]⟩
  rcases hs with hs | hs <;> simp [Item.reserving, Item.reserves, hs]

theorem Item.takes_of_held (hs : i.state = .picked ∨ i.state = .held) (hh : i.home = some n) (q : Nat) :
    i.filling q = 0 ∧ i.reserving q = (if q = n then i.thickness else 0) ∧ i.counting q = 0 := by
  have hq : i.reserves q = decide (q = n) := by
    rcases hs with hs | hs <;> simp [Item.reserves, hs, hh, eq_comm]
  refine ⟨?_, by simp [Item.reserving, hq], ?_⟩
  · rcases hs with hs | hs <;> simp [Item.filling, Item.fills, hs]
  · rcases hs with hs | hs <;> simp [Item.counting, Item.fills, hs]

theorem Item.takes_of_returning (hs : i.state = .returning) (hh : i.target = some n) (q : Nat) :
    i.filling q = 0 ∧ i.reserving q = (if q = n then i.thickness else 0) ∧ i.counting q = 0 := by
  have hq : i.reserves q = decide (q = n) := by simp [Item.reserves, hs, hh, eq_comm]
  exact ⟨by simp [Item.filling, Item.fills, hs], by simp [Item.reserving, hq], by simp [Item.counting, Item.fills, hs]⟩

theorem Item.takes_of_out (hs : i.state = .lent ∨ i.state = .overflow) (q : Nat) :
    i.filling q = 0 ∧ i.reserving q = 0 ∧ i.counting q = 0 := by
  rcases hs with hs | hs <;> simp [Item.filling, Item.reserving, Item.counting, Item.fills, Item.reserves, hs]

/-- An item with a home bin that it needs has it. -/
theorem Stock.home_of (h : Stock s) (hi : s.items.look k = some i)
    (hs : i.state = .shelved ∨ i.state = .requested ∨ i.state = .picked ∨ i.state = .held) :
    ∃ n, i.home = some n ∧ (s.bins.look n).isSome = true := by
  have := h.shelves.housed k i hi
  unfold Item.Housed at this
  rcases hs with hs | hs | hs | hs <;> rw [hs] at this <;> exact this

theorem Item.housed_of_home (hs : i.state = .shelved ∨ i.state = .requested ∨ i.state = .picked ∨ i.state = .held)
    (hh : i.home = some n) (hb : (s.bins.look n).isSome = true) : i.Housed s.bins := by
  unfold Item.Housed
  rcases hs with hs | hs | hs | hs <;> rw [hs] <;> exact ⟨n, hh, hb⟩

theorem State.thicknessOf_eq (hi : s.items.look k = some i) : s.thicknessOf k = i.thickness := by simp [State.thicknessOf, hi]

theorem Item.not_wanted {v : ItemState} (h : i.state = v) (hv : v ≠ .requested ∧ v ≠ .picked) : ¬i.Wanted := fun hc =>
  hc.elim (fun hc => hv.1 (h.symm.trans hc)) fun hc => hv.2 (h.symm.trans hc)

/-- The state of the item that has changed. -/
theorem look_adjusted {l : Table Item} {f : Item → Item} (v : ItemState) (hf : ∀ i, (f i).state = v) {y : Item}
    (hy : (l.adjust k f).look k = some y) : y.state = v := by
  rw [Table.look_adjust_same, Option.map_eq_some_iff] at hy
  obtain ⟨x, -, rfl⟩ := hy
  exact hf x

theorem look_state {l : Table Item} {v : ItemState} (hi : l.look k = some i) (hv : i.state ≠ v) {y : Item} (hy : l.look k = some y) :
    y.state ≠ v := by
  obtain rfl := Option.some.inj (hi.symm.trans hy)
  exact hv

theorem look_wanted {l : Table Item} (hi : l.look k = some i) (hv : ¬i.Wanted) {y : Item} (hy : l.look k = some y) : ¬y.Wanted := by
  obtain rfl := Option.some.inj (hi.symm.trans hy)
  exact hv

/-! ### A request that ends (R115 to R118) -/

/-- The request of an item ends, and the item changes with the figures of a bin. -/
theorem Stock.endRequest {f : Item → Item} {m : Table Bin} {v : ItemState} (h : Stock s) (hm : s.mode = .inService) (hi : s.items.look k = some i)
    (hs : i.state ≠ .returning) (hf : ∀ i, (f i).state = v) (hv : (v ≠ .requested ∧ v ≠ .picked) ∧ v ≠ .returning) (hb : m.wf = true)
    (hshelves : Shelves s.mode m (s.items.adjust k f)) :
    Stock { s with
      bins := m, items := s.items.adjust k f, requests := s.requests.filter fun r => !decide (r.item = k) } where
  bins := hb
  items := by simpa using h.items
  stations := h.stations
  tag := h.tag
  short := (List.length_filter_le _ _).trans h.short
  shelves := hshelves
  wants := h.wants.drop (fun _ hne => Table.look_adjust_ne _ _ hne) fun _ hy => Item.not_wanted (look_adjusted v hf hy) hv.1
  owes := h.owes.keep (fun _ hne => Table.look_adjust_ne _ _ hne) (fun _ hy => look_state hi hs hy)
    fun _ hy => look_adjusted v hf hy ▸ hv.2
  idle := fun hm' => by rw [show s.mode = .commissioning from hm'] at hm; cases hm

theorem Stock.withhold (h : Stock s) (hm : s.mode = .inService) (hi : s.items.look k = some i) (hs : i.state = .picked) :
    Stock (s.withhold k) := by
  obtain ⟨n, hh, hb⟩ := h.home_of hi (.inr (.inr (.inl hs)))
  refine h.endRequest hm hi (by rw [hs]; decide) (fun _ => rfl) (by decide) h.bins (h.shelves.turn hi ⟨rfl, fun _ => ?_, fun q => ?_, fun q => ?_, fun q => ?_⟩)
  · exact Item.housed_of_home (i := { i with state := .held }) (.inr (.inr (.inr rfl))) hh hb
  all_goals
    obtain ⟨h1, h2, h3⟩ := Item.takes_of_held (.inl hs) hh q
    obtain ⟨h4, h5, h6⟩ := Item.takes_of_held (i := { i with state := .held }) (.inr rfl) hh q
    simp_all

theorem Stock.lend (h : Stock s) (hm : s.mode = .inService) (hi : s.items.look k = some i) (hs : i.state = .picked) :
    Stock (s.lend k) := by
  obtain ⟨n, hh, hb⟩ := h.home_of hi (.inr (.inr (.inl hs)))
  have heq : s.lend k =
      { s with
        bins := s.bins.adjust n fun b => b.release i.thickness
        items := s.items.adjust k fun i => { i with state := .lent }
        requests := s.requests.filter fun r => !decide (r.item = k) } := by
    simp only [State.lend, State.homeOf, hi, Option.bind_some, hh, State.thicknessOf_eq hi]
    rfl
  rw [heq]
  refine h.endRequest hm hi (by rw [hs]; decide) (fun _ => rfl) (by decide) (by simpa using h.bins) ?_
  have hold := Item.takes_of_held (.inl hs) hh
  have hnew := Item.takes_of_out (i := { i with state := .lent }) (.inl rfl)
  refine h.shelves.move_at hi rfl (h.shelves.sized k i hi) trivial (fun q hq => ?_) (fun b hb => ?_) fun _ b _ _ _ hcap => ?_
  · obtain ⟨h1, h2, h3⟩ := hold q
    obtain ⟨h4, h5, h6⟩ := hnew q
    rw [h1, h2, h3, h4, h5, h6, if_neg hq]
    exact ⟨rfl, rfl, rfl⟩
  · obtain ⟨h1, h2, h3⟩ := hold n
    obtain ⟨h4, h5, h6⟩ := hnew n
    rw [if_pos rfl] at h2
    exact ⟨fun _ => by rw [h1, h4]; rfl, fun hle => by rw [h2, h5]; rw [h2] at hle; simp only [Bin.release]; omega,
      fun _ => by rw [h3, h6]; rfl⟩
  · simp only [Bin.release]
    omega

/-- The item of a request that is not PICKED is SHELVED again. -/
theorem Stock.unrequest (h : Stock s) (hm : s.mode = .inService) (hr : r ∈ s.requests) (hp : r.state ≠ .picked) :
    Stock ((s.endRequest r.item).modItem r.item fun i => { i with state := .shelved }) := by
  obtain ⟨i, hi, hsuits⟩ := h.wants.suited r hr
  have hs := (hsuits.2 hp).1
  exact h.endRequest hm hi (by rw [hs]; decide) (fun _ => rfl) (by decide) h.bins
    (h.shelves.turn hi (Item.weighs_shelved _ hs))

/-! ### A pick (R114) -/

theorem Stock.pickItem (h : Stock s) (hm : s.mode = .inService) (hi : s.items.look k = some i) (hs : i.state = .requested)
    (hh : i.home = some n) (hr : r ∈ s.requests) (hk : r.item = k) (st : Nat) : Stock (s.pickItem st k n r) := by
  subst hk
  obtain ⟨n', hh', hb⟩ := h.home_of hi (.inr (.inl hs))
  obtain rfl := Option.some.inj (hh.symm.trans hh')
  refine ((Same.refl _).reportRequest .itemPicked r (some (.number st))).stock ?_
  refine ⟨by simpa using h.bins, by simpa using h.items, h.stations, h.tag, by simpa using h.short, ?_, ?_, ?_, fun hm' => ?_⟩
  · show Shelves s.mode (s.bins.adjust n fun b => b.pickOut (s.thicknessOf r.item)) (s.items.adjust r.item fun i => { i with state := .picked })
    rw [State.thicknessOf_eq hi]
    have hold := Item.takes_of_shelved (.inr hs) hh
    have hnew := Item.takes_of_held (i := { i with state := .picked }) (.inl rfl) hh
    refine h.shelves.move_at hi rfl (h.shelves.sized _ i hi) (Item.housed_of_home (.inr (.inr (.inl rfl))) hh hb) (fun q hq => ?_)
      (fun b hb => ?_) fun _ b _ hfill _ hcap => ?_
    · obtain ⟨h1, h2, h3⟩ := hold q
      obtain ⟨h4, h5, h6⟩ := hnew q
      rw [h1, h2, h3, h4, h5, h6]
      simp [hq]
    · obtain ⟨h1, h2, h3⟩ := hold n
      obtain ⟨h4, h5, h6⟩ := hnew n
      rw [if_pos rfl] at h1 h3 h5
      exact ⟨fun hle => by rw [h1, h4]; rw [h1] at hle; simp only [Bin.pickOut]; omega, fun _ => by rw [h2, h5]; rfl,
        fun hle => by rw [h3, h6]; rw [h3] at hle; simp only [Bin.pickOut]; omega⟩
    · obtain ⟨h1, -⟩ := hold n
      rw [h1, if_pos rfl] at hfill
      simp only [Bin.pickOut]
      omega
  · exact h.wants.pick hr (fun _ hne => Table.look_adjust_ne _ _ hne)
      (show (s.items.adjust r.item _).look r.item = some { i with state := .picked } by rw [Table.look_adjust_same, hi]; rfl) rfl
  · exact h.owes.keep (fun _ hne => Table.look_adjust_ne _ _ hne) (fun _ hy => look_state hi (by rw [hs]; decide) hy)
      fun _ hy => by rw [look_adjusted .picked (fun _ => rfl) hy]; decide
  · rw [show s.mode = .commissioning from hm'] at hm
    cases hm

/-! ### A request that is taken (R110) -/

/-- A SHELVED item is requested under the next tag. -/
theorem Stock.request (h : Stock s) (hm : s.mode = .inService) (hi : s.items.look k = some i) (hs : i.state = .shelved)
    (hl : s.requests.length < Config.requestCapacity) (hk : r.item = k) (hp : r.state ≠ .picked) (hw : r.window = none)
    (htag : r.tag = s.requestTag) :
    Stock { s with
      items := s.items.adjust k fun i => { i with state := .requested }
      nextRequest := tagAfter s.requestTag, requests := s.requests ++ [r] } := by
  subst hk
  obtain ⟨n, hh, hb⟩ := h.home_of hi (.inl hs)
  have hlen : (s.requests.map (·.tag)).length < Config.maxTag := by
    rw [List.length_map]
    exact hl.trans (by decide)
  obtain ⟨hfree, hwithin, -⟩ := freeTag_spec h.tag hlen
  rw [List.length_map] at hfree hwithin
  refine ⟨h.bins, by simpa using h.items, h.stations, tagAfter_iterate_within hwithin 1, by simpa using hl, ?_, ?_, ?_, fun hm' => ?_⟩
  · refine h.shelves.turn hi ⟨rfl, fun _ => ?_, fun q => ?_, fun q => ?_, fun q => ?_⟩
    · exact Item.housed_of_home (i := { i with state := .requested }) (.inr (.inl rfl)) hh hb
    all_goals
      obtain ⟨h1, h2, h3⟩ := Item.takes_of_shelved (.inl hs) hh q
      obtain ⟨h4, h5, h6⟩ := Item.takes_of_shelved (i := { i with state := .requested }) (.inr rfl) hh q
      simp_all
  · refine h.wants.append (fun _ hne => Table.look_adjust_ne _ _ hne) (fun _ hy => look_wanted hi ?_ hy)
      (show (s.items.adjust r.item _).look r.item = some { i with state := .requested } by rw [Table.look_adjust_same, hi]; rfl)
      ⟨fun hc => absurd hc hp, fun _ => ⟨rfl, hw⟩⟩ (htag ▸ hfree)
    rintro (hc | hc) <;> rw [hs] at hc <;> cases hc
  · exact h.owes.keep (fun _ hne => Table.look_adjust_ne _ _ hne) (fun _ hy => look_state hi (by rw [hs]; decide) hy)
      fun _ hy => by rw [look_adjusted .requested (fun _ => rfl) hy]; decide
  · rw [show s.mode = .commissioning from hm'] at hm
    cases hm

/-! ### A return (R124 to R132) -/

/-- An item that is out lets go of the space that was held for it (R27, R130). -/
theorem Stock.letGo (h : Stock s) (hi : s.items.look k = some i)
    (hs : i.state = .held ∨ i.state = .lent ∨ i.state = .overflow) :
    Stock ((s.releaseHeld i).modItem k fun i => { i with state := .overflow, target := none }) := by
  have hnew := Item.takes_of_out (i := { i with state := .overflow, target := none }) (.inr rfl)
  have hnot : ¬i.Wanted ∧ i.state ≠ .returning := by
    rcases hs with hs | hs | hs <;> simp [Item.Wanted, hs]
  have hwants : Wants s.requests (s.items.adjust k fun i => { i with state := .overflow, target := none }) :=
    h.wants.keep (fun _ hne => Table.look_adjust_ne _ _ hne) (fun _ hy => look_wanted hi hnot.1 hy)
      fun _ hy => Item.not_wanted (look_adjusted .overflow (fun _ => rfl) hy) (by decide)
  have howes : Owes s.returnEntries (s.items.adjust k fun i => { i with state := .overflow, target := none }) :=
    h.owes.keep (fun _ hne => Table.look_adjust_ne _ _ hne) (fun _ hy => look_state hi hnot.2 hy)
      fun _ hy => by rw [look_adjusted .overflow (fun _ => rfl) hy]; decide
  rcases hs with hs | hs
  · obtain ⟨n, hh, hb⟩ := h.home_of hi (.inr (.inr (.inr hs)))
    have heq : s.releaseHeld i = s.modBin n fun b => b.release i.thickness := by simp only [State.releaseHeld, hs, hh]
    rw [heq]
    have hold := Item.takes_of_held (.inr hs) hh
    refine ⟨by simpa using h.bins, by simpa using h.items, h.stations, h.tag, h.short, ?_, hwants, howes, h.idle⟩
    refine h.shelves.move_at hi rfl (h.shelves.sized k i hi) trivial (fun q hq => ?_) (fun b hb => ?_) fun _ b _ _ _ hcap => ?_
    · obtain ⟨h1, h2, h3⟩ := hold q
      obtain ⟨h4, h5, h6⟩ := hnew q
      rw [h1, h2, h3, h4, h5, h6, if_neg hq]
      exact ⟨rfl, rfl, rfl⟩
    · obtain ⟨h1, h2, h3⟩ := hold n
      obtain ⟨h4, h5, h6⟩ := hnew n
      rw [if_pos rfl] at h2
      exact ⟨fun _ => by rw [h1, h4]; rfl, fun hle => by rw [h2, h5]; rw [h2] at hle; simp only [Bin.release]; omega,
        fun _ => by rw [h3, h6]; rfl⟩
    · simp only [Bin.release]
      omega
  · have heq : s.releaseHeld i = s := by
      rcases hs with hs | hs <;> simp only [State.releaseHeld, hs]
    rw [heq]
    refine ⟨h.bins, by simpa using h.items, h.stations, h.tag, h.short, h.shelves.turn hi ⟨rfl, fun _ => trivial, fun q => ?_, fun q => ?_, fun q => ?_⟩,
      hwants, howes, h.idle⟩
    all_goals
      obtain ⟨h1, h2, h3⟩ := Item.takes_of_out hs q
      obtain ⟨h4, h5, h6⟩ := hnew q
      simp_all

/-- An item becomes RETURNING to a bin, which holds its space already or has room for it (R127). -/
theorem Stock.returning {x : Station} {b : Bin} {rise : Nat} (h : Stock s) (hm : s.mode = .inService) (hi : s.items.look k = some i)
    (hx : s.stations.look st = some x) (hb : s.bins.look n = some b)
    (hs : (i.state = .held ∧ i.home = some n ∧ rise = 0)
      ∨ ((i.state = .lent ∨ i.state = .overflow) ∧ rise = i.thickness ∧ b.fill + b.reserved + i.thickness ≤ b.capacity)) :
    Stock { s with
      items := s.items.adjust k fun i => { i with state := .returning, target := some n }
      bins := s.bins.adjust n fun b => b.reserve rise
      stations := s.stations.adjust st fun x => { x with returns := x.returns ++ [{ item := k, target := n }] } } := by
  have hnot : ¬i.Wanted ∧ i.state ≠ .returning := by
    rcases hs with ⟨hs, -⟩ | ⟨hs | hs, -⟩ <;> simp [Item.Wanted, hs]
  have hnew := Item.takes_of_returning (i := { i with state := .returning, target := some n }) rfl rfl
  refine ⟨by simpa using h.bins, by simpa using h.items, by simpa using h.stations, h.tag, h.short, ?_, ?_, ?_, fun hm' => ?_⟩
  · refine h.shelves.move_at hi rfl (h.shelves.sized k i hi) ⟨n, rfl, by rw [hb]; rfl⟩ (fun q hq => ?_) (fun c hc => ?_)
      fun _ c hc _ _ hcap => ?_
    · obtain ⟨h4, h5, h6⟩ := hnew q
      rw [h4, h5, h6, if_neg hq]
      rcases hs with ⟨hs, hh, -⟩ | ⟨hs, -⟩
      · obtain ⟨h1, h2, h3⟩ := Item.takes_of_held (.inr hs) hh q
        rw [h1, h2, h3, if_neg hq]
        exact ⟨rfl, rfl, rfl⟩
      · exact Item.takes_of_out hs q
    · obtain ⟨h4, h5, h6⟩ := hnew n
      rw [if_pos rfl] at h5
      rcases hs with ⟨hs, hh, rfl⟩ | ⟨hs, rfl, -⟩
      · obtain ⟨h1, h2, h3⟩ := Item.takes_of_held (.inr hs) hh n
        rw [if_pos rfl] at h2
        exact ⟨fun _ => by rw [h1, h4]; rfl, fun _ => by rw [h2, h5]; rfl, fun _ => by rw [h3, h6]; rfl⟩
      · obtain ⟨h1, h2, h3⟩ := Item.takes_of_out hs n
        exact ⟨fun _ => by rw [h1, h4]; rfl, fun _ => by rw [h2, h5]; rfl, fun _ => by rw [h3, h6]; rfl⟩
    · obtain rfl := Option.some.inj (hb.symm.trans hc)
      simp only [Bin.reserve]
      rcases hs with ⟨-, -, rfl⟩ | ⟨-, rfl, hfits⟩ <;> omega
  · exact h.wants.keep (fun _ hne => Table.look_adjust_ne _ _ hne) (fun _ hy => look_wanted hi hnot.1 hy)
      fun _ hy => Item.not_wanted (look_adjusted .returning (fun _ => rfl) hy) (by decide)
  · obtain ⟨rest, hold, hnew⟩ := returnEntries_split hx
    have hinsert := (h.owes.perm hold.symm).insert (e := { item := k, target := n })
      (l' := s.items.adjust k fun i => { i with state := .returning, target := some n })
      (fun _ hne => Table.look_adjust_ne _ _ hne) (fun _ hy => look_state hi hnot.2 hy)
      (by rw [Table.look_adjust_same, hi]; rfl) rfl rfl
    refine hinsert.perm ((hnew _).trans ?_)
    rw [List.append_assoc, List.singleton_append]
    exact List.perm_middle
  · rw [show s.mode = .commissioning from hm'] at hm
    cases hm

/-- A RETURNING item is shelved in its target (R28, R132). -/
theorem Stock.shelveItem {x : Station} (h : Stock s) (hm : s.mode = .inService) (hi : s.items.look k = some i)
    (hs : i.state = .returning) (ht : i.target = some n) (hx : s.stations.look st = some x) (he : ∃ e ∈ x.returns, e.item = k) :
    Stock (s.shelveItem st k n) := by
  have hb : (s.bins.look n).isSome = true := by
    have := h.shelves.housed k i hi
    unfold Item.Housed at this
    rw [hs] at this
    obtain ⟨n', ht', hb⟩ := this
    obtain rfl := Option.some.inj (ht.symm.trans ht')
    exact hb
  have hold := Item.takes_of_returning hs ht
  have hnew := Item.takes_of_shelved (i := { i with state := .shelved, home := some n, target := none }) (.inl rfl) rfl
  refine ((Same.refl _).report .returnShelved (.item k) (some (.number n))).stock ?_
  refine ⟨by simpa using h.bins, by simpa using h.items, by simpa using h.stations, h.tag, h.short, ?_, ?_, ?_, fun hm' => ?_⟩
  · show Shelves s.mode (s.bins.adjust n fun b => b.shelve (s.thicknessOf k))
      (s.items.adjust k fun i => { i with state := .shelved, home := some n, target := none })
    rw [State.thicknessOf_eq hi]
    refine h.shelves.move_at hi rfl (h.shelves.sized k i hi) (Item.housed_of_home (.inl rfl) rfl hb) (fun q hq => ?_) (fun b hb => ?_)
      fun _ b _ _ hres hcap => ?_
    · obtain ⟨h1, h2, h3⟩ := hold q
      obtain ⟨h4, h5, h6⟩ := hnew q
      rw [h1, h2, h3, h4, h5, h6]
      simp [hq]
    · obtain ⟨h1, h2, h3⟩ := hold n
      obtain ⟨h4, h5, h6⟩ := hnew n
      rw [if_pos rfl] at h2 h4 h6
      exact ⟨fun _ => by rw [h1, h4]; rfl, fun hle => by rw [h2, h5]; rw [h2] at hle; simp only [Bin.shelve]; omega,
        fun _ => by rw [h3, h6]; rfl⟩
    · rw [(hold n).2.1, if_pos rfl] at hres
      simp only [Bin.shelve]
      omega
  · exact h.wants.keep (fun _ hne => Table.look_adjust_ne _ _ hne)
      (fun _ hy => look_wanted hi (by rintro (hc | hc) <;> rw [hs] at hc <;> cases hc) hy)
      fun _ hy => Item.not_wanted (look_adjusted .shelved (fun _ => rfl) hy) (by decide)
  · obtain ⟨rest, hsplit, hkept⟩ := returnEntries_split hx
    refine Owes.perm ?_ (hkept fun x => { x with returns := x.returns.filter fun e => !decide (e.item = k) })
    refine (h.owes.perm hsplit.symm).release (p := fun e => decide (e.item = k)) (fun m hm => ?_) fun e he hp y hy => ?_
    · obtain ⟨e, he, hek⟩ := he
      exact Table.look_adjust_ne _ _ fun hmk => hm e he (decide_eq_true hek) (hek.trans hmk.symm)
    · obtain rfl := of_decide_eq_true hp
      rw [look_adjusted .shelved (fun _ => rfl) hy]
      decide
  · rw [show s.mode = .commissioning from hm'] at hm
    cases hm

end

end Sys2Proof.Machine
end

section
/-! The scans, the lending orders and the confirm windows keep the laws. -/
namespace Sys2Proof.Machine

section
variable {s t u : State} {k n st : Nat} {i : Item} {r : Request}

/-- A change of items, requests and figures alone, which keeps the law of the shelf space in IN_SERVICE. -/
theorem Kept.moved (h : Kept s t) (hw : SameWing t u) (hs : t.mode = .inService → Stock t → Stock u) : Kept s u := h.trans (hw.kept hs)

theorem SameWing.endRequest (h : SameWing s t) (k : Nat) : SameWing s (t.endRequest k) := h.setRequests _

/-! ### Loans (R115 to R117) -/

theorem Kept.withhold (h : Kept s t) (hi : Stock t → ∃ i, t.items.look k = some i ∧ i.state = .picked) : Kept s (t.withhold k) :=
  h.moved (((SameWing.refl t).modItem k _).endRequest k) fun hm hs => by
    obtain ⟨i, hi, hp⟩ := hi hs
    exact hs.withhold hm hi hp

theorem Kept.lend (h : Kept s t) (hi : t.items.look k = some i) (hp : i.state = .picked) : Kept s (t.lend k) := by
  refine h.moved ?_ fun hm hs => hs.lend hm hi hp
  unfold State.lend
  split
  · exact ((SameWing.refl t).modItem k _).endRequest k
  · exact (((SameWing.refl t).modBin _ _).modItem k _).endRequest k

/-- A request is PICKED where its window runs (R106). -/
theorem Kept.confirmExpires (s : State) (tag : Nat) : Kept s (s.confirmExpires tag) := by
  unfold State.confirmExpires
  split
  · exact .refl s
  next r hr =>
    split
    next hw =>
      refine Kept.same (Kept.withhold (.refl s) fun hs => ?_) ((Same.refl _).reportRequest _ _ _)
      obtain ⟨i, hi, hsuits⟩ := hs.wants.suited r (List.mem_of_find?_eq_some hr)
      refine ⟨i, hi, hsuits.1 ?_⟩
      by_contra hp
      rw [(hsuits.2 hp).2] at hw
      cases hw
    · exact .refl s

theorem loanRefusal_eq_none {ref : Nat} (h : s.loanRefusal k ref = none) : ∃ i, s.items.look k = some i ∧ i.state = .picked := by
  unfold State.loanRefusal at h
  split at h
  · cases h
  · split at h
    · cases h
    next i hi =>
      split at h
      · cases h
      · split at h
        · cases h
        next hp => exact ⟨i, hi, not_not.1 hp⟩

/-! ### Withdrawals (R118, R119) -/

theorem Kept.dropServing (h : Kept s t) (n st a : Nat) :
    Kept s (t.modAisle a fun x => { x with queue := x.queue.filter fun j => !servesTrip n st j }) :=
  h.modAisle_safe fun x _ hs => hs.hands_queue fun j hj hk => List.mem_filter.2 ⟨hj, by simp [servesTrip, Job.boundFor, hk]⟩

theorem State.stagedFor_look (hw : s.aisles.wf = true) {a : Nat} (h : s.stagedFor n st = some a) :
    ∃ x j, s.aisles.look a = some x ∧ x.crane.staged = some j ∧ j.kind = .retrieve := by
  obtain ⟨⟨b, x⟩, he, rfl⟩ := Option.map_eq_some_iff.1 h
  have hx := Table.look_of_mem hw (List.mem_of_find?_eq_some he)
  have hany : x.crane.staged.any (servesTrip n st) = true := by simpa using List.find?_some he
  obtain ⟨j, hj, hserves⟩ := (Option.any_eq_true _ _).1 hany
  refine ⟨x, j, hx, hj, ?_⟩
  simp only [servesTrip, Job.boundFor, Bool.and_eq_true, decide_eq_true_eq] at hserves
  exact hserves.2.1

theorem Kept.dropStaged (h : Kept s t) {a : Nat} (ha : t.stagedFor n st = some a) : Kept s (t.dropStaged a) := by
  unfold State.dropStaged
  split
  · exact h
  next x hx =>
    split
    · exact h
    next j hj =>
      have hsame : SameStock t (t.modCrane a fun c => { c with staged := none }) := (SameStock.refl t).modCrane a _
      have hdrop : Kept t (t.modCrane a fun c => { c with staged := none }) := Kept.assuming hsame.frugal fun _ hc => by
        obtain ⟨y, k, hy, hk, hret⟩ := State.stagedFor_look hc.wf ha
        obtain rfl := Option.some.inj (hx.symm.trans hy)
        obtain rfl := Option.some.inj (hj.symm.trans hk)
        refine (Kept.refl t).modAisle_safe fun z hz hs => ?_
        obtain rfl := Option.some.inj (hx.symm.trans hz)
        refine ⟨⟨⟨hs.crane.busy, fun _ => rfl, hs.crane.resting, hs.crane.lost, hs.crane.phase, hs.crane.deadline, hs.crane.retry,
          hs.crane.beside⟩, hs.service⟩, rfl, fun q hq hqt => .inl ?_⟩
        rw [Aisle.mem_jobs] at hq ⊢
        rcases hq with hq | hq | hq
        · exact .inl hq
        · obtain rfl := Option.some.inj (hj.symm.trans hq)
          rw [hret] at hqt
          cases hqt
        · exact .inr (.inr hq)
      exact (h.trans hdrop).same ((Same.refl _).sendCrane a _)

theorem Kept.settleTrip (h : Kept s t) (n st : Nat) : Kept s (t.settleTrip n st) := by
  refine .ite h ?_
  split
  · exact ((h.dropServing n st _).uncallBin n).settleWing
  · split
    next ha => exact ((h.dropStaged ha).uncallBin n).settleWing
    · refine h.same ((Same.refl t).modBin n _ fun b => ?_)
      split <;> rfl

theorem Kept.withdraw (h : Kept s t) (hr : r ∈ t.requests) (hp : r.state ≠ .picked) : Kept s (t.withdraw r) := by
  have hended : Kept s ((t.endRequest r.item).modItem r.item fun i => { i with state := .shelved }) :=
    h.moved (((SameWing.refl t).endRequest r.item).modItem r.item _) fun hm hs => hs.unrequest hm hr hp
  unfold State.withdraw
  dsimp only
  have hshown := Kept.ite (p := r.state = .presented) (hended.same ((Same.refl _).offerPresent r.station)) hended
  split
  · exact hshown
  · exact hshown.settleTrip _ _

/-! ### Requests (R108 to R110) -/

theorem Kept.travelFor (h : Kept s t) (st n : Nat) (b : Bin) (r : Request) : Kept s (t.travelFor st n b r) := by
  unfold State.travelFor
  split
  · exact .ite (h.same (((Same.refl t).readyOne st r).offerPresent st)) h
  · exact (h.callBin n st _).lookAll
  · exact h.same (((Same.refl t).modBin n _).reportRequest _ _ _)

theorem requestRefusal_eq_none {item : Nat} (h : s.requestRefusal st item = none) :
    ∃ i, s.items.look item = some i ∧ i.state = .shelved ∧ s.requests.length < Config.requestCapacity := by
  have hlist : ∀ x b, s.requestBinRefusal x st b = none → s.requests.length < Config.requestCapacity := fun x b hb => by
    by_contra hl
    rw [not_lt] at hl
    simp only [State.requestBinRefusal, firstRefusal, decide_eq_true hl, if_true] at hb
    split at hb
    · cases hb
    · split at hb
      · cases hb
      · split at hb <;> cases hb
  unfold State.requestRefusal at h
  split at h
  · cases h
  · split at h
    · cases h
    next i hi =>
      split at h
      · cases h
      next hs =>
        refine ⟨i, hi, not_not.1 hs, ?_⟩
        split at h
        · cases h
        · split at h
          · cases h
          · split at h
            · cases h
            · split at h
              · cases h
              · exact hlist _ _ h

theorem State.newRequestState_ne_picked (s : State) (st n : Nat) (b : Bin) : s.newRequestState st n b ≠ .picked := by
  unfold State.newRequestState State.joinState
  split
  · split
    · decide
    · split <;> decide
  all_goals decide

theorem Kept.takeItem (h : Kept s t) {order item : Nat} (hr : t.requestRefusal st item = none) : Kept s (t.takeItem order st item) := by
  obtain ⟨i, hi, hshelved, hl⟩ := requestRefusal_eq_none hr
  unfold State.takeItem
  split
  · exact h
  · split
    · exact h
    next n _ _ b _ =>
      refine Kept.travelFor (h.moved ?_ fun hm hs => ?_) st n b _
      · exact { SameWing.refl t with }
      · exact hs.request (r := t.newRequest order st item n b) hm hi hshelved hl rfl (t.newRequestState_ne_picked st n b) rfl rfl

/-- The items of one order, judged in turn (R108). -/
theorem Kept.requestItems (order st : Nat) (l : List Nat) (h : Kept s t) (acc : List (Option RefusalCode × Nat)) :
    Kept s (l.foldl (requestOne order st) (t, acc)).1 := by
  induction l generalizing t acc with
  | nil => exact h
  | cons item l ih =>
    rw [List.foldl_cons]
    unfold requestOne
    split
    · exact ih h _
    next hr => exact ih (h.takeItem hr) _

/-! ### Scans (R96 to R99, R114, R124 to R132) -/

theorem Kept.refusedScan (h : Kept s t) (st : Nat) (c : ScanCode) : Kept s (t.refusedScan st c).state := h.same ((Same.refl t).refuseScan st c)

theorem Kept.scan_ite {p : Prop} [Decidable p] {a b : Scanned} (ha : Kept s a.state) (hb : Kept s b.state) :
    Kept s (if p then a else b).state := by
  split
  · exact ha
  · exact hb

theorem Kept.takeScan {q : ScanKind} {body : State → Nat → Station → Scanned}
    (hb : ∀ x, s.stations.look st = some x → Kept s (body (s.endHold st) st x).state) : Kept s (s.takeScan q body st) := by
  unfold State.takeScan
  split
  · exact .refl s
  next x hx =>
    have hscan : Kept s (match (s.endHold st).scanRefusal q x with
        | some c => (s.endHold st).refusedScan st c
        | none => body (s.endHold st) st x).state := by
      split
      · exact ((Same.refl s).endHold st).kept.refusedScan st _
      · exact hb x hx
    exact .ite hscan.settleWing hscan

theorem Kept.scanOut (h : Kept s t) (item st : Nat) (x : Station) : Kept s (State.scanOut item t st x).state := by
  unfold State.scanOut
  split
  · exact h.refusedScan _ _
  next i hi =>
    split
    next r n hr hh =>
      split
      · exact h.refusedScan _ _
      next hs =>
        refine .scan_ite (h.refusedScan _ _) (.scan_ite (h.refusedScan _ _) ?_)
        have hitem : r.item = item := by
          have := List.find?_some hr
          rw [Bool.and_eq_true] at this
          exact of_decide_eq_true this.1
        refine h.moved ?_ fun hm hstock =>
          hstock.pickItem hm hi (not_not.1 hs) hh (List.mem_of_find?_eq_some hr) hitem st
        exact ((((SameWing.refl t).modItem item _).modBin n _).setRequests _).of_same ((Same.refl _).reportRequest _ _ _)
    · exact h.refusedScan _ _

theorem Kept.scanIn (h : Kept s t) {item st : Nat} {x y : Station} (hy : t.stations.look st = some y) (hr : y.returns = x.returns) :
    Kept s (State.scanIn item t st x).state := by
  unfold State.scanIn
  split
  · exact h.refusedScan _ _
  next i hi =>
    split
    · exact h.refusedScan _ _
    next n ht =>
      split
      · exact h.refusedScan _ _
      next hs =>
        split
        · exact h.refusedScan _ _
        next he =>
          refine .scan_ite (h.refusedScan _ _) (.scan_ite (h.refusedScan _ _) ?_)
          have hentry : ∃ e ∈ y.returns, e.item = item := by
            rw [hr]
            simpa using he
          refine h.moved ?_ fun hm hstock => hstock.shelveItem hm hi (not_not.1 hs) ht hy hentry
          exact ((((SameWing.refl t).modItem item _).modBin n _).modStation st _).of_same ((Same.refl _).report _ _ _)

theorem Kept.bringTarget (h : Kept s t) (st n : Nat) : Kept s (t.bringTarget st n).state := by
  unfold State.bringTarget
  split
  · exact h
  · split
    · exact Kept.ite (h.same ((Same.refl t).offerPresent st)) h
    · exact h.callBin n st _
    · exact h.same ((Same.refl t).modBin n _)

/-- The candidate that selection gives has room for the item (R50). -/
theorem State.chooseTarget_fits (hw : s.bins.wf = true) {thick cls : Nat} {home : Option Nat} (h : s.chooseTarget st thick cls home = some n) :
    ∃ b, s.bins.look n = some b ∧ b.fill + b.reserved + thick ≤ b.capacity := by
  obtain ⟨-, -, -, -, -, hsome⟩ := returnTargetIsTheFirstChoice s st thick cls home hw
  obtain ⟨hc, -⟩ := hsome n h
  rw [isCandidate_iff, isLaneCandidate_iff, isRackCandidate_iff] at hc
  rcases hc with ⟨b, hb, ⟨-, hfits⟩, -⟩ | ⟨b, hb, ⟨-, hfits⟩, -⟩ <;> exact ⟨b, hb, hfits⟩

theorem SameWing.acceptReturn (t : State) (st k n rise : Nat) :
    SameWing t (((((t.modItem k fun i => { i with state := .returning, target := some n }).modBin n fun b => b.reserve rise).modStation
      st fun x => { x with returns := x.returns ++ [{ item := k, target := n }] })).report .returnAccepted (.item k) (some (.number n))) :=
  ((((SameWing.refl t).modItem k _).modBin n _).modStation st _).of_same ((Same.refl _).report _ _ _)

/-- A HELD item goes back to its usable home bin (R126). -/
theorem Kept.returnHome (h : Kept s t) {x y : Station} {b : Bin} (hi : t.items.look k = some i) (hx : t.stations.look st = some x)
    (hb : t.usableHome y st i = some (n, b)) : Kept s (t.acceptReturn st k n 0).state := by
  obtain ⟨hh, hlook, hheld, -⟩ := State.usableHome_eq_some.1 hb
  refine Kept.bringTarget (h.moved (SameWing.acceptReturn t st k n 0) fun hm hs => ?_) st n
  exact ((Same.refl _).report .returnAccepted (.item k) (some (.number n))).stock
    (hs.returning hm hi hx hlook (.inl ⟨hheld, hh, rfl⟩))

theorem SameWing.releaseHeld (t : State) (i : Item) : SameWing t (t.releaseHeld i) := by
  unfold State.releaseHeld
  split
  · exact (SameWing.refl t).modBin _ _
  · exact .refl t

/-- An item that is out goes to the target that selection gives, or into OVERFLOW (R127, R130). -/
theorem Kept.selectReturn (h : Kept s t) {x : Station} (hi : t.items.look k = some i) (hx : t.stations.look st = some x)
    (hs : i.state = .held ∨ i.state = .lent ∨ i.state = .overflow) : Kept s ((t.releaseHeld i).selectReturn st k i).state := by
  have hw := SameWing.releaseHeld t i
  unfold State.selectReturn
  split
  next n hn =>
    refine Kept.bringTarget (h.moved (hw.trans (SameWing.acceptReturn _ st k n i.thickness)) fun hm hstock => ?_) st n
    have hgo := hstock.letGo hi hs
    obtain ⟨b, hb, hfits⟩ := State.chooseTarget_fits (s := t.releaseHeld i) hgo.bins hn
    have hitems : (t.releaseHeld i).items = t.items := by rw [State.releaseHeld_eq]
    have hstations : (t.releaseHeld i).stations = t.stations := by rw [State.releaseHeld_eq]
    have hback := hgo.returning (k := k) (i := { i with state := .overflow, target := none }) (rise := i.thickness) (hw.mode.trans hm)
      (by rw [State.modItem_items, Table.look_adjust_same, hitems, hi]; rfl) (hstations ▸ hx) hb (.inr ⟨.inr rfl, rfl, hfits⟩)
    refine ((Same.refl _).report .returnAccepted (.item k) (some (.number n))).stock ?_
    simp only [State.modItem_items, Table.adjust_adjust] at hback
    exact hback
  · refine h.moved ((hw.modItem k _).of_same ((Same.refl _).report _ _ _)) fun _ hstock => ?_
    exact ((Same.refl _).report .returnOverflow (.item k) (some (.number st))).stock (hstock.letGo hi hs)

theorem returnRefusal_eq_none {x : Station} (h : s.returnRefusal x st i = none) :
    i.state = .held ∨ i.state = .lent ∨ i.state = .overflow := by
  unfold State.returnRefusal at h
  split at h
  · cases h
  · split at h
    · cases h
    · cases hs : i.state <;> simp_all

theorem Kept.scanReturn (h : Kept s t) {item st : Nat} {x y : Station} (hy : t.stations.look st = some y) :
    Kept s (State.scanReturn item t st x).state := by
  unfold State.scanReturn
  split
  · exact h.refusedScan _ _
  next i hi =>
    split
    · exact h.refusedScan _ _
    next hr =>
      split
      next n b hb => exact h.returnHome hi hy hb
      · exact h.selectReturn hi hy (returnRefusal_eq_none hr)

theorem Kept.settleLeftOver (h : Kept s t) (n st : Nat) : Kept s (t.settleLeftOver n st) := by
  unfold State.settleLeftOver
  refine .ite ?_ h
  split
  · exact h.same (((Same.refl t).modBin n _).delayRequests n st)
  · exact .ite (h.same ((Same.refl t).delayRequests n st))
      ((h.failRequests (fun _ => State.standsFor_not_picked) _).displaceAt _ _ _)

theorem Kept.createStore (h : Kept s t) (n st : Nat) : Kept s (t.createStore n st) := by
  unfold State.createStore
  split
  · exact h
  · exact h.addJob _ _

theorem Kept.releaseToStore (h : Kept s t) (n st : Nat) : Kept s (t.releaseToStore n st) :=
  (((h.same ((Same.refl t).popLane st)).settleLeftOver n st).same (((Same.refl _).setBinState n _).clearTrip n)).createStore n st

theorem Kept.afterPop (h : Kept s t) (st : Nat) : Kept s (t.afterPop st).state := h.same ((Same.refl t).presentTop st)

theorem Kept.topDone (h : Kept s t) (n st : Nat) : Kept s (t.topDone n st).state :=
  .scan_ite (h.refusedScan _ _) (.scan_ite (h.refusedScan _ _) (.scan_ite (h.refusedScan _ _) ((h.releaseToStore _ _).afterPop _)))

theorem Kept.scanDone (h : Kept s t) (l st : Nat) (x : Station) : Kept s (State.scanDone l t st x).state :=
  .scan_ite ((h.same ((Same.refl t).popLane st)).afterPop st)
    (.scan_ite (h.topDone _ _) (.scan_ite (h.refusedScan _ _) (.scan_ite (h.refusedScan _ _) (h.refusedScan _ _))))

theorem Kept.scans (s : State) (st item : Nat) :
    Kept s (s.takeScan .itemOut (State.scanOut item) st) ∧ Kept s (s.takeScan .itemIn (State.scanIn item) st)
      ∧ Kept s (s.takeScan .returned (State.scanReturn item) st) ∧ Kept s (s.takeScan .binDone (State.scanDone item) st) := by
  have hhold := ((Same.refl s).endHold st).kept
  refine ⟨.takeScan fun x _ => hhold.scanOut item st x, .takeScan fun x hx => hhold.scanIn (endHold_look hx) rfl,
    .takeScan fun x hx => hhold.scanReturn (endHold_look hx), .takeScan fun x _ => hhold.scanDone item st x⟩

end

end Sys2Proof.Machine
end

section
/-! The orders of wing work keep the laws (R187): in IN_SERVICE alone are they taken. -/
namespace Sys2Proof.Machine

/-- The state that a verdict gives, if it accepts, keeps the laws. -/
def Verdict.upholds (s : State) : Verdict → Prop
  | .accept t _ => Upholds s t
  | .refuse _ _ => True

section
variable {s t u : State} {a n st z tag : Nat} {x : Aisle} {j : Job} {v w : Verdict}

/-! ### Verdicts -/

theorem upholds_refuseOr {c : Option RefusalCode} (h : c = none → v.upholds s) : (refuseOr c v).upholds s := by
  cases c with
  | none => exact h rfl
  | some c => trivial

theorem upholds_ite {p : Prop} [Decidable p] (hv : p → v.upholds s) (hw : ¬p → w.upholds s) : (if p then v else w).upholds s := by
  split
  · exact hv ‹_›
  · exact hw ‹_›

theorem upholds_found (r : Option Result) (c : RefusalCode) : (found s r c).upholds s := by
  cases r with
  | none => trivial
  | some r => exact .refl s

/-- An order keeps the laws when its own rule does; one of wing work is judged in IN_SERVICE alone (R187). -/
theorem Upholds.judgeOrder {k : OrderKind} {ok : Bool} {rule : State → Verdict}
    (h : (k.wingWork = true → s.mode = .inService) → (rule s).upholds s) : Upholds s (s.judgeOrder k tag ok rule) := by
  unfold State.judgeOrder
  split
  · exact ((Same.refl s).reply _).upholds
  next hpass =>
    have hv := h fun hwing => by
      unfold State.orderRefusal at hpass
      split at hpass
      · cases hpass
      · split at hpass
        · cases hpass
        · split at hpass
          · cases hpass
          next hin => exact State.isInService_iff.1 (by simpa [hwing] using hin)
    unfold State.answer
    split
    next t r heq =>
      rw [heq] at hv
      exact Upholds.same hv ((Same.refl _).reply _)
    · exact ((Same.refl s).reply _).upholds

/-! ### Lending orders -/

theorem upholds_orderRequestItem (tag st : Nat) (l : List Nat) (s : State) : Upholds s (orderRequestItem tag st l s) :=
  .judgeOrder fun hm => ((Kept.refl s).requestItems tag st l []).upholds (hm rfl)

theorem upholds_orderWithdrawRequest (tag k : Nat) (s : State) : Upholds s (orderWithdrawRequest tag k s) := by
  refine .judgeOrder fun hm => upholds_ite (fun _ => trivial) fun _ => ?_
  split
  · trivial
  next r hr => exact upholds_ite (fun _ => trivial) fun hp => ((Kept.refl s).withdraw (List.mem_of_find?_eq_some hr) hp).upholds (hm rfl)

theorem upholds_orderConfirmLoan (tag k ref : Nat) (s : State) : Upholds s (orderConfirmLoan tag k ref s) :=
  .judgeOrder fun hm => upholds_refuseOr fun h => by
    obtain ⟨i, hi, hp⟩ := loanRefusal_eq_none h
    exact ((Kept.refl s).lend hi hp).upholds (hm rfl)

theorem upholds_orderCancelLoan (tag k ref : Nat) (s : State) : Upholds s (orderCancelLoan tag k ref s) :=
  .judgeOrder fun hm => upholds_refuseOr fun h => ((Kept.refl s).withhold fun _ => loanRefusal_eq_none h).upholds (hm rfl)

/-! ### Bin orders -/

theorem Job.markCall_of_transfer {n st : Nat} {j : Job} (hk : j.kind = .transfer) : j.markCall n st = j := by
  simp [Job.markCall, servesTrip, Job.boundFor, hk]

theorem Job.markCall_kind (n st : Nat) (j : Job) : (j.markCall n st).kind = j.kind := by
  unfold Job.markCall
  split <;> rfl

theorem Aisle.Sound.hands_markCall (hs : x.Sound) (n st : Nat) : x.Hands nothing (x.markCall n st) := by
  have hc : (x.markCall n st).crane.Sound := by
    refine ⟨fun hb => ?_, fun hb => ?_, fun hb => ?_, fun hb => ?_, ?_, ?_, fun ha => ?_, fun r k hr hk => ?_⟩
    · obtain ⟨h1, h2⟩ := hs.crane.busy hb
      exact ⟨(Option.isSome_map ..).trans h1, by simp [Aisle.markCall, h2]⟩
    · simp [Aisle.markCall, hs.crane.staged hb]
    · simp [Aisle.markCall, hs.crane.resting hb]
    · simp [Aisle.markCall, hs.crane.lost hb]
    · exact hs.crane.phase.trans (Option.isSome_map ..).symm
    · exact hs.crane.deadline.trans (Option.isSome_map ..).symm
    · exact hs.crane.retry (Option.map_eq_none_iff.1 ha)
    · obtain ⟨r', hr', -⟩ := Option.map_eq_some_iff.1 hr
      obtain ⟨k', hk', rfl⟩ := Option.map_eq_some_iff.1 hk
      rw [Job.markCall_kind]
      exact hs.crane.beside r' k' hr' hk'
  refine ⟨⟨hc, hs.service⟩, rfl, fun k hk hkt => .inl ?_⟩
  rw [Aisle.mem_jobs] at hk ⊢
  rcases hk with hk | hk | hk | ⟨r, hr, rfl⟩
  · exact .inl (List.mem_map.2 ⟨k, hk, Job.markCall_of_transfer hkt⟩)
  · exact .inr (.inl (by simp [Aisle.markCall, hk, Job.markCall_of_transfer hkt]))
  · exact .inr (.inr (.inl (by simp [Aisle.markCall, hk, Job.markCall_of_transfer hkt])))
  · exact .inr (.inr (.inr ⟨{ r with job := r.job.markCall n st }, by simp [Aisle.markCall, hr], Job.markCall_of_transfer hkt⟩))

theorem Kept.markCall (h : Kept s t) (n st : Nat) : Kept s (t.setAisles (t.aisles.mapRecords fun _ x => x.markCall n st)) :=
  h.everyAisle (g := fun _ x => x.markCall n st) { SameStock.refl t with } (Table.wf_mapRecords t.aisles fun _ x => x.markCall n st)
    (fun b => Table.look_mapRecords t.aisles (fun _ x => x.markCall n st) b) fun _ _ _ hs => (hs.hands_markCall n st).any

theorem upholds_orderCallBin (tag n st : Nat) (s : State) : Upholds s (orderCallBin tag n st s) := by
  refine .judgeOrder fun hm => upholds_ite (fun _ => trivial) fun _ => ?_
  have hm := hm rfl
  split
  · trivial
  · split
    · trivial
    · exact upholds_ite (fun _ => trivial) fun _ => upholds_ite (fun _ => trivial) fun _ =>
        upholds_ite (fun _ => ((Kept.refl s).markCall n st).upholds hm) fun _ =>
          upholds_refuseOr fun _ => ((Kept.refl s).callBin n st _).settleWing.upholds hm

theorem upholds_orderAuditBin (tag n : Nat) (s : State) : Upholds s (orderAuditBin tag n s) := by
  refine .judgeOrder fun hm => ?_
  split
  · trivial
  · refine upholds_refuseOr fun _ => (Kept.settleWing (Kept.addJob (Same.kept ?_) _ _)).upholds (hm rfl)
    exact .ite ((Same.refl s).modBin n _) (.refl s)

theorem upholds_orderReleaseBin (tag n : Nat) (s : State) : Upholds s (orderReleaseBin tag n s) := by
  refine .judgeOrder fun _ => ?_
  split
  · trivial
  · exact upholds_refuseOr fun _ => ((Same.refl s).releaseBin n).upholds

/-! ### MOVE_BIN (R16) -/

theorem State.notMem_slots {v : Slot} (h : s.slotTaken v = false) : v ∉ s.bins.flatMap fun e => e.2.slots := fun hv => by
  obtain ⟨e, he, hve⟩ := List.mem_flatMap.1 hv
  have := List.any_eq_false.1 h e he
  rcases List.mem_cons.1 hve with rfl | hp
  · simp at this
  · rw [Option.mem_toList] at hp
    simp [hp] at this

theorem State.slotInBounds_of_geom {v : Slot} (h : (u.aisles.look v.aisle).map (·.geom) = (s.aisles.look v.aisle).map (·.geom)) :
    u.slotInBounds v = s.slotInBounds v := by
  unfold State.slotInBounds
  cases hu : u.aisles.look v.aisle <;> cases hs : s.aisles.look v.aisle <;> simp_all

/-- The bin has its new slot, and the TRANSFER that brings it there names it. -/
theorem Upholds.moveBinTo {b : Bin} {new : Slot} (hm : s.mode = .inService) (hb : s.bins.look n = some b)
    (hbounds : s.slotInBounds new = true) (hfree : s.slotTaken new = false) (haisle : new.aisle = b.home.aisle) :
    Upholds s (s.moveBinTo n b.home new) := by
  have hkept : Kept s (s.addJob b.home.aisle (transferJob n b.home new)) := (Kept.refl s).addJob _ _
  have hcommutes : s.moveBinTo n b.home new =
      (s.addJob b.home.aisle (transferJob n b.home new)).modBin n fun b => { b with pendingHome := some new, state := .called } := rfl
  rw [hcommutes]
  generalize hu : s.addJob b.home.aisle (transferJob n b.home new) = u at hkept
  have hubins : u.bins = s.bins := by rw [← hu]; rfl
  have huaisles : u.aisles = s.aisles.adjust b.home.aisle fun x =>
      { x with queue := joinQueue x.queue (transferJob n b.home new s.jobTag) } := by rw [← hu]; rfl
  have hin : u.slotInBounds new = true := by
    refine (State.slotInBounds_of_geom ?_).trans hbounds
    rw [huaisles, haisle, Table.look_adjust_same, Option.map_map]
    rfl
  have htransfers : u.Transfers n := by
    unfold State.slotInBounds at hbounds
    cases hx : s.aisles.look new.aisle with
    | none => simp [hx] at hbounds
    | some y =>
      refine ⟨b.home.aisle, { y with queue := joinQueue y.queue (transferJob n b.home new s.jobTag) }, transferJob n b.home new s.jobTag,
        ?_, Aisle.mem_jobs.2 (.inl (mem_joinQueue.2 (.inl rfl))), rfl, rfl⟩
      rw [huaisles, Table.look_adjust_same, ← haisle, hx]
      rfl
  refine ⟨fun hc => { hkept.cranes hm hc with }, fun hc hh => ?_, fun hs => (hkept.stock hm hs).modBin (fun _ => rfl) fun _ => rfl⟩
  have hu' := hkept.homes hm hc hh
  have hmu : u.mode = .inService := hkept.mode.trans hm
  obtain ⟨rest, hold, hnew⟩ := flatMap_adjust_split Bin.slots (hubins ▸ hb : u.bins.look n = some b)
  have hnd := hold.nodup_iff.1 (hu'.apart hmu)
  have hnot : new ∉ b.slots ++ rest := fun hv => State.notMem_slots hfree (hubins ▸ hold.mem_iff.2 hv)
  refine ⟨by simpa using hu'.wf, fun _ => ?_, fun _ m c v hc' hv => ?_, fun m c hc' hp => ?_⟩
  · refine (hnew _).nodup_iff.2 ?_
    rw [List.mem_append, not_or] at hnot
    rw [List.nodup_append] at hnd ⊢
    obtain ⟨-, hrest, hdisj⟩ := hnd
    have hne : b.home ≠ new := fun he => hnot.1 (he ▸ List.mem_cons_self)
    refine ⟨by simp [Bin.slots, hne], hrest, fun v hv w hw => ?_⟩
    simp only [Bin.slots, Option.toList_some, List.mem_cons, List.not_mem_nil, or_false] at hv
    rcases hv with rfl | rfl
    · exact hdisj _ List.mem_cons_self _ hw
    · exact fun he => hnot.2 (he ▸ hw)
  · rw [State.modBin_bins, Table.look_adjust] at hc'
    split at hc'
    · obtain ⟨d, hd, rfl⟩ := Option.map_eq_some_iff.1 hc'
      simp only [Bin.slots, Option.toList_some, List.mem_cons, List.not_mem_nil, or_false] at hv
      rcases hv with rfl | rfl
      · exact hu'.inBounds hmu m d _ (by rename_i he; exact he ▸ hd) List.mem_cons_self
      · exact hin
    · exact hu'.inBounds hmu m c v hc' hv
  · rw [State.modBin_bins, Table.look_adjust] at hc'
    split at hc'
    next he => exact he ▸ htransfers
    · exact hu'.named m c hc' hp

theorem upholds_orderMoveBin (tag n : Nat) (f : SlotField) (s : State) : Upholds s (orderMoveBin tag n f s) := by
  refine .judgeOrder fun hm => ?_
  have hm := hm rfl
  split
  · trivial
  next v _ =>
    split
    · trivial
    next b hb =>
      split
      · trivial
      · refine upholds_refuseOr fun hc => ?_
        simp only [firstRefusal_eq_none, List.forall_mem_cons, Bool.not_eq_false', decide_eq_true_eq] at hc
        obtain ⟨haisle, hbounds, hfree, -⟩ := hc
        have hmoved := Upholds.moveBinTo hm hb hbounds hfree haisle
        exact hmoved.trans ((Kept.refl _).settleWing.upholds hm)

/-! ### Aisle, zone and fault orders -/

theorem upholds_orderAisleOut (tag a : Nat) (s : State) : Upholds s (orderAisleOut tag a s) := by
  refine .judgeOrder fun hm => upholds_ite (fun _ => trivial) fun _ => ?_
  split
  · trivial
  next x hx =>
    refine Kept.upholds ?_ (hm rfl)
    unfold State.aisleOut
    split
    case h_1 | h_2 => exact .refl s
    next hs =>
      split
      next hfree =>
        refine Kept.settleWing (Kept.takeOut (Kept.modAisle_safe (a := a) ((Kept.refl s).dropQueuedPark a) fun y _ hy => ?_) fun y hy => ?_)
        · exact ⟨⟨hy.crane.alike rfl rfl rfl rfl rfl rfl hy.crane.retry, hy.service⟩, rfl, fun _ hk _ => .inl hk⟩
        · simp only [State.dropQueuedPark, State.modCrane, State.modAisle_aisles, Table.look_adjust_same, hx, Option.map_some,
            Option.some.injEq] at hy
          rw [← hy]
          exact hfree
      · refine Kept.settleWing ?_
        rw [State.setService_of_ne hx (by rw [hs]; decide)]
        refine (Kept.refl s).adjust { SameStock.refl s with } rfl fun y hy hsound => ?_
        obtain rfl := Option.some.inj (hx.symm.trans hy)
        have hlost : ¬x.crane.state.lost = true := fun hl => by
          rw [hsound.service.2 hl] at hs
          cases hs
        exact ⟨⟨hsound.crane, iff_of_false nofun hlost⟩, rfl, fun _ hk _ => .inl hk⟩

/-- The crane of an aisle that comes back into service holds nothing. -/
theorem Aisle.Sound.hands_back (hs : x.Sound) (ho : x.service = .outOfService) {v : CraneState} (hb : v ≠ .busy) (hl : v.lost = false)
    {q : List Job} (hq : ∀ k ∈ x.queue, k ∈ q) :
    x.Hands nothing { x with service := .inService, queue := q, crane := { x.crane with position := none, state := v } } := by
  have hlost := hs.service.1 ho
  have hactive := hs.crane.resting (.inr hlost)
  have hstaged := hs.crane.staged fun h => by rw [h] at hlost; cases hlost
  have hp : x.crane.phase = none := by simpa [hactive] using hs.crane.phase
  have hd : x.crane.deadline = none := by simpa [hactive] using hs.crane.deadline
  refine ⟨⟨Crane.sound_of_jobless hb hactive hstaged hp hd (hs.crane.retry hactive) fun h => ?_, iff_of_false nofun ?_⟩, rfl,
    fun k hk _ => .inl ?_⟩
  · rw [hl] at h
    cases h
  · exact fun h => by rw [hl] at h; cases h
  · rw [Aisle.mem_jobs] at hk ⊢
    exact hk.imp_left (hq k)

theorem Kept.aisleIn (hx : s.aisles.look a = some x) (ho : x.service = .outOfService) : Kept s (s.aisleIn a x) := by
  unfold State.aisleIn
  refine Kept.settleWing ?_
  rw [State.setService_of_ne hx (by rw [ho]; decide)]
  split
  case h_1 | h_2 =>
    refine (Kept.refl s).adjust { SameStock.refl s with } ((Table.adjust_adjust _ _ _ _).trans (Table.adjust_adjust _ _ _ _)) fun y hy hs => ?_
    obtain rfl := Option.some.inj (hx.symm.trans hy)
    exact (hs.hands_back ho (v := .stopped) nofun rfl fun _ => id).any
  · refine (Kept.refl s).adjust { SameStock.refl s with }
      ((Table.adjust_adjust _ _ _ _).trans ((Table.adjust_adjust _ _ _ _).trans (Table.adjust_adjust _ _ _ _))) fun y hy hs => ?_
    obtain rfl := Option.some.inj (hx.symm.trans hy)
    exact (hs.hands_back ho (v := .parking) nofun rfl fun _ hk => mem_joinQueue.2 (.inr hk)).any

theorem upholds_orderAisleIn (tag a : Nat) (s : State) : Upholds s (orderAisleIn tag a s) := by
  refine .judgeOrder fun hm => upholds_ite (fun _ => trivial) fun _ => ?_
  split
  · trivial
  next x hx => exact upholds_ite (fun _ => trivial) fun ho => (Kept.aisleIn hx (not_not.1 ho)).upholds (hm rfl)

theorem upholds_orderShutZone (tag z : Nat) (s : State) : Upholds s (orderShutZone tag z s) := by
  refine .judgeOrder fun hm => upholds_ite (fun _ => trivial) fun _ => ?_
  split
  · trivial
  case h_2 | h_3 => exact .refl s
  · exact ((Kept.refl s).enterShutdown z).settleWing.upholds (hm rfl)

theorem upholds_orderRestoreZone (tag z : Nat) (force key : Bool) (s : State) : Upholds s (orderRestoreZone tag z force key s) := by
  refine ((Same.refl s).setKeyLine key).upholds.trans (.judgeOrder fun hm => upholds_ite (fun _ => trivial) fun _ => ?_)
  split
  · trivial
  · exact upholds_refuseOr fun _ => ((Kept.refl _).enterRestoring z).settleWing.upholds (hm rfl)

theorem upholds_orderAckFault (tag k : Nat) (s : State) : Upholds s (orderAckFault tag k s) :=
  .judgeOrder fun _ => upholds_refuseOr fun _ => ((Same.refl s).setFaults _).upholds

end

end Sys2Proof.Machine
end

section
/-! The loads of records keep the laws (R194): those of the wing's tables, and those of the Bin Map and the Item Directory, which
carry the figures of the bins with them (R12 to R15, R31 to R34). -/
namespace Sys2Proof.Machine

section
variable {s t u : State} {a n st z tag k : Nat} {x : Aisle} {i j : Item} {b c : Bin} {v w : Verdict} {m : Table Bin} {l : Table Item}

/-! ### Verdicts of loads -/

theorem upholds_badFieldUnless {ok : Bool} (h : ok = true → v.upholds s) : (badFieldUnless ok v).upholds s :=
  upholds_ite h fun _ => trivial

theorem upholds_lockedInService (h : s.mode = .commissioning → v.upholds s) : (s.lockedInService v).upholds s :=
  upholds_ite (fun _ => trivial) fun hm => h (by
    rcases s.mode.inService_or_commissioning with hs | hs
    · exact absurd (State.isInService_iff.2 hs) hm
    · exact hs)

theorem State.commissioning_of_not (h : ¬s.isInService = true) : s.mode = .commissioning :=
  s.mode.inService_or_commissioning.resolve_left fun hs => h (State.isInService_iff.2 hs)

/-! ### Tables that no law reads, and stations -/

theorem Upholds.storeZone (s : State) (z w : Nat) : Upholds s (s.storeZone z w) := by
  refine Same.upholds ?_
  unfold State.storeZone
  split
  · exact (Same.refl s).modZone z _
  · exact { Same.refl s with }

theorem Upholds.storeConcentrator (s : State) (n address zone period : Nat) : Upholds s (s.storeConcentrator n address zone period) := by
  refine Same.upholds ?_
  unfold State.storeConcentrator
  split
  · exact (Same.refl s).modConcentrator n _
  · exact { Same.refl s with }

theorem Upholds.storeShutter (s : State) (n address zone : Nat) : Upholds s (s.storeShutter n address zone) := by
  refine Same.upholds ?_
  unfold State.storeShutter
  split
  · exact (Same.refl s).modShutter n _
  · exact { Same.refl s with }

/-- A new station has no return entry. -/
theorem Stock.newStation (h : Stock s) {y : Station} (hn : s.stations.look st = none) (hy : y.returns = []) :
    Stock (s.setStations (s.stations.put st y)) := by
  have hperm : (s.setStations (s.stations.put st y)).returnEntries.Perm s.returnEntries := by
    have := flatMap_put (x := y) Station.returns hn
    rw [hy] at this
    exact this
  refine { h with stations := Table.wf_put _ _ _ h.stations, owes := h.owes.perm hperm, idle := fun hm => ⟨(h.idle hm).1, ?_⟩ }
  rw [(h.idle hm).2] at hperm
  exact List.perm_nil.1 hperm

theorem Upholds.storeStation (s : State) (st : Nat) (f : StationFields) : Upholds s (s.storeStation st f) := by
  unfold State.storeStation
  split
  · exact ((Same.refl s).modStation st _).upholds
  next hn => exact ⟨fun hc => { hc with }, fun _ hh => { hh with }, fun hs => hs.newStation hn rfl⟩

theorem upholds_loads (s : State) :
    (∀ tag z w, Upholds s (orderLoadZoneRecord tag z w s))
    ∧ (∀ tag n address zone period, Upholds s (orderLoadConcentratorRecord tag n address zone period s))
    ∧ (∀ tag n address zone, Upholds s (orderLoadShutterRecord tag n address zone s))
    ∧ (∀ tag st f, Upholds s (orderLoadStationRecord tag st f s))
    ∧ (∀ tag address entry, Upholds s (orderLoadFieldAddress tag address entry s))
    ∧ (∀ tag k c, Upholds s (orderLoadReportClass tag k c s))
    ∧ ∀ tag p q r, Upholds s (orderLoadWingSettings tag p q r s) := by
  refine ⟨fun tag z w => ?_, fun tag n address zone period => ?_, fun tag n address zone => ?_, fun tag st f => ?_, fun tag address entry => ?_,
    fun tag k c => ?_, fun tag p q r => ?_⟩ <;> refine .judgeOrder fun _ => upholds_lockedInService fun _ => ?_
  case refine_5 =>
    split
    · exact upholds_badFieldUnless fun _ => Same.upholds { Same.refl s with }
    · exact upholds_badFieldUnless fun _ => Same.upholds { Same.refl s with }
  all_goals refine upholds_badFieldUnless fun _ => ?_
  · exact .storeZone s z w
  · exact .storeConcentrator s n address zone period
  · exact .storeShutter s n address zone
  · exact .storeStation s st _
  · exact Same.upholds { Same.refl s with }
  · exact Same.upholds { Same.refl s with }

/-! ### Geometry and retry lists (R1, R5, R69) -/

/-- The loaded fields of an aisle change; its jobs stand. -/
theorem Cranes.alter {f : Aisle → Aisle} (h : Cranes s) (hm : u.mode = s.mode) (ha : u.aisles = s.aisles.adjust a f)
    (hf : ∀ x, x.Sound → (f x).Sound) (hj : ∀ x, (f x).jobs = x.jobs) : Cranes u where
  wf := by rw [ha, Table.wf_adjust]; exact h.wf
  sound := fun b y hy => by
    rw [ha, Table.look_adjust] at hy
    split at hy
    · obtain ⟨x, hx, rfl⟩ := Option.map_eq_some_iff.1 hy
      exact hf x (h.sound _ x hx)
    · exact h.sound b y hy
  idle := fun hmode b y hy => by
    rw [ha, Table.look_adjust] at hy
    split at hy
    · obtain ⟨x, hx, rfl⟩ := Option.map_eq_some_iff.1 hy
      exact (hj x).trans (h.idle (hm ▸ hmode) _ x hx)
    · exact h.idle (hm ▸ hmode) b y hy

theorem State.Transfers.alter {f : Aisle → Aisle} (h : s.Transfers n) (ha : u.aisles = s.aisles.adjust a f)
    (hj : ∀ x, (f x).jobs = x.jobs) : u.Transfers n := by
  obtain ⟨b, x, j, hx, hjx, hk, hn⟩ := h
  by_cases hb : b = a
  · subst hb
    exact ⟨b, f x, j, by rw [ha, Table.look_adjust_same, hx]; rfl, (hj x).symm ▸ hjx, hk, hn⟩
  · exact ⟨b, x, j, by rw [ha, Table.look_adjust_ne _ _ hb]; exact hx, hjx, hk, hn⟩

/-- The loaded fields of an aisle change, and every slot of a bin stays in bounds. -/
theorem Upholds.alter {f : Aisle → Aisle} (hsame : SameStock s u) (ha : u.aisles = s.aisles.adjust a f)
    (hf : ∀ x, x.Sound → (f x).Sound) (hj : ∀ x, (f x).jobs = x.jobs)
    (hin : s.mode = .inService → Homes s → ∀ n b v, s.bins.look n = some b → v ∈ b.slots → s.slotInBounds v = true → u.slotInBounds v = true) :
    Upholds s u := by
  have hsm := hsame.same
  refine ⟨fun hc => hc.alter hsame.mode ha hf hj, fun hc hh => ?_, fun hs => { hsm.stock hs with }⟩
  have hv := hsm.wing.homes hh
  refine ⟨hv.wf, hv.apart, fun hm n c v hc' hv' => ?_, fun n c hc' hp => ?_⟩
  · have hm' : s.mode = .inService := hsame.mode ▸ hm
    obtain ⟨d, hd, hhome, hpend⟩ := hsm.wing.look_bin hc'
    have hslots : d.slots = c.slots := by rw [Bin.slots, Bin.slots, hhome, hpend]
    exact hin hm' hh n d v hd (hslots ▸ hv') (hh.inBounds hm' n d v hd (hslots ▸ hv'))
  · exact (hv.named n c hc' hp : s.Transfers n).alter ha hj

theorem Upholds.storeOffsets (s : State) (a : Nat) (l : List (Int × Int)) : Upholds s (s.storeOffsets a l) := by
  refine .alter (a := a) (f := fun x => { x with retry := l }) { SameStock.refl s with } rfl (fun x hx => ⟨hx.crane, hx.service⟩)
    (fun _ => rfl) fun _ _ n b v _ _ hv => ?_
  refine (State.slotInBounds_of_geom ?_).trans hv
  rw [State.storeOffsets, State.modAisle_aisles, Table.look_adjust]
  split
  next he => rw [he, Option.map_map]; rfl
  · rfl

theorem Aisle.Sound.rework (hs : x.Sound) (g : Geometry) : (x.rework g).Sound := by
  refine ⟨?_, hs.service.trans ?_⟩ <;> unfold Aisle.rework <;> dsimp only <;> split
  · exact hs.crane
  · exact hs.crane.alike rfl rfl rfl rfl rfl rfl hs.crane.retry
  all_goals exact Iff.rfl

theorem Aisle.rework_jobs (g : Geometry) (x : Aisle) : (x.rework g).jobs = x.jobs := by
  unfold Aisle.rework Aisle.jobs
  dsimp only
  split <;> rfl

theorem Upholds.rework {g : Geometry} (hfits : s.reworkFits a g = true) : Upholds s (s.modAisle a (Aisle.rework g)) := by
  refine .alter (a := a) (f := Aisle.rework g) { SameStock.refl s with } rfl (fun x hx => hx.rework g) (Aisle.rework_jobs g)
    fun _ hh n b v hb hv hin => ?_
  unfold State.reworkFits at hfits
  rw [Table.all_iff_look hh.wf] at hfits
  have hb' := hfits n b hb
  rw [Bool.and_eq_true] at hb'
  have hfit : fitsRework a g v = true := by
    rcases List.mem_cons.1 hv with rfl | hp
    · exact hb'.1
    · rw [Option.mem_toList] at hp
      rw [hp] at hb'
      exact hb'.2
  unfold State.slotInBounds at hin ⊢
  rw [State.modAisle_aisles, Table.look_adjust]
  by_cases he : v.aisle = a
  · subst he
    cases hx : s.aisles.look v.aisle with
    | none => simp [hx] at hin
    | some x => simpa [fitsRework, Aisle.rework, hx] using hfit
  · rw [if_neg he]
    exact hin

theorem Crane.sound_created : Crane.created.Sound := Crane.sound_of_jobless nofun rfl rfl rfl rfl rfl nofun

theorem Upholds.storeGeometry (hm : s.mode = .commissioning) (a : Nat) (g : Geometry) : Upholds s (s.storeGeometry a g) := by
  unfold State.storeGeometry
  split
  · exact .alter (a := a) (f := fun x => { x with geom := g }) { SameStock.refl s with } rfl (fun x hx => ⟨hx.crane, hx.service⟩)
      (fun _ => rfl) fun hm' => by rw [hm] at hm'; cases hm'
  next hn =>
    refine Upholds.same (t := s.setAisles (s.aisles.put a (Aisle.created g))) ?_ ((Same.refl _).report _ _ _)
    have hlook : Cranes s → ∀ b y, (s.aisles.put a (Aisle.created g)).look b = some y →
        y = Aisle.created g ∨ s.aisles.look b = some y := fun hc b y hy => by
      rw [Table.look_put _ _ _ _ hc.wf] at hy
      split at hy
      · exact .inl (Option.some.inj hy).symm
      · exact .inr hy
    refine ⟨fun hc => ⟨Table.wf_put _ _ _ hc.wf, fun b y hy => ?_, fun _ b y hy => ?_⟩, fun hc hh => ?_, fun hs => { hs with }⟩
    · rcases hlook hc b y hy with rfl | hy
      · exact ⟨Crane.sound_created, iff_of_false nofun nofun⟩
      · exact hc.sound b y hy
    · rcases hlook hc b y hy with rfl | hy
      · rfl
      · exact hc.idle hm b y hy
    · refine ⟨hh.wf, hh.apart, fun hm' => ?_, fun n b hb hp => ?_⟩
      · rw [show s.mode = .inService from hm'] at hm
        cases hm
      · exact absurd (hh.no_pending (hc.idle hm) hb) hp

theorem upholds_orderLoadRetryOffsetList (tag a : Nat) (l : List (Int × Int)) (key : Bool) (s : State) :
    Upholds s (orderLoadRetryOffsetList tag a l key s) := by
  refine ((Same.refl s).setKeyLine key).upholds.trans (.judgeOrder fun _ => ?_)
  split
  · trivial
  · exact upholds_ite (fun _ => trivial) fun _ => upholds_badFieldUnless fun _ => .storeOffsets _ a l

theorem upholds_orderLoadGeometryRecord (tag a : Nat) (g : Geometry) (key : Bool) (s : State) :
    Upholds s (orderLoadGeometryRecord tag a g key s) := by
  refine ((Same.refl s).setKeyLine key).upholds.trans (.judgeOrder fun _ => upholds_ite (fun _ => ?_) fun hm => ?_)
  · unfold State.reworkVerdict
    split
    · trivial
    · refine upholds_refuseOr fun hc => ?_
      simp only [firstRefusal_eq_none, List.forall_mem_cons, Bool.not_eq_false'] at hc
      obtain ⟨-, -, -, hfits, -⟩ := hc
      exact .rework hfits
  · exact upholds_badFieldUnless fun _ => .storeGeometry (State.commissioning_of_not hm) a g

end

end Sys2Proof.Machine
end

section
/-! The loads of the Bin Map and of the Item Directory keep the laws: a bin comes and goes empty (R12 to R14), and the figures of
the home bin follow an item (R31 to R34). -/
namespace Sys2Proof.Machine

section
variable {s t u : State} {a n st z tag k : Nat} {i j : Item} {b c : Bin} {v : Mode} {m m' : Table Bin} {l : Table Item}

/-! ### Bins that come and go (R12 to R14) -/

theorem itemSum_zero {w : Item → Nat} (hl : l.wf = true) (h : ∀ k i, l.look k = some i → w i = 0) : itemSum l w = 0 :=
  List.sum_eq_zero fun x hx => by
    obtain ⟨e, he, rfl⟩ := List.mem_map.1 hx
    exact h e.1 e.2 (Table.look_of_mem hl he)

/-- What an item takes, it takes of the bin that it is housed in. -/
theorem Item.Housed.takes (h : i.Housed m) :
    (∃ n, (m.look n).isSome = true ∧ (i.counting n = 1 ∨ i.reserving n = i.thickness)
      ∧ (∀ q, q ≠ n → i.filling q = 0 ∧ i.reserving q = 0 ∧ i.counting q = 0)
      ∧ ∀ m' : Table Bin, (m'.look n).isSome = true → i.Housed m')
    ∨ (∀ q, i.filling q = 0 ∧ i.reserving q = 0 ∧ i.counting q = 0) ∧ ∀ m' : Table Bin, i.Housed m' := by
  have hother : ∀ {p q r : Nat} {n q' : Nat}, q' ≠ n → (if q' = n then p else 0) = 0 := fun hne => if_neg hne
  unfold Item.Housed at h
  cases hs : i.state <;> simp only [hs] at h
  case shelved | requested =>
    obtain ⟨n, hh, hn⟩ := h
    have htakes := Item.takes_of_shelved (by simp [hs]) hh
    refine .inl ⟨n, hn, .inl (by rw [(htakes n).2.2, if_pos rfl]), fun q hq => ?_, fun m' hm' => ?_⟩
    · obtain ⟨h1, h2, h3⟩ := htakes q
      rw [h1, h2, h3]
      simp [hq]
    · unfold Item.Housed
      rw [hs]
      exact ⟨n, hh, hm'⟩
  case picked | held =>
    obtain ⟨n, hh, hn⟩ := h
    have htakes := Item.takes_of_held (by simp [hs]) hh
    refine .inl ⟨n, hn, .inr (by rw [(htakes n).2.1, if_pos rfl]), fun q hq => ?_, fun m' hm' => ?_⟩
    · obtain ⟨h1, h2, h3⟩ := htakes q
      rw [h1, h2, h3]
      simp [hq]
    · unfold Item.Housed
      rw [hs]
      exact ⟨n, hh, hm'⟩
  case returning =>
    obtain ⟨n, ht, hn⟩ := h
    have htakes := Item.takes_of_returning hs ht
    refine .inl ⟨n, hn, .inr (by rw [(htakes n).2.1, if_pos rfl]), fun q hq => ?_, fun m' hm' => ?_⟩
    · obtain ⟨h1, h2, h3⟩ := htakes q
      rw [h1, h2, h3]
      simp [hq]
    · unfold Item.Housed
      rw [hs]
      exact ⟨n, ht, hm'⟩
  case lent | overflow =>
    refine .inr ⟨Item.takes_of_out (by simp [hs]), fun m' => ?_⟩
    unfold Item.Housed
    rw [hs]
    trivial

theorem Item.Housed.elsewhere (h : i.Housed m) (hn : m.look n = none) : i.filling n = 0 ∧ i.reserving n = 0 ∧ i.counting n = 0 := by
  obtain ⟨q, hq, -, hother, -⟩ | ⟨hzero, -⟩ := h.takes
  · refine hother n fun he => ?_
    rw [← he, hn] at hq
    cases hq
  · exact hzero n

/-- An empty bin joins the Bin Map. -/
theorem Shelves.addBin (h : Shelves v m l) (hm : m.wf = true) (hl : l.wf = true) (hn : m.look n = none) (hf : b.fill = 0) (hr : b.reserved = 0)
    (hc : b.count = 0) : Shelves v (m.put n b) l := by
  have hzero := fun k i hk => (h.housed k i hk).elsewhere hn
  refine ⟨fun q c hq => ?_, fun hv q c hq => ?_, h.sized, fun k i hk => (h.housed k i hk).mono fun q hq => ?_⟩
  all_goals rw [Table.look_put _ _ _ _ hm] at *
  · split at hq
    next he =>
      obtain rfl := Option.some.inj hq
      subst he
      exact ⟨by rw [hf, itemSum_zero hl fun k i hk => (hzero k i hk).1], by rw [hr, itemSum_zero hl fun k i hk => (hzero k i hk).2.1],
        by rw [hc, itemSum_zero hl fun k i hk => (hzero k i hk).2.2]⟩
    · exact h.figures q c hq
  · split at hq
    · obtain rfl := Option.some.inj hq
      omega
    · exact h.room hv q c hq
  · split
    · rfl
    · exact hq

/-- An empty bin leaves the Bin Map. -/
theorem Shelves.removeBin (h : Shelves v m l) (hn : m.look n = some b) (hr : b.reserved = 0) (hc : b.count = 0) :
    Shelves v (m.remove n) l := by
  refine ⟨fun q c hq => ?_, fun hv q c hq => ?_, h.sized, fun k i hk => ?_⟩
  · rw [Table.look_remove] at hq
    split at hq
    · cases hq
    · exact h.figures q c hq
  · rw [Table.look_remove] at hq
    split at hq
    · cases hq
    · exact h.room hv q c hq
  · obtain ⟨q, hq, htakes, -, hback⟩ | ⟨-, hback⟩ := (h.housed k i hk).takes
    · refine hback _ ?_
      rw [Table.look_remove, if_neg fun he => ?_]
      · exact hq
      · subst he
        have hfig := h.figures q b hn
        have hcount := le_itemSum (w := Item.counting q) hk
        have hres := le_itemSum (w := Item.reserving q) hk
        have hsize := (h.sized k i hk).1
        rw [← hfig.count, hc] at hcount
        rw [← hfig.reserved, hr] at hres
        rcases htakes with ht | ht <;> omega
    · exact hback _

theorem upholds_orderBinMapAdd (tag n : Nat) (home : SlotField) (cap cls : Nat) (s : State) :
    Upholds s (orderBinMapAdd tag n home cap cls s) := by
  refine .judgeOrder fun _ => ?_
  split
  · trivial
  next f _ =>
    refine upholds_refuseOr fun hc => ?_
    simp only [firstRefusal_eq_none, List.forall_mem_cons] at hc
    obtain ⟨hnone, hbounds, hfree, -⟩ := hc
    have hn : s.bins.look n = none := Option.not_isSome_iff_eq_none.1 (by simpa using hnone)
    have hin : s.mode = .inService → s.slotInBounds f = true ∧ s.slotTaken f = false := fun hm => by
      rw [State.isInService_iff.2 hm, Bool.true_and] at hbounds hfree
      exact ⟨by simpa using hbounds, hfree⟩
    refine ⟨fun h => { h with }, fun hc hh => ?_, fun hs => { hs with
      bins := Table.wf_put _ _ _ hs.bins, shelves := hs.shelves.addBin hs.bins hs.items hn rfl rfl rfl }⟩
    have hlook : ∀ q c, (s.bins.put n (Bin.created f cap cls)).look q = some c → c = Bin.created f cap cls ∨ s.bins.look q = some c :=
      fun q c hq => by
        rw [Table.look_put _ _ _ _ hh.wf] at hq
        split at hq
        · exact .inl (Option.some.inj hq).symm
        · exact .inr hq
    refine ⟨Table.wf_put _ _ _ hh.wf, fun hm => ?_, fun hm q c v hq hv => ?_, fun q c hq hp => ?_⟩
    · refine ((flatMap_put (x := Bin.created f cap cls) Bin.slots hn).nodup_iff).2 ?_
      exact List.nodup_cons.2 ⟨State.notMem_slots (hin hm).2, hh.apart hm⟩
    · rcases hlook q c hq with rfl | hq
      · obtain rfl := List.mem_singleton.1 hv
        exact (hin hm).1
      · exact hh.inBounds hm q c v hq hv
    · rcases hlook q c hq with rfl | hq
      · exact absurd rfl hp
      · exact hh.named q c hq hp

theorem upholds_orderBinMapRetire (tag n : Nat) (s : State) : Upholds s (orderBinMapRetire tag n s) := by
  refine .judgeOrder fun _ => upholds_ite (fun _ => trivial) fun _ => ?_
  split
  · trivial
  next b hb =>
    refine upholds_refuseOr fun hc => ?_
    simp only [State.retireRefusal, firstRefusal_eq_none, List.forall_mem_cons, Bool.or_eq_false_iff, decide_eq_false_iff_not] at hc
    obtain ⟨-, -, -, ⟨hcount, hres⟩, -⟩ := hc
    have hlook : ∀ q c, (s.bins.remove n).look q = some c → s.bins.look q = some c := fun q c hq => by
      rw [Table.look_remove] at hq
      split at hq
      · cases hq
      · exact hq
    refine ⟨fun h => { h with }, fun hc hh => ⟨Table.wf_remove _ _ hh.wf, fun hm => ?_, fun hm q c v hq => hh.inBounds hm q c v (hlook q c hq),
      fun q c hq => hh.named q c (hlook q c hq)⟩, fun hs => { hs with
        bins := Table.wf_remove _ _ hs.bins, shelves := hs.shelves.removeBin hb (by omega) (by omega) }⟩
    exact (hh.apart hm).sublist (List.filter_sublist.flatMap _)

theorem upholds_orderBinMapEdit (tag n : Nat) (home : SlotField) (cap cls : Nat) (s : State) :
    Upholds s (orderBinMapEdit tag n home cap cls s) := by
  refine .judgeOrder fun _ => upholds_ite (fun hm => ?_) fun hm => ?_
  · unfold State.rerateVerdict
    split
    · trivial
    next b hb =>
      refine upholds_refuseOr fun hc => ?_
      simp only [firstRefusal_eq_none, List.forall_mem_cons, decide_eq_false_iff_not, not_lt] at hc
      obtain ⟨-, -, hroom, -⟩ := hc
      refine ⟨fun h => { h with }, fun _ hh => hh.modBin (fun _ => .refl _) fun _ => id, fun hs => hs.recast (fun _ => rfl) fun _ c hc => ?_⟩
      obtain rfl := Option.some.inj (hb.symm.trans hc)
      exact hroom
  · have hm := State.commissioning_of_not hm
    unfold State.redescribeVerdict
    split
    · trivial
    next f _ =>
      refine upholds_ite (fun _ => trivial) fun _ => ?_
      have hnot : s.mode ≠ .inService := by rw [hm]; decide
      refine ⟨fun h => { h with }, fun hc hh => ⟨by simpa using hh.wf, fun h => absurd h hnot, fun h => absurd h hnot, fun q c hq hp => ?_⟩,
        fun hs => hs.recast (fun _ => rfl) fun h => absurd h hnot⟩
      rw [State.modBin_bins, Table.look_adjust] at hq
      split at hq
      · obtain ⟨d, hd, rfl⟩ := Option.map_eq_some_iff.1 hq
        exact absurd (hh.no_pending (hc.idle hm) hd) hp
      · exact absurd (hh.no_pending (hc.idle hm) hq) hp

end

end Sys2Proof.Machine
end

section
/-! The loads of the Item Directory keep the laws: the figures of the home bin follow an item that is added, measured anew or
removed (R31 to R34). -/
namespace Sys2Proof.Machine

section
variable {s t u : State} {a n st z tag k : Nat} {i j : Item} {b c : Bin} {v : Mode} {m m' : Table Bin} {l : Table Item}

/-! ### An item is added (R31, R32) -/

theorem Shelves.addShelved (h : Shelves v m l) (hl : l.wf = true) (hk : l.look k = none) (hs : i.state = .shelved) (hh : i.home = some n)
    (hb : m.look n = some b) (hsize : 1 ≤ i.thickness ∧ i.thickness ≤ 250)
    (hroom : v = .inService → b.fill + b.reserved + i.thickness ≤ b.capacity) :
    Shelves v (m.adjust n fun b => b.addItem i.thickness) (l.put k i) := by
  have htakes := Item.takes_of_shelved (.inl hs) hh
  refine ⟨fun q c hq => ?_, fun hv q c hq => ?_, fun q y hy => ?_, fun q y hy => ?_⟩
  · rw [Table.look_adjust] at hq
    obtain ⟨h1, h2, h3⟩ := htakes q
    split at hq
    next he =>
      obtain ⟨d, hd, rfl⟩ := Option.map_eq_some_iff.1 hq
      rw [if_pos he] at h1 h3
      exact (h.figures q d (he ▸ hd)).put hk (by rw [h1]; rfl) (by rw [h2]; rfl) (by rw [h3]; rfl)
    next he =>
      rw [if_neg he] at h1 h3
      exact (h.figures q c hq).put hk (by rw [h1]; rfl) (by rw [h2]; rfl) (by rw [h3]; rfl)
  · rw [Table.look_adjust] at hq
    split at hq
    · obtain ⟨d, hd, rfl⟩ := Option.map_eq_some_iff.1 hq
      obtain rfl := Option.some.inj (hb.symm.trans hd)
      have := hroom hv
      simp only [Bin.addItem]
      omega
    · exact h.room hv q c hq
  · rw [Table.look_put _ _ _ _ hl] at hy
    split at hy
    · exact Option.some.inj hy ▸ hsize
    · exact h.sized q y hy
  · have hmono : ∀ q, (m.look q).isSome = true → ((m.adjust n fun b => b.addItem i.thickness).look q).isSome = true := fun q hq => by
      rw [Table.look_adjust]
      split
      next he => rw [Option.isSome_map]; exact he ▸ hq
      · exact hq
    rw [Table.look_put _ _ _ _ hl] at hy
    split at hy
    · obtain rfl := Option.some.inj hy
      unfold Item.Housed
      rw [hs]
      exact ⟨n, hh, hmono n (by rw [hb]; rfl)⟩
    · exact (h.housed q y hy).mono hmono

theorem Shelves.addLent (h : Shelves v m l) (hl : l.wf = true) (hk : l.look k = none) (hs : i.state = .lent)
    (hsize : 1 ≤ i.thickness ∧ i.thickness ≤ 250) : Shelves v m (l.put k i) := by
  have htakes := Item.takes_of_out (.inl hs)
  refine ⟨fun q c hq => ?_, h.room, fun q y hy => ?_, fun q y hy => ?_⟩
  · obtain ⟨h1, h2, h3⟩ := htakes q
    exact (h.figures q c hq).put hk (by rw [h1]; rfl) (by rw [h2]; rfl) (by rw [h3]; rfl)
  · rw [Table.look_put _ _ _ _ hl] at hy
    split at hy
    · exact Option.some.inj hy ▸ hsize
    · exact h.sized q y hy
  · rw [Table.look_put _ _ _ _ hl] at hy
    split at hy
    · obtain rfl := Option.some.inj hy
      unfold Item.Housed
      rw [hs]
      trivial
    · exact h.housed q y hy

/-- The lists agree with a directory in which one item, that stands on none of them, has changed. -/
theorem Stock.reshelve (h : Stock s) {m : Table Bin} {l : Table Item} (hm : m.wf = true) (hlw : l.wf = true)
    (hl : ∀ q, q ≠ k → l.look q = s.items.look q) (hold : ∀ i, s.items.look k = some i → ¬i.Wanted ∧ i.state ≠ .returning)
    (hnew : ∀ i, l.look k = some i → ¬i.Wanted ∧ i.state ≠ .returning) (hs : Shelves s.mode m l) :
    Stock { s with bins := m, items := l } :=
  { h with
    bins := hm, items := hlw, shelves := hs
    wants := h.wants.keep hl (fun i hi => (hold i hi).1) fun i hi => (hnew i hi).1
    owes := h.owes.keep hl (fun i hi => (hold i hi).2) fun i hi => (hnew i hi).2 }

theorem Item.unlisted {w : ItemState} (hs : i.state = w) (hw : (w ≠ .requested ∧ w ≠ .picked) ∧ w ≠ .returning) :
    ¬i.Wanted ∧ i.state ≠ .returning := ⟨Item.not_wanted hs hw.1, hs ▸ hw.2⟩

/-- The figures of bins and the items change, and no slot of a bin. -/
theorem Upholds.reshelve {m : Table Bin} {l : Table Item}
    (hbins : (m.map fun e => (e.1, e.2.home, e.2.pendingHome)) = s.bins.map fun e => (e.1, e.2.home, e.2.pendingHome))
    (hs : Stock s → Stock { s with bins := m, items := l }) : Upholds s { s with bins := m, items := l } :=
  have hw : SameWing s { s with bins := m, items := l } := ⟨rfl, rfl, hbins⟩
  ⟨hw.cranes, fun _ => hw.homes, hs⟩

theorem adjust_slots {f : Bin → Bin} (hf : ∀ b, (f b).home = b.home ∧ (f b).pendingHome = b.pendingHome) :
    ((m.adjust n f).map fun e => (e.1, e.2.home, e.2.pendingHome)) = m.map fun e => (e.1, e.2.home, e.2.pendingHome) := by
  rw [Table.map_adjust]
  intro b
  rw [(hf b).1, (hf b).2]

theorem upholds_orderItemDirectoryAdd (tag n k cls : Nat) (st : Option ItemState) (home : Option Nat) (s : State) :
    Upholds s (orderItemDirectoryAdd tag n k cls st home s) := by
  refine .judgeOrder fun _ => ?_
  split
  · trivial
  next w =>
    refine upholds_refuseOr fun hc => ?_
    simp only [firstRefusal_eq_none, List.forall_mem_cons, Bool.not_eq_false', Bool.and_eq_true] at hc
    obtain ⟨⟨⟨⟨-, hsize⟩, -⟩, hcomb⟩, hnone, -⟩ := hc
    have hn : s.items.look n = none := Option.not_isSome_iff_eq_none.1 (by simpa using hnone)
    have hsized : 1 ≤ k ∧ k ≤ 250 := within_iff.1 hsize
    have hold : ∀ y, s.items.look n = some y → ¬y.Wanted ∧ y.state ≠ .returning := fun y hy => by
      rw [hn] at hy
      cases hy
    have hother : ∀ {i : Item}, s.items.wf = true → ∀ q, q ≠ n → (s.items.put n i).look q = s.items.look q := fun hl q hq => by
      rw [Table.look_put _ _ _ _ hl, if_neg hq]
    have hnew : ∀ {i : Item}, s.items.wf = true → ¬i.Wanted ∧ i.state ≠ .returning → ∀ y, (s.items.put n i).look n = some y →
        ¬y.Wanted ∧ y.state ≠ .returning := fun hl hi y hy => by
      rw [Table.look_put _ _ _ _ hl, if_pos rfl] at hy
      exact Option.some.inj hy ▸ hi
    cases home with
    | none =>
      have hw : w = .lent := by cases w <;> simp [addCombination] at hcomb ⊢
      subst hw
      exact Upholds.reshelve rfl fun hs => hs.reshelve hs.bins (Table.wf_put _ _ _ hs.items) (hother hs.items) hold
        (hnew hs.items (Item.unlisted (w := .lent) rfl (by decide))) (hs.shelves.addLent hs.items hn rfl hsized)
    | some h =>
      have hw : w = .shelved := by cases w <;> simp [addCombination] at hcomb ⊢
      subst hw
      dsimp only
      split
      · trivial
      next b hb =>
        refine upholds_refuseOr fun hroom => ?_
        refine Upholds.reshelve (m := s.bins.adjust h fun b => b.addItem k) (adjust_slots fun _ => ⟨rfl, rfl⟩) fun hs =>
          hs.reshelve (by simpa using hs.bins) (Table.wf_put _ _ _ hs.items) (hother hs.items) hold
            (hnew hs.items (Item.unlisted (w := .shelved) rfl (by decide))) (Shelves.addShelved (i := { thickness := k, sizeClass := cls, state := .shelved, home := some h, target := none }) hs.shelves hs.items hn rfl rfl hb hsized fun hm => ?_)
        unfold State.shelfRefusal at hroom
        rw [if_pos (State.isInService_iff.2 hm)] at hroom
        split at hroom
        · cases hroom
        · split at hroom
          · cases hroom
          next hle => exact not_lt.1 hle

/-! ### An item that stands on no list -/

/-- In COMMISSIONING no item is requested, picked or returning (R105, R123, R198). -/
theorem Stock.unlisted (h : Stock s) (hm : s.mode = .commissioning) (hi : s.items.look k = some i) : ¬i.Wanted ∧ i.state ≠ .returning := by
  obtain ⟨hq, hr⟩ := h.idle hm
  refine ⟨fun hw => ?_, fun hs => ?_⟩
  · obtain ⟨r, hr, -⟩ := h.wants.asked k i hi hw
    rw [hq] at hr
    cases hr
  · obtain ⟨e, he, -⟩ := h.owes.entered k i hi hs
    rw [hr] at he
    cases he

/-- An item that is on no list is SHELVED or HELD in its home bin, or is out. -/
theorem Stock.settled (h : Stock s) (hi : s.items.look k = some i) (hu : ¬i.Wanted ∧ i.state ≠ .returning) :
    (∃ n b, i.home = some n ∧ s.bins.look n = some b ∧ (i.state = .shelved ∨ i.state = .held)) ∨ i.state = .lent ∨ i.state = .overflow := by
  have hhome : i.state = .shelved ∨ i.state = .held →
      ∃ n b, i.home = some n ∧ s.bins.look n = some b ∧ (i.state = .shelved ∨ i.state = .held) := fun hs => by
    obtain ⟨n, hn, hb⟩ := h.home_of hi (hs.elim .inl fun hs => .inr (.inr (.inr hs)))
    obtain ⟨b, hb⟩ := Option.isSome_iff_exists.1 hb
    exact ⟨n, b, hn, hb, hs⟩
  cases hs : i.state
  case shelved => exact .inl (hs ▸ hhome (.inl hs))
  case held => exact .inl (hs ▸ hhome (.inr hs))
  case requested => exact absurd (.inl hs) hu.1
  case picked => exact absurd (.inr hs) hu.1
  case returning => exact absurd hs hu.2
  case lent => exact .inr (.inl rfl)
  case overflow => exact .inr (.inr rfl)

/-! ### An item is measured anew (R31, R33) -/

theorem Bin.remeasure_slots (w : ItemState) (p q : Nat) (b : Bin) :
    (b.remeasure w p q).home = b.home ∧ (b.remeasure w p q).pendingHome = b.pendingHome := by
  cases w <;> exact ⟨rfl, rfl⟩

theorem State.remeasureItem_eq (s : State) (n k cls : Nat) (i : Item) :
    s.remeasureItem n k cls i = { s with
      bins := (match i.home with
        | none => s.bins
        | some h => s.bins.adjust h (Bin.remeasure i.state i.thickness k))
      items := s.items.adjust n fun i => { i with thickness := k, sizeClass := cls } } := by
  unfold State.remeasureItem State.modHome
  cases i.home <;> rfl

theorem Stock.remeasureItem {cls : Nat} (h : Stock s) (hi : s.items.look n = some i) (hu : ¬i.Wanted ∧ i.state ≠ .returning)
    (hsize : 1 ≤ k ∧ k ≤ 250)
    (hroom : s.mode = .inService → ∀ q b, i.home = some q → s.bins.look q = some b → b.fill + k + b.reserved ≤ b.capacity + i.thickness) :
    Stock (s.remeasureItem n k cls i) := by
  rw [State.remeasureItem_eq]
  have hnew : ∀ y, (s.items.adjust n fun i => { i with thickness := k, sizeClass := cls }).look n = some y → ¬y.Wanted ∧ y.state ≠ .returning :=
    fun y hy => by
      rw [Table.look_adjust_same, hi] at hy
      exact Option.some.inj hy ▸ hu
  refine h.reshelve ?_ (by simpa using h.items) (fun _ hq => Table.look_adjust_ne _ _ hq)
    (fun y hy => by obtain rfl := Option.some.inj (hi.symm.trans hy); exact hu) hnew ?_
  · split
    · exact h.bins
    · simpa using h.bins
  · have hout : i.state = .lent ∨ i.state = .overflow → ∀ q, i.filling q = ({ i with thickness := k, sizeClass := cls } : Item).filling q
        ∧ i.reserving q = ({ i with thickness := k, sizeClass := cls } : Item).reserving q
        ∧ i.counting q = ({ i with thickness := k, sizeClass := cls } : Item).counting q := fun hs q => by
      obtain ⟨h1, h2, h3⟩ := Item.takes_of_out hs q
      obtain ⟨h4, h5, h6⟩ := Item.takes_of_out (i := { i with thickness := k, sizeClass := cls }) hs q
      rw [h1, h2, h3, h4, h5, h6]
      exact ⟨rfl, rfl, rfl⟩
    rcases h.settled hi hu with ⟨q, b, hh, hb, hs⟩ | hs
    · have hhoused : ({ i with thickness := k, sizeClass := cls } : Item).Housed s.bins := h.shelves.housed n i hi
      simp only [hh]
      refine h.shelves.move_at hi rfl hsize hhoused (fun p hp => ?_) (fun c hc => ?_) fun hm c hc hfill hres hcap => ?_
      · rcases hs with hs | hs
        · obtain ⟨h1, h2, h3⟩ := Item.takes_of_shelved (.inl hs) hh p
          obtain ⟨h4, h5, h6⟩ := Item.takes_of_shelved (i := { i with thickness := k, sizeClass := cls }) (.inl hs) hh p
          rw [h1, h2, h3, h4, h5, h6]
          simp [hp]
        · obtain ⟨h1, h2, h3⟩ := Item.takes_of_held (.inr hs) hh p
          obtain ⟨h4, h5, h6⟩ := Item.takes_of_held (i := { i with thickness := k, sizeClass := cls }) (.inr hs) hh p
          rw [h1, h2, h3, h4, h5, h6]
          simp [hp]
      · rcases hs with hs | hs
        · obtain ⟨h1, h2, h3⟩ := Item.takes_of_shelved (.inl hs) hh q
          obtain ⟨h4, h5, h6⟩ := Item.takes_of_shelved (i := { i with thickness := k, sizeClass := cls }) (.inl hs) hh q
          rw [if_pos rfl] at h1 h3 h4 h6
          refine ⟨fun hle => ?_, fun _ => ?_, fun _ => ?_⟩
          · rw [h1, h4]
            rw [h1] at hle
            simp only [Bin.remeasure, hs]
            omega
          · rw [h2, h5]
            simp only [Bin.remeasure, hs]
          · rw [h3, h6]
            simp only [Bin.remeasure, hs]
        · obtain ⟨h1, h2, h3⟩ := Item.takes_of_held (.inr hs) hh q
          obtain ⟨h4, h5, h6⟩ := Item.takes_of_held (i := { i with thickness := k, sizeClass := cls }) (.inr hs) hh q
          rw [if_pos rfl] at h2 h5
          refine ⟨fun _ => ?_, fun hle => ?_, fun _ => ?_⟩
          · rw [h1, h4]
            simp only [Bin.remeasure, hs]
          · rw [h2, h5]
            rw [h2] at hle
            simp only [Bin.remeasure, hs]
            omega
          · rw [h3, h6]
            simp only [Bin.remeasure, hs]
      · have := hroom hm q c hh hc
        rcases hs with hs | hs
        · obtain ⟨h1, h2, h3⟩ := Item.takes_of_shelved (.inl hs) hh q
          rw [h1, if_pos rfl] at hfill
          simp only [Bin.remeasure, hs]
          omega
        · obtain ⟨h1, h2, h3⟩ := Item.takes_of_held (.inr hs) hh q
          rw [h2, if_pos rfl] at hres
          simp only [Bin.remeasure, hs]
          omega
    · have hbins : (match i.home with
          | none => s.bins
          | some h => s.bins.adjust h (Bin.remeasure i.state i.thickness k)) = s.bins := by
        split
        · rfl
        · refine Table.adjust_eq_self_of_look fun c _ => ?_
          rcases hs with hs | hs <;> rw [hs] <;> rfl
      have hhoused : ({ i with thickness := k, sizeClass := cls } : Item).Housed s.bins := h.shelves.housed n i hi
      rw [hbins]
      exact h.shelves.move (g := fun _ b => b) hi rfl (fun q => by simp) hsize hhoused
        (fun q b _ => .of_eq (hout hs q).1 (hout hs q).2.1 (hout hs q).2.2) fun _ _ _ _ _ _ hcap => hcap

theorem upholds_remeasureItem {cls : Nat} (hi : s.items.look n = some i) (hu : Stock s → ¬i.Wanted ∧ i.state ≠ .returning)
    (hsize : thicknessInRange k = true)
    (hroom : s.mode = .inService → ∀ q b, i.home = some q → s.bins.look q = some b → b.fill + k + b.reserved ≤ b.capacity + i.thickness) :
    Upholds s (s.remeasureItem n k cls i) := by
  have hstock : Stock s → Stock (s.remeasureItem n k cls i) := fun hs => hs.remeasureItem hi (hu hs) (within_iff.1 hsize) hroom
  rw [State.remeasureItem_eq] at hstock ⊢
  refine Upholds.reshelve ?_ hstock
  split
  · rfl
  · exact adjust_slots fun b => Bin.remeasure_slots _ _ _ b

theorem upholds_orderItemDirectoryEdit (tag n k cls : Nat) (s : State) : Upholds s (orderItemDirectoryEdit tag n k cls s) := by
  refine .judgeOrder fun _ => upholds_ite (fun hm => ?_) fun hm => ?_
  · unfold State.editVerdict
    split
    · trivial
    next i hi =>
      refine upholds_refuseOr fun hc => ?_
      simp only [firstRefusal_eq_none, List.forall_mem_cons, Bool.not_eq_false', decide_eq_true_eq] at hc
      obtain ⟨hsize, -, hs, hfits, -⟩ := hc
      refine upholds_remeasureItem hi (fun _ => Item.unlisted hs (by decide)) hsize fun _ q b hh hb => ?_
      simpa [State.remeasureFits, hh, hb] using hfits
  · have hm := State.commissioning_of_not hm
    refine upholds_badFieldUnless fun hc => ?_
    simp only [Bool.and_eq_true] at hc
    split
    · trivial
    next i hi =>
      refine upholds_badFieldUnless fun _ => upholds_remeasureItem hi (fun hs => hs.unlisted hm hi) hc.1.2 fun h => ?_
      rw [hm] at h
      cases h

/-! ### An item is removed (R31, R34) -/

theorem State.removeItem_eq (s : State) (n : Nat) (i : Item) :
    s.removeItem n i = { s with
      bins := (match i.home with
        | none => s.bins
        | some h => s.bins.adjust h fun b =>
          match i.state with
          | .shelved => b.removeItem i.thickness
          | .held => b.release i.thickness
          | .requested | .picked | .lent | .returning | .overflow => b)
      items := s.items.remove n } := by
  unfold State.removeItem State.modHome
  cases i.home <;> rfl

/-- An item leaves the directory, and its figures its bin. -/
theorem Shelves.removeItem {g : Nat → Bin → Bin} (h : Shelves v m l) (hl : l.wf = true) (hi : l.look k = some i)
    (hlook : ∀ q, m'.look q = (m.look q).map (g q))
    (hg : ∀ q b, m.look q = some b → (g q b).fill = b.fill - i.filling q ∧ (g q b).reserved = b.reserved - i.reserving q
      ∧ (g q b).count = b.count - i.counting q ∧ (g q b).capacity = b.capacity) : Shelves v m' (l.remove k) := by
  have hitem : ∀ q y, (l.remove k).look q = some y → l.look q = some y := fun q y hy => by
    rw [Table.look_remove] at hy
    split at hy
    · cases hy
    · exact hy
  refine ⟨fun q c hq => ?_, fun hv q c hq => ?_, fun q y hy => h.sized q y (hitem q y hy), fun q y hy => ?_⟩
  · rw [hlook, Option.map_eq_some_iff] at hq
    obtain ⟨b, hb, rfl⟩ := hq
    obtain ⟨h1, h2, h3, -⟩ := hg q b hb
    exact (h.figures q b hb).remove hl hi h1 h2 h3
  · rw [hlook, Option.map_eq_some_iff] at hq
    obtain ⟨b, hb, rfl⟩ := hq
    obtain ⟨h1, h2, -, h4⟩ := hg q b hb
    have := h.room hv q b hb
    omega
  · refine (h.housed q y (hitem q y hy)).mono fun p hp => ?_
    rw [hlook, Option.isSome_map]
    exact hp

theorem Stock.removeItem (h : Stock s) (hi : s.items.look n = some i) (hu : ¬i.Wanted ∧ i.state ≠ .returning) :
    Stock (s.removeItem n i) := by
  rw [State.removeItem_eq]
  refine h.reshelve ?_ (Table.wf_remove _ _ h.items) (fun q hq => by rw [Table.look_remove, if_neg hq])
    (fun y hy => by obtain rfl := Option.some.inj (hi.symm.trans hy); exact hu)
    (fun y hy => by rw [Table.look_remove, if_pos rfl] at hy; cases hy) ?_
  · split
    · exact h.bins
    · simpa using h.bins
  · rcases h.settled hi hu with ⟨p, b, hh, hb, hs⟩ | hs
    · simp only [hh]
      refine h.shelves.removeItem (g := fun q b => if q = p then (match i.state with
          | .shelved => b.removeItem i.thickness
          | .held => b.release i.thickness
          | .requested | .picked | .lent | .returning | .overflow => b) else b) h.items hi (fun q => ?_) fun q c hc => ?_
      · rw [Table.look_adjust]
        by_cases hq : q = p
        · simp [hq]
        · simp [hq]
      · rcases hs with hs | hs
        · obtain ⟨h1, h2, h3⟩ := Item.takes_of_shelved (.inl hs) hh q
          rw [h1, h2, h3, hs]
          by_cases hq : q = p <;> simp [hq, Bin.removeItem]
        · obtain ⟨h1, h2, h3⟩ := Item.takes_of_held (.inr hs) hh q
          rw [h1, h2, h3, hs]
          by_cases hq : q = p <;> simp [hq, Bin.release]
    · refine h.shelves.removeItem (g := fun _ b => b) h.items hi (fun q => ?_) fun q c _ => ?_
      · rw [Option.map_id']
        split
        · rfl
        · rw [Table.adjust_eq_self_of_look fun c _ => ?_]
          rcases hs with hs | hs <;> rw [hs]
      · obtain ⟨h1, h2, h3⟩ := Item.takes_of_out hs q
        rw [h1, h2, h3]
        exact ⟨rfl, rfl, rfl, rfl⟩

theorem upholds_orderItemDirectoryRemove (tag n : Nat) (s : State) : Upholds s (orderItemDirectoryRemove tag n s) := by
  refine .judgeOrder fun _ => upholds_ite (fun _ => trivial) fun _ => ?_
  split
  · trivial
  next i hi =>
    refine upholds_ite (fun _ => trivial) fun hs => ?_
    have hstock : Stock s → Stock (s.removeItem n i) := fun h => h.removeItem hi (by
      rcases s.mode.inService_or_commissioning with hm | hm
      · rw [State.isInService_iff.2 hm] at hs
        exact Item.unlisted (w := .shelved) (by simpa using hs) (by decide)
      · exact h.unlisted hm hi)
    show Upholds s (s.removeItem n i)
    rw [State.removeItem_eq] at hstock ⊢
    refine Upholds.reshelve ?_ hstock
    split
    · rfl
    · refine adjust_slots fun b => ?_
      split <;> exact ⟨rfl, rfl⟩

end

end Sys2Proof.Machine
end

section
/-! The close and the reopening of commissioning keep the laws, and so does every ORDER frame that is taken: the order
that its command spells. -/
namespace Sys2Proof.Machine

/-- No crane is BUSY, and none holds a job or a record (R60). -/
def State.Vacant (s : State) : Prop :=
  ∀ a x, s.aisles.look a = some x → x.crane.state ≠ .busy ∧ x.crane.active = none ∧ x.crane.suspension = none

section
variable {s t u : State} {a n tag : Nat} {x : Aisle} {f : Aisle → Aisle}

/-! ### The mode -/

theorem Aisle.vacant_of_jobs (hj : x.jobs = []) (hs : x.Sound) :
    x.crane.state ≠ .busy ∧ x.crane.active = none ∧ x.crane.suspension = none := by
  simp only [Aisle.jobs, List.append_eq_nil_iff, Option.toList_eq_nil_iff, Option.map_eq_none_iff] at hj
  obtain ⟨⟨⟨-, -⟩, hactive⟩, hrecord⟩ := hj
  refine ⟨fun hb => ?_, hactive, hrecord⟩
  have hsome := (hs.crane.busy hb).1
  rw [hactive] at hsome
  cases hsome

theorem Cranes.vacant (hc : Cranes s) (hm : s.mode = .commissioning) : s.Vacant := fun a x hx =>
  Aisle.vacant_of_jobs (hc.idle hm a x hx) (hc.sound a x hx)

/-- With the first and the last check of R197 the laws of IN_SERVICE hold in COMMISSIONING already. -/
theorem Upholds.setInService (hm : s.mode = .commissioning) (hgood : s.homesGood = true) (hfigures : s.figuresGood = true) :
    Upholds s (s.setMode .inService) where
  cranes := fun hc => ⟨hc.wf, hc.sound, nofun⟩
  homes := fun hc hh => by
    have hslots : ∀ n b, s.bins.look n = some b → b.slots = [b.home] := fun n b hb => by
      rw [Bin.slots, hh.no_pending (hc.idle hm) hb]
      rfl
    have hgood := (State.homesGood_iff hh.wf).1 hgood
    have hflat : (s.bins.flatMap fun e => e.2.slots) = s.bins.map fun e => e.2.home := by
      rw [List.map_eq_flatMap]
      exact List.flatMap_congr fun e he => hslots e.1 e.2 (Table.look_of_mem hh.wf he)
    refine ⟨hh.wf, fun _ => ?_, fun _ n b v hb hv => ?_, hh.named⟩
    · show (s.bins.flatMap fun e => e.2.slots).Nodup
      rw [hflat]
      refine List.Nodup.map_on (fun e he g hg heq => ?_) (.of_map _ (Table.nodup_numbers hh.wf))
      have hb := Table.look_of_mem hh.wf he
      have hd := Table.look_of_mem hh.wf hg
      have hnum : g.1 = e.1 := (hgood e.1 e.2 hb).2 g.1 g.2 hd heq.symm
      rw [hnum, hb] at hd
      exact Prod.ext hnum.symm (Option.some.inj hd)
    · rw [hslots n b hb, List.mem_singleton] at hv
      exact hv ▸ (hgood n b hb).1
  stock := fun hs => { hs with
    shelves := { hs.shelves with room := fun _ n b hb => (State.figuresGood_iff hs.bins).1 hfigures n b hb }
    idle := nofun }

/-- In an idle wing the laws of COMMISSIONING hold in IN_SERVICE already (R198). -/
theorem Upholds.setCommissioning (hidle : s.wingBusy = false) : Upholds s (s.setMode .commissioning) := by
  simp only [State.wingBusy, Bool.or_eq_false_iff, List.any_eq_false, Bool.not_eq_true, Bool.not_eq_false',
    List.isEmpty_iff] at hidle
  obtain ⟨⟨⟨⟨hjobs, hrequests⟩, hstations⟩, -⟩, -⟩ := hidle
  exact
    { cranes := fun hc => ⟨hc.wf, hc.sound, fun _ a x hx => hjobs (a, x) (Table.mem_of_look hx)⟩
      homes := fun _ hh => ⟨hh.wf, nofun, nofun, hh.named⟩
      stock := fun hs => { hs with
        shelves := { hs.shelves with room := nofun }
        idle := fun _ => ⟨hrequests, List.flatMap_eq_nil_iff.2 fun e he => (hstations e he).1.1⟩ } }

/-! ### The close (R197, R156, R60) -/

theorem Same.setConcentrators (s : State) (m : Table Concentrator) : Same s (s.setConcentrators m) := { Same.refl s with }

theorem Same.commissionZone (h : Same s t) (z : Nat) : Same s (t.commissionZone z) := (h.modZone z _).setZoneState z _

theorem Kept.commissionEntry (h : Kept s t) (z : Nat) : Kept s (t.commissionEntry z) := .ite (h.entryActions z) h

theorem Aisle.Sound.hands_begun (hs : x.Sound) (hb : x.crane.state ≠ .busy) (ha : x.crane.active = none)
    (hr : x.crane.suspension = none) (hin : x.service = .inService) (shut : Bool) (k : Nat) :
    x.Hands nothing (x.begun shut k) := by
  have hphase := hs.crane.phase
  have hdeadline := hs.crane.deadline
  rw [ha] at hphase hdeadline
  have hcrane : ∀ v, v ≠ .busy → ({ x.crane with position := none, state := v } : Crane).Sound := fun v hv =>
    Crane.sound_of_jobless hv ha (hs.crane.staged hb) (Option.isNone_iff_eq_none.1 (by simpa using hphase))
      (Option.isNone_iff_eq_none.1 (by simpa using hdeadline)) (hs.crane.retry ha) fun _ => hr
  cases shut with
  | true =>
    exact ⟨⟨hcrane .stopped nofun, iff_of_false (by simp [Aisle.begun, hin]) nofun⟩, rfl, fun j hj _ => .inl hj⟩
  | false =>
    refine ⟨⟨hcrane .parking nofun, iff_of_false (by simp [Aisle.begun, Aisle.parked, hin]) nofun⟩, rfl, fun j hj _ => .inl ?_⟩
    rw [Aisle.mem_jobs] at hj ⊢
    exact hj.imp_left fun h => List.mem_append_left _ h

theorem State.Vacant.adjust (hv : s.Vacant) (ha : u.aisles = s.aisles.adjust a f)
    (hf : ∀ x, s.aisles.look a = some x → (f x).crane.state ≠ .busy ∧ (f x).crane.active = x.crane.active
      ∧ (f x).crane.suspension = x.crane.suspension) : u.Vacant := fun b y hy => by
  rw [ha, Table.look_adjust] at hy
  split at hy
  next hab =>
    subst hab
    obtain ⟨x, hx, rfl⟩ := Option.map_eq_some_iff.1 hy
    obtain ⟨hstate, hactive, hrecord⟩ := hf x hx
    obtain ⟨-, h2, h3⟩ := hv _ x hx
    exact ⟨hstate, hactive.trans h2, hrecord.trans h3⟩
  · exact hv b y hy

theorem Kept.commissionCrane (h : Kept s t) (hv : t.Vacant) (a : Nat) :
    Kept s (t.commissionCrane a) ∧ (t.commissionCrane a).Vacant := by
  cases hx : t.aisles.look a with
  | none =>
    have : t.commissionCrane a = t := by simp only [State.commissionCrane, hx]
    rw [this]
    exact ⟨h, hv⟩
  | some x =>
    by_cases hs : x.service = .inService
    · have hands : ∀ shut k y, t.aisles.look a = some y → y.Sound → y.Hands t.Freed (y.begun shut k) := fun shut k y hy hsound => by
        obtain rfl := Option.some.inj (hx.symm.trans hy)
        obtain ⟨h1, h2, h3⟩ := hv a x hx
        exact (hsound.hands_begun h1 h2 h3 hs shut k).any
      by_cases hz : t.zoneState x.geom.zone = some .shutdown
      · rw [State.commissionCrane_of_shut hx hs hz]
        exact ⟨h.adjust { SameStock.refl t with } rfl (hands true 0), hv.adjust rfl fun _ _ => ⟨nofun, rfl, rfl⟩⟩
      · rw [State.commissionCrane_of_open hx hs hz]
        exact ⟨h.adjust { SameStock.refl t with } rfl (hands false t.jobTag), hv.adjust rfl fun _ _ => ⟨nofun, rfl, rfl⟩⟩
    · rw [State.commissionCrane_of_not hx hs]
      exact ⟨h, hv⟩

theorem Kept.commissionCranes (h : Kept s t) (hv : t.Vacant) (l : List Nat) : Kept s (l.foldl State.commissionCrane t) := by
  induction l generalizing t with
  | nil => exact h
  | cons a l ih =>
    obtain ⟨hk, hv'⟩ := h.commissionCrane hv a
    exact ih hk hv'

theorem SameStock.commissionCrane (h : SameStock s t) (a : Nat) : SameStock s (t.commissionCrane a) := by
  unfold State.commissionCrane
  split
  · exact h
  · split
    · exact h
    · dsimp only
      split <;> exact h.trans { SameStock.refl t with }

/-- The wing with its zones and concentrators set up (R156). -/
def State.zonesSetUp (s : State) : State :=
  (s.setConcentrators (s.concentrators.mapRecords fun _ c => c.commission)).zones.numbers.foldl State.commissionZone
    (s.setConcentrators (s.concentrators.mapRecords fun _ c => c.commission))

theorem Same.zonesSetUp (s : State) : Same s s.zonesSetUp :=
  (Same.setConcentrators s (s.concentrators.mapRecords fun _ c => c.commission)).foldl _ _ fun _ z h => h.commissionZone z

/-- What the close does after the mode is set and the cranes are (R156). -/
theorem Kept.entries (h : Kept s t) : Kept s (t.zones.numbers.foldl State.commissionEntry t).settleWing :=
  (h.foldl _ _ fun _ z h => h.commissionEntry z).settleWing

/-- The wing with its cranes set too (R60). -/
def State.cranesSetUp (s : State) : State := s.zonesSetUp.aisles.numbers.foldl State.commissionCrane s.zonesSetUp

theorem State.commission_steps (s : State) : s.commission =
    ((s.setMode .inService).cranesSetUp.zones.numbers.foldl State.commissionEntry (s.setMode .inService).cranesSetUp).settleWing := rfl

theorem State.checks_of_failingCheck (h : s.failingCheck = none) : s.homesGood = true ∧ s.figuresGood = true := by
  unfold State.failingCheck at h
  by_contra hn
  rw [not_and_or, Bool.not_eq_true, Bool.not_eq_true] at hn
  rcases hn with hn | hn
  · simp [hn] at h
  · refine absurd h ?_
    simp only [hn, Bool.not_false, if_true]
    split_ifs <;> nofun

theorem Upholds.commission (hm : s.mode = .commissioning) (hcheck : s.failingCheck = none) : Upholds s s.commission := by
  have hset : Upholds s (s.setMode .inService) := .setInService hm (State.checks_of_failingCheck hcheck).1 (State.checks_of_failingCheck hcheck).2
  have hz := Same.zonesSetUp (s.setMode .inService)
  have hkept : s.Vacant → Kept (s.setMode .inService) s.commission := fun hv => by
    rw [State.commission_steps]
    refine (hz.kept.commissionCranes (fun a x hx => hv a x ?_) _).entries
    rw [hz.aisles] at hx
    exact hx
  have hfrugal : Frugal (s.setMode .inService) s.commission := by
    rw [State.commission_steps]
    have hcranes : Frugal (s.setMode .inService) (s.setMode .inService).cranesSetUp :=
      hz.kept.frugal.foldl _ _ fun _ a h => h.trans ((SameStock.refl _).commissionCrane a).frugal
    exact hcranes.trans (Kept.refl _).entries.frugal
  exact
    { cranes := fun hc => (hkept (hc.vacant hm)).cranes rfl (hset.cranes hc)
      homes := fun hc hh => (hkept (hc.vacant hm)).homes rfl (hset.cranes hc) (hset.homes hc hh)
      stock := fun hs => hfrugal.stock rfl (hset.stock hs) }

theorem upholds_orderCloseCommissioning (tag : Nat) (s : State) : Upholds s (orderCloseCommissioning tag s) := by
  refine .judgeOrder fun _ => upholds_ite (fun _ => .refl s) fun hin => ?_
  split
  · trivial
  next hcheck => exact .commission (State.commissioning_of_not hin) hcheck

/-! ### The reopening (R198, R155) -/

theorem Same.reopenZone (h : Same s t) (z : Nat) : Same s (t.reopenZone z) := by
  unfold State.reopenZone
  split
  · exact h
  · exact .ite (h.modZone z _) ((h.modZone z _).setZoneState z _)

theorem Same.reopen (s : State) : Same (s.setMode .commissioning) s.reopen := by
  have hz : Same (s.setMode .commissioning) ((s.setMode .commissioning).zones.numbers.foldl State.reopenZone (s.setMode .commissioning)) :=
    (Same.refl _).foldl _ _ fun _ z h => h.reopenZone z
  exact (hz.trans (Same.setConcentrators _ _)).mapStations fun _ x => x.reopen

theorem upholds_orderReopenCommissioning (tag : Nat) (key : Bool) (s : State) :
    Upholds s (orderReopenCommissioning tag key s) := by
  refine ((Same.refl s).setKeyLine key).upholds.trans (.judgeOrder fun _ => upholds_ite (fun _ => .refl _) fun _ => ?_)
  refine upholds_refuseOr fun h => ?_
  simp only [firstRefusal_eq_none, List.forall_mem_cons] at h
  obtain ⟨-, hidle, -⟩ := h
  exact (Upholds.setCommissioning hidle).trans (Same.reopen _).upholds

/-! ### The orders that change no record -/

theorem upholds_orderReadRecord (tag table key : Nat) (s : State) : Upholds s (orderReadRecord tag table key s) := by
  refine .judgeOrder fun _ => ?_
  unfold State.readVerdict
  split
  case h_9 => exact .refl s
  case h_14 => trivial
  all_goals exact upholds_found _ _

theorem upholds_orderQueryStatus (tag : Nat) (scope : Scope) (number position : Nat) (key : Bool) (s : State) :
    Upholds s (orderQueryStatus tag scope number position key s) := by
  refine ((Same.refl s).setKeyLine key).upholds.trans (.judgeOrder fun _ => ?_)
  cases scope with
  | wing | faults => exact .refl _
  | aisle | queue | station | zone => exact upholds_found _ _

theorem upholds_orderReadIdentity (tag : Nat) (s : State) : Upholds s (orderReadIdentity tag s) := .judgeOrder fun _ => .refl s

theorem upholds_orderRestart (tag : Nat) (s : State) : Upholds s (orderRestart tag s) :=
  .judgeOrder fun _ => ((Same.refl s).setLink _).upholds

theorem upholds_orderUnknown (tag : Nat) (why : Unreadable) (s : State) : Upholds s (orderUnknown tag why s) := by
  unfold orderUnknown
  split
  · split <;> exact ((Same.refl s).reply _).upholds
  · exact .judgeOrder fun _ => trivial

/-! ### Every order -/

theorem upholds_runOrder (i : Instr) (s : State) : Upholds s (runOrder i s) := by
  obtain ⟨hzone, hconcentrator, hshutter, hstation, haddress, hclass, hsettings⟩ := upholds_loads s
  cases i with
  | requestItem => exact upholds_orderRequestItem ..
  | withdrawRequest => exact upholds_orderWithdrawRequest ..
  | confirmLoan => exact upholds_orderConfirmLoan ..
  | cancelLoan => exact upholds_orderCancelLoan ..
  | callBin => exact upholds_orderCallBin ..
  | moveBin => exact upholds_orderMoveBin ..
  | auditBin => exact upholds_orderAuditBin ..
  | releaseBin => exact upholds_orderReleaseBin ..
  | aisleOut => exact upholds_orderAisleOut ..
  | aisleIn => exact upholds_orderAisleIn ..
  | shutZone => exact upholds_orderShutZone ..
  | restoreZone => exact upholds_orderRestoreZone ..
  | ackFault => exact upholds_orderAckFault ..
  | loadGeometryRecord => exact upholds_orderLoadGeometryRecord ..
  | loadRetryOffsetList => exact upholds_orderLoadRetryOffsetList ..
  | loadStationRecord => exact hstation ..
  | loadZoneRecord => exact hzone ..
  | loadConcentratorRecord => exact hconcentrator ..
  | loadShutterRecord => exact hshutter ..
  | loadFieldAddress => exact haddress ..
  | loadReportClass => exact hclass ..
  | loadWingSettings => exact hsettings ..
  | binMapAdd => exact upholds_orderBinMapAdd ..
  | binMapEdit => exact upholds_orderBinMapEdit ..
  | binMapRetire => exact upholds_orderBinMapRetire ..
  | itemDirectoryAdd => exact upholds_orderItemDirectoryAdd ..
  | itemDirectoryEdit => exact upholds_orderItemDirectoryEdit ..
  | itemDirectoryRemove => exact upholds_orderItemDirectoryRemove ..
  | readRecord => exact upholds_orderReadRecord ..
  | closeCommissioning => exact upholds_orderCloseCommissioning ..
  | reopenCommissioning => exact upholds_orderReopenCommissioning ..
  | queryStatus => exact upholds_orderQueryStatus ..
  | readIdentity => exact upholds_orderReadIdentity ..
  | restart => exact upholds_orderRestart ..
  | unknownOrder => exact upholds_orderUnknown ..
  | _ => exact .refl s

end

end Sys2Proof.Machine
end

section
/-! A restart keeps the laws (R199): it leaves no job but the PARKs that it creates, no request and no return entry, and
releases the room of the items that were returning (R36). -/
namespace Sys2Proof.Machine

section
variable {r s t u : State} {a k n q : Nat} {x y : Aisle} {i : Item} {l : Table Item} {cause : StartCause}

/-! ### Items and bins (R20, R36) -/

theorem Item.filling_restart (n : Nat) (i : Item) : i.restart.filling n = i.filling n := by
  cases h : i.state <;> simp [Item.restart, Item.filling, Item.fills, h]

theorem Item.counting_restart (n : Nat) (i : Item) : i.restart.counting n = i.counting n := by
  cases h : i.state <;> simp [Item.restart, Item.counting, Item.fills, h]

theorem Item.reserving_restart (n : Nat) (i : Item) : i.reserving n =
    i.restart.reserving n + if i.state = .returning ∧ i.target = some n then i.thickness else 0 := by
  cases h : i.state <;> simp [Item.restart, Item.reserving, Item.reserves, h]

theorem itemSum_restart (l : Table Item) (w : Item → Nat) :
    itemSum (l.mapRecords fun _ i => i.restart) w = itemSum l fun i => w i.restart := itemSum_mapRecords _

theorem itemSum_reserving_restart (l : Table Item) (n : Nat) :
    itemSum l (Item.reserving n) = itemSum (l.mapRecords fun _ i => i.restart) (Item.reserving n) + returningTo l n := by
  rw [itemSum_restart]
  induction l with
  | nil => rfl
  | cons e l ih =>
    rw [itemSum_cons, itemSum_cons, returningTo_cons, ih, Item.reserving_restart n e.2]
    omega

theorem Item.restart_thickness (i : Item) : i.restart.thickness = i.thickness := by
  cases h : i.state <;> simp [Item.restart, h]

theorem Item.restart_listed (i : Item) : ¬i.restart.Wanted ∧ i.restart.state ≠ .returning := by
  cases h : i.state <;> simp [Item.restart, Item.Wanted, h]

theorem Item.housed_restart {m m' : Table Bin} (h : i.Housed m) (hm : ∀ n, (m.look n).isSome = true → (m'.look n).isSome = true) :
    i.restart.Housed m' := by
  have hk : i.Housed m' := h.mono hm
  unfold Item.Housed at hk ⊢
  cases hs : i.state <;> simp [Item.restart, hs] at hk ⊢ <;> exact hk

theorem Shelves.restart {v : Mode} {m m' : Table Bin} (h : Shelves v m l)
    (hm : ∀ n, m'.look n = (m.look n).map fun b => Bin.restart { b with reserved := b.reserved - returningTo l n }) :
    Shelves v m' (l.mapRecords fun _ i => i.restart) := by
  refine ⟨fun n b hb => ?_, fun hv n b hb => ?_, fun k i hi => ?_, fun k i hi => ?_⟩
  · rw [hm, Option.map_eq_some_iff] at hb
    obtain ⟨c, hc, rfl⟩ := hb
    obtain ⟨hfill, hreserved, hcount⟩ := h.figures n c hc
    refine ⟨?_, ?_, ?_⟩
    · rw [itemSum_restart]
      simp only [Item.filling_restart]
      exact hfill
    · show c.reserved - returningTo l n = _
      rw [hreserved, itemSum_reserving_restart]
      omega
    · rw [itemSum_restart]
      simp only [Item.counting_restart]
      exact hcount
  · rw [hm, Option.map_eq_some_iff] at hb
    obtain ⟨c, hc, rfl⟩ := hb
    have hroom := h.room hv n c hc
    show c.fill + (c.reserved - returningTo l n) ≤ c.capacity
    omega
  · rw [Table.look_mapRecords, Option.map_eq_some_iff] at hi
    obtain ⟨j, hj, rfl⟩ := hi
    rw [Item.restart_thickness]
    exact h.sized k j hj
  · rw [Table.look_mapRecords, Option.map_eq_some_iff] at hi
    obtain ⟨j, hj, rfl⟩ := hi
    refine Item.housed_restart (h.housed k j hj) fun n hn => ?_
    rw [hm, Option.isSome_map]
    exact hn

theorem State.restartRecords_returnEntries (s : State) (cause : StartCause) : (s.restartRecords cause).returnEntries = [] := by
  refine List.flatMap_eq_nil_iff.2 fun e he => ?_
  rw [State.restartRecords_stations] at he
  obtain ⟨f, -, rfl⟩ := List.mem_map.1 he
  rfl

/-- The shelf space after the reset of the records (R20, R36, R107). -/
theorem Stock.restartRecords (h : Stock s) (ht : s.tablesLawful = true) (cause : StartCause) : Stock (s.restartRecords cause) := by
  obtain ⟨-, hst, -, -, -, -, -, hb, hi⟩ := (tablesLawful_iff _).1 (restartRecords_tables s cause ht)
  have hreturns := s.restartRecords_returnEntries cause
  have hlisted : ∀ k i, (s.restartRecords cause).items.look k = some i → ¬i.Wanted ∧ i.state ≠ .returning := fun k i hk => by
    rw [State.restartRecords_items, Table.look_mapRecords, Option.map_eq_some_iff] at hk
    obtain ⟨j, -, rfl⟩ := hk
    exact j.restart_listed
  refine ⟨hb, hi, hst, h.tag, Nat.zero_le _, ?_, ?_, ?_, fun _ => ⟨rfl, hreturns⟩⟩
  · exact h.shelves.restart fun n => State.restartRecords_bin s cause n
  · exact ⟨List.nodup_nil, List.nodup_nil, nofun, fun k i hk hw => absurd hw (hlisted k i hk).1⟩
  · rw [hreturns]
    exact ⟨List.nodup_nil, nofun, fun k i hk hs => absurd hs (hlisted k i hk).2⟩

/-! ### Home slots (R10, R20) -/

theorem map_home_release (l : List (Nat × Item)) (m : Table Bin) :
    ((l.foldl releaseReturning m).map fun e => e.2.home) = m.map fun e => e.2.home := by
  induction l generalizing m with
  | nil => rfl
  | cons e l ih =>
    rw [List.foldl_cons, ih]
    unfold releaseReturning
    split
    · exact Table.map_adjust _ _ _ _ fun _ => rfl
    · rfl

/-- The slots after the reset of the records are the home slots (R20). -/
theorem State.restartRecords_slots (s : State) (cause : StartCause) :
    ((s.restartRecords cause).bins.flatMap fun e => e.2.slots) = s.bins.map fun e => e.2.home := by
  have hslots : ((s.restartRecords cause).bins.flatMap fun e => e.2.slots) =
      (s.restartRecords cause).bins.map fun e => e.2.home := by
    rw [List.map_eq_flatMap]
    refine List.flatMap_congr fun e he => ?_
    rw [State.restartRecords_bins] at he
    obtain ⟨f, -, rfl⟩ := List.mem_map.1 he
    rfl
  exact hslots.trans ((Table.map_mapRecords _ (fun _ => Bin.restart) _ fun _ _ => rfl).trans (map_home_release s.items s.bins))

theorem home_sublist_slots (m : Table Bin) : (m.map fun e => e.2.home).Sublist (m.flatMap fun e => e.2.slots) := by
  rw [List.map_eq_flatMap]
  exact List.Sublist.flatMap_right m fun e _ => List.singleton_sublist.2 List.mem_cons_self

/-! ### Cranes (R83, R176) -/

theorem Aisle.jobs_entered (hq : x.queue = []) (ha : x.crane.active = none) (hs : x.crane.staged = none) (hr : x.crane.suspension = none)
    (wait : Nat) : (x.entered wait).jobs = [] := by
  have hun : x.unstaged = x := by rw [Aisle.unstaged, hs]
  unfold Aisle.entered
  cases hc : x.crane.state <;> simp [Aisle.sentStop, hun, Aisle.jobs, hq, ha, hs, hr]

/-- What a restart makes of an aisle has the law of R59 (R83, R176). -/
theorem State.RestartsTo.sound (h : u.RestartsTo x y) (ha : x.crane.active = none) (hst : x.crane.staged = none)
    (hsus : x.crane.suspension = none) (hp : x.crane.phase = none) (hd : x.crane.deadline = none) (hr : x.crane.retryIndex = 0) :
    y.Sound := by
  have hcrane : ∀ v, v ≠ .busy → ({ x.crane with state := v } : Crane).Sound := fun v hv =>
    Crane.sound_of_jobless hv ha hst hp hd hr fun _ => hsus
  unfold State.RestartsTo at h
  split at h
  next hout =>
    obtain rfl := h
    by_cases hf : x.crane.state = .faulted
    · exact ⟨hcrane _ (by simp [hf]), iff_of_true hout (by simp [hf, CraneState.lost])⟩
    · exact ⟨hcrane _ (by simp [hf]), iff_of_true hout (by simp [hf, CraneState.lost])⟩
  next hin =>
    split at h
    · obtain rfl := h
      exact ⟨hcrane _ nofun, iff_of_false hin nofun⟩
    · split at h
      · obtain rfl := h
        exact ⟨hcrane _ nofun, iff_of_false hin nofun⟩
      · obtain ⟨k, rfl⟩ := h
        exact ⟨hcrane _ nofun, iff_of_false hin nofun⟩

/-- In COMMISSIONING a restart creates no PARK (R83). -/
theorem State.RestartsTo.queue (h : u.RestartsTo x y) (hm : u.mode = .commissioning) : y.queue = x.queue := by
  unfold State.RestartsTo at h
  rw [if_pos hm] at h
  split at h <;> rw [h]

theorem Restarted.look (h : Restarted r u) (hy : u.aisles.look a = some y) : ∃ x z, r.aisles.look a = some x
    ∧ u.RestartsTo x.ended z ∧ y = if u.zoneState x.geom.zone = some .shutdown then z.entered r.settings.stop else z := by
  obtain ⟨x, hx⟩ := Option.isSome_iff_exists.1 (Table.look_isSome_of_mem (h.numbers ▸ Table.mem_numbers_of_look hy))
  obtain ⟨z, hz, hlook⟩ := h.aisles a x hx
  exact ⟨x, z, hx, hz, (Option.some.inj (hlook.symm.trans hy)).symm⟩

theorem Restarted.cranes (h : Restarted r u) (hr : Fresh r) : Cranes u := by
  refine ⟨((tablesLawful_iff u).1 h.tables).1, fun a y hy => ?_, fun hm a y hy => ?_⟩
  · obtain ⟨x, z, hx, hz, rfl⟩ := h.look hy
    obtain ⟨-, hactive, hstaged, hsus, -, hphase, hdeadline, -, hretry⟩ := hr.aisles a x hx
    have hs : z.Sound := hz.sound hactive hstaged hsus hphase hdeadline hretry
    split
    · exact (hs.hands_entered _).sound
    · exact hs
  · obtain ⟨x, z, hx, hz, rfl⟩ := h.look hy
    obtain ⟨hqueue, hactive, hstaged, hsus, -⟩ := hr.aisles a x hx
    obtain ⟨h1, h2, h3⟩ := hz.crane
    have hq := (hz.queue hm).trans hqueue
    split
    · exact Aisle.jobs_entered hq (h2.trans hactive) (h3.trans hstaged) (h1.trans hsus) _
    · simp [Aisle.jobs, hq, h1, h2, h3, Aisle.ended, hactive, hstaged, hsus]

theorem Restarted.homes (h : Restarted (s.restartRecords cause) u) (hh : Homes s) : Homes u := by
  have hbins : u.bins = (s.restartRecords cause).bins := by rw [h.rest]
  have hmode : u.mode = s.mode := h.mode
  have hgeom : ∀ v, u.slotInBounds v = s.slotInBounds v := fun v => by
    refine State.slotInBounds_of_geom ?_
    cases hx : s.aisles.look v.aisle with
    | none =>
      have hr : (s.restartRecords cause).aisles.look v.aisle = none := by
        rw [State.restartRecords_aisles, Table.look_mapRecords, hx]
        rfl
      cases hu : u.aisles.look v.aisle with
      | none => rfl
      | some y =>
        obtain ⟨x, -, hx', -⟩ := h.look hu
        rw [hr] at hx'
        cases hx'
    | some x =>
      obtain ⟨z, hz, hlook⟩ := h.aisles _ _ (State.restartRecords_aisle hx cause)
      rw [hlook, Option.map_some, Option.map_some]
      split
      · rw [Aisle.entered_geom, hz.geom]
        rfl
      · rw [hz.geom]
        rfl
  have hslots : ∀ n b, u.bins.look n = some b → b.pendingHome = none ∧ ∃ c, s.bins.look n = some c ∧ b.home = c.home :=
    fun n b hb => by
      rw [hbins, State.restartRecords_bin, Option.map_eq_some_iff] at hb
      obtain ⟨c, hc, rfl⟩ := hb
      exact ⟨rfl, c, hc, rfl⟩
  obtain ⟨-, -, -, -, -, -, -, hw, -⟩ := (tablesLawful_iff u).1 h.tables
  refine ⟨hw, fun hm => ?_, fun hm n b v hb hv => ?_, fun n b hb hp => absurd (hslots n b hb).1 hp⟩
  · rw [hbins, State.restartRecords_slots]
    exact (hh.apart (hmode ▸ hm)).sublist (home_sublist_slots _)
  · obtain ⟨hp, c, hc, hhome⟩ := hslots n b hb
    rw [Bin.slots, hp] at hv
    obtain rfl := List.mem_singleton.1 hv
    rw [hgeom, hhome]
    exact hh.inBounds (hmode ▸ hm) n c c.home hc List.mem_cons_self

theorem Restarted.stock (h : Restarted (s.restartRecords cause) u) (hs : Stock (s.restartRecords cause)) : Stock u := by
  have hsame : SameStock (s.restartRecords cause) u := by
    refine ⟨h.mode, ?_, ?_, ?_, ?_, ?_⟩
    · rw [h.rest]
    · rw [h.rest]
    · rw [h.rest]
    · rw [h.rest]
    · rw [h.stations]
      refine Table.map_mapRecords _ _ _ fun n x => ?_
      dsimp only
      split <;> rfl
  exact { hsame.same.stock hs with }

/-! ### The pass at the end of the restart -/

/-- Where no job exists, the Dispatcher does nothing. -/
theorem Cranes.withdrawAll (hc : Cranes s) (hm : s.mode = .commissioning) : s.withdrawAll = s := by
  refine List.foldlRecOn (motive := fun v => v = s) _ _ rfl fun v hv a _ => ?_
  subst hv
  unfold State.withdrawIneligible
  split
  · rfl
  next x hx =>
    have hj := hc.idle hm a x hx
    simp only [Aisle.jobs, List.append_eq_nil_iff, Option.toList_eq_nil_iff] at hj
    rw [hj.1.1.2]

theorem Cranes.lookAll (hc : Cranes s) (hm : s.mode = .commissioning) : s.lookAll = s := by
  have hp : s.parksOnly := fun hin => absurd (hm.symm.trans hin) nofun
  refine List.foldlRecOn (motive := fun v => v = s) _ _ rfl fun v hv a _ => ?_
  subst hv
  rw [hp.lookAisle]
  split
  next h =>
    obtain ⟨x, hx, -⟩ := (Option.any_eq_true _ _).1 h
    have hj := hc.idle hm a x hx
    simp only [Aisle.jobs, List.append_eq_nil_iff] at hj
    exact State.activatePark_of_not hx (.inr (by simp [hj.1.1.1]))
  · rfl

theorem Restarted.settles (h : Restarted r u) (hr : Fresh r) : Upholds u u.settleWing := by
  rcases u.mode.inService_or_commissioning with hm | hm
  · exact (Kept.refl u).settleWing.upholds hm
  · have hc := h.cranes hr
    have hmode : u.judgeZones.mode = u.mode := (Flow.refl u).judgeZones.mode
    have haisles : u.judgeZones.aisles = u.aisles := h.judged_aisles hr
    have hj : Cranes u.judgeZones := ⟨haisles ▸ hc.wf, haisles ▸ hc.sound, fun _ => haisles ▸ hc.idle hm⟩
    have hm' : u.judgeZones.mode = .commissioning := hmode.trans hm
    have hsettled : u.settleWing = u.judgeZones := by
      show u.judgeZones.withdrawAll.lookAll = u.judgeZones
      rw [hj.withdrawAll hm', hj.lookAll hm']
    have hrest := (Judged.judgeZones (h.wiped hr) h.stations_wf).rest
    rw [hsettled, hrest]
    exact Same.upholds { Same.refl u with }

theorem upholds_restart (ht : s.tablesLawful = true) (cause : StartCause) : Upholds s (s.restart cause) := by
  obtain ⟨u, hu, hrestart⟩ := State.restart_spec ht cause
  have hr := State.restartRecords_fresh ht cause
  have hsettles := hu.settles hr
  rw [hrestart]
  exact
    { cranes := fun _ => hsettles.cranes (hu.cranes hr)
      homes := fun _ hh => hsettles.homes (hu.cranes hr) (hu.homes hh)
      stock := fun hs => hsettles.stock (hu.stock (hs.restartRecords ht cause)) }

end

end Sys2Proof.Machine
end

section
/-! O7 and O8: every command, and every ds that passes, keeps the laws of the crane records, the home slots and the shelf
space. -/
namespace Sys2Proof.Machine

section
variable {s t : State} {c : Instr} {r : Role} {take : State → Nat → State}

/-! ### Telegrams and expiries: in IN_SERVICE alone -/

theorem Upholds.inService (hm : s.mode = .inService → Kept s t) (hn : s.mode = .commissioning → t = s) : Upholds s t := by
  rcases s.mode.inService_or_commissioning with h | h
  · exact (hm h).upholds h
  · rw [hn h]
    exact .refl s

theorem Upholds.admission (h : ∀ n, Kept s (take s n)) (src kind : Nat) (r : Role) : Upholds s (s.admission src kind r take) := by
  unfold State.admission
  split
  · exact .refl s
  next d _ =>
    refine .inService (fun hm => ?_) fun hm => by rw [if_pos hm]
    rw [if_neg (by simp [hm])]
    exact .ite (h _) ((Same.refl s).fieldProtocol _ _).kept

theorem Upholds.whileInService {f : State → State} (h : Kept s (f s)) : Upholds s (s.whileInService f) := by
  refine .inService (fun hm => ?_) fun hm => ?_
  · rw [State.whileInService, if_pos (State.isInService_iff.2 hm)]
    exact h
  · rw [State.whileInService, if_neg (by simp [State.isInService, hm])]

/-! ### The port -/

theorem Upholds.setWaiting (u : State) (k : List Instr) (h : Upholds s u) : Upholds s (u.setLink { u.link with waiting := k }) :=
  h.same ((Same.refl u).setLink _)

theorem Upholds.drainPort (h : Upholds s t) : Upholds s t.drainPort :=
  drainPort_inv (Upholds s) Upholds.setWaiting (fun i _ u _ hu => hu.trans (upholds_runOrder i u)) h

theorem Upholds.atPort (c : Instr) (s : State) : Upholds s (s.atPort c (runOrder c)) :=
  atPort_inv (Upholds s) Upholds.setWaiting c (fun u _ hu => hu.trans (upholds_runOrder c u)) (.refl s)

/-! ### Power, lines, and one ds -/

theorem upholds_poweredOn (s : State) (panel key : Bool) : Upholds s (s.poweredOn panel key) := by
  obtain ⟨-, -, -, hlists, -, htables, htags, hcranes, hhomes, hstock⟩ := resetMeetsTheLaws
  have hc : Cranes State.reset := (cranes_iff htables).1 hcranes
  have hreset : Same State.reset (s.poweredOn panel key) := { Same.refl State.reset with }
  exact
    { cranes := fun _ => hreset.upholds.cranes hc
      homes := fun _ _ => hreset.upholds.homes hc ((homes_iff htables hc).1 hhomes)
      stock := fun _ => hreset.stock ((stock_iff htables hlists htags).1 hstock) }

theorem upholds_panel (s : State) (v : Bool) {f : State → State} (h : ∀ u, Kept u (f u)) :
    Upholds s (if (s.setFirePanel v).isInService then f (s.setFirePanel v) else s.setFirePanel v) := by
  refine ((Same.refl s).setFirePanel v).upholds.trans ?_
  split
  next hm => exact (h _).upholds (State.isInService_iff.1 hm)
  · exact .refl _

/-- A crane whose timers run keeps its job, and the deadline that goes with it. -/
theorem Aisle.Sound.hands_tick {x : Aisle} (hs : x.Sound) : x.Hands nothing { x with crane := x.crane.tick } := by
  refine ⟨⟨?_, hs.service⟩, rfl, fun j hj _ => .inl hj⟩
  exact { hs.crane with deadline := (Option.isSome_map ..).trans hs.crane.deadline }

theorem Request.view_tick (r : Request) : r.tick.view = r.view := by
  unfold Request.view Request.tick
  rw [Option.isSome_map]

theorem upholds_tick (s : State) : Upholds s s.tick := by
  refine .inService (fun hm => ?_) fun hm => by rw [State.tick, hm]
  have hstock : SameStock s s.tick := by
    unfold State.tick
    split
    · exact .refl s
    · exact { SameStock.refl s with
        requests := by
          rw [List.map_map]
          exact List.map_congr_left fun r _ => r.view_tick
        returns := Table.map_mapRecords s.stations (fun _ => Station.tick) _ fun _ _ => rfl }
  have haisles : s.tick.aisles = s.aisles.mapRecords fun _ x => { x with crane := x.crane.tick } := by rw [State.tick, hm]
  refine (Kept.refl s).everyAisle (g := fun _ x => { x with crane := x.crane.tick }) hstock ?_ (fun b => ?_)
    fun _ x _ hs => hs.hands_tick.any
  · rw [haisles, Table.wf_mapRecords]
  · rw [haisles, Table.look_mapRecords]

/-! ### Every command -/

theorem upholds_exec (ht : s.tablesLawful = true) (h : exec c s = .next t) : Upholds s t := by
  have scan := Kept.scans s
  cases c with
  | powerOn panel key => obtain rfl := Host.Outcome.next.inj h; exact upholds_poweredOn s panel key
  | resetLineAsserted => obtain rfl := Host.Outcome.next.inj h; exact (upholds_restart ht _).drainPort
  | sendNextFrame => obtain rfl := Host.Outcome.next.inj h; exact ((Same.refl s).setLink _).upholds.drainPort
  | restartTakesEffect =>
    obtain rfl := Host.Outcome.next.inj h
    split
    · exact (upholds_restart ht _).drainPort
    · exact .refl s
  | firePanelAsserted => obtain rfl := Host.Outcome.next.inj h; exact upholds_panel s true fun u => (Kept.refl u).panelAlarm
  | firePanelNegated =>
    obtain rfl := Host.Outcome.next.inj h
    exact upholds_panel s false fun u => ((Same.refl u).report _ _ _).kept
  | badFrame => obtain rfl := Host.Outcome.next.inj h; exact .refl s
  | unadmittedFieldTelegram =>
    obtain rfl := Host.Outcome.next.inj h
    split
    · exact .refl s
    · exact (Same.ite (.refl s) ((Same.refl s).fieldProtocol _ _)).upholds
  | passDown st l => obtain rfl := Host.Outcome.next.inj h; exact (Same.ite ((Same.refl s).sendStation _ _) (.refl s)).upholds
  | phase src p b l => obtain rfl := Host.Outcome.next.inj h; exact .admission (fun a => .takePhase p b l s a) _ _ _
  | done src => obtain rfl := Host.Outcome.next.inj h; exact .admission (fun a => .takeDone s a) _ _ _
  | pickFailed src p => obtain rfl := Host.Outcome.next.inj h; exact .admission (fun a => .takePickFailed p s a) _ _ _
  | auditResult src q => obtain rfl := Host.Outcome.next.inj h; exact .admission (fun a => .takeAuditResult q s a) _ _ _
  | stopped src p l f => obtain rfl := Host.Outcome.next.inj h; exact .admission (fun a => .takeStopped p l f s a) _ _ _
  | parked src q => obtain rfl := Host.Outcome.next.inj h; exact .admission (fun a => .takeParked q s a) _ _ _
  | craneFault src => obtain rfl := Host.Outcome.next.inj h; exact .admission (fun a => .takeCraneFault s a) _ _ _
  | binArrived src n => obtain rfl := Host.Outcome.next.inj h; exact .admission (fun st => .takeArrival n s st) _ _ _
  | itemOutScan src i => obtain rfl := Host.Outcome.next.inj h; exact .admission (fun st => (scan st i).1) _ _ _
  | itemInScan src i => obtain rfl := Host.Outcome.next.inj h; exact .admission (fun st => (scan st i).2.1) _ _ _
  | returnScan src i => obtain rfl := Host.Outcome.next.inj h; exact .admission (fun st => (scan st i).2.2.1) _ _ _
  | binDone src n => obtain rfl := Host.Outcome.next.inj h; exact .admission (fun st => (scan st n).2.2.2) _ _ _
  | mouthOccupied src => obtain rfl := Host.Outcome.next.inj h; exact .admission (fun st => ((Same.refl s).setMouth st true).kept) _ _ _
  | mouthClear src => obtain rfl := Host.Outcome.next.inj h; exact .admission (fun st => (Same.takeMouthClear s st).kept) _ _ _
  | stationFault src => obtain rfl := Host.Outcome.next.inj h; exact .admission (fun st => .takeStationFault s st) _ _ _
  | terminalKey src l => obtain rfl := Host.Outcome.next.inj h; exact .admission (fun st => (Same.takeTerminalKey l s st).kept) _ _ _
  | closed src => obtain rfl := Host.Outcome.next.inj h; exact .admission (fun n => .takeClosed s n) _ _ _
  | opened src => obtain rfl := Host.Outcome.next.inj h; exact .admission (fun n => .takeOpened s n) _ _ _
  | jammed src => obtain rfl := Host.Outcome.next.inj h; exact .admission (fun n => .takeJammed s n) _ _ _
  | beat src k => obtain rfl := Host.Outcome.next.inj h; exact .admission (fun n => .takeBeat k s n) _ _ _
  | prealarm src d => obtain rfl := Host.Outcome.next.inj h; exact .admission (fun n => .takePrealarm d s n) _ _ _
  | alarm src d => obtain rfl := Host.Outcome.next.inj h; exact .admission (fun n => .takeAlarm d s n) _ _ _
  | clear src d => obtain rfl := Host.Outcome.next.inj h; exact .admission (fun n => .takeClear d s n) _ _ _
  | trouble src d => obtain rfl := Host.Outcome.next.inj h; exact .admission (fun n => .takeTrouble d s n) _ _ _
  | craneDeadlineExpiry a => obtain rfl := Host.Outcome.next.inj h; exact .whileInService (.craneDeadlineExpires s a)
  | inTransitDeadlineExpiry st n => obtain rfl := Host.Outcome.next.inj h; exact .whileInService (.inTransitExpires s st n)
  | confirmWindowExpiry k => obtain rfl := Host.Outcome.next.inj h; exact .whileInService (.confirmExpires s k)
  | alertWindowExpiry z => obtain rfl := Host.Outcome.next.inj h; exact .whileInService (.alertExpires s z)
  | supervisionExpiry n => obtain rfl := Host.Outcome.next.inj h; exact .whileInService (.supervisionExpires s n)
  | shutterWaitExpiry n => obtain rfl := Host.Outcome.next.inj h; exact .whileInService (Same.shutterWaitExpires s n).kept
  | stopWaitExpiry a => obtain rfl := Host.Outcome.next.inj h; exact .whileInService (.stopWaitExpires s a)
  | _ => obtain rfl := Host.Outcome.next.inj h; exact .atPort _ s

theorem upholds_step (ht : s.tablesLawful = true) (h : step s = .next t) : Upholds s t := by
  unfold step at h
  split at h
  · obtain rfl := Host.Outcome.next.inj h
    exact upholds_tick s
  next c rest _ =>
    have hset : Same s (s.setPending rest) := { Same.refl s with }
    exact hset.upholds.trans (upholds_exec (s := s.setPending rest) ht h)

end

/-! ### The obligations -/

/-- Settles O7 (R10, R59, R60): a job enters and leaves a crane with its phase and deadline, its record where the crane
stops, and a bin its pending home with the TRANSFER that names it. -/
theorem stepKeepsCraneRecordsAndHomeSlots : Obligations.StepKeepsCraneRecordsAndHomeSlots := by
  intro s t hc ht h
  have hup := upholds_step ht h
  have ht' := (step_keeps h).tables ht
  have hs := (cranes_iff ht).1 hc
  have hcranes := hup.cranes hs
  exact ⟨(cranes_iff ht').2 hcranes, fun hh => (homes_iff ht' hcranes).2 (hup.homes hs ((homes_iff ht hs).1 hh))⟩

/-- Settles O8 (R24 to R30, R105, R106, R123): each change of an item moves the figures of its bin by what the item takes
of it, before and after. -/
theorem stepKeepsShelfSpaceFigures : Obligations.StepKeepsShelfSpaceFigures := by
  intro s t hs ht hl htag h
  obtain ⟨-, hlists, -, htables, htags⟩ := stepKeepsListsTablesAndTags s t h
  exact (stock_iff (htables ht) (hlists hl) (htags htag)).2 ((upholds_step ht h).stock ((stock_iff ht hl htag).1 hs))

end Sys2Proof.Machine
end
